-- ==== Sys2Proof/Word.lean ====
section
/-! DEFINITION. The word types of the machine (R9, R10, R117): names for the widths that the spec gives its
registers and records, and nothing else. -/

namespace Sys2Proof

/-- A byte of memory (R10). -/
abbrev Byte := BitVec 8

/-- A 32-bit instruction word or record word (R15, R40). -/
abbrev W32 := BitVec 32

/-- A 64-bit scalar or control register (R117, R121). -/
abbrev W64 := BitVec 64

/-- A 512-bit vector register (R117, R119). -/
abbrev Vec := BitVec 512

end Sys2Proof
end

