-- ==== Sys2Proof/Machine/Bits.lean ====
section
/-! DEFINITION. Helpers on bits and bytes: little-endian values (R10), sign extension (R13), the mix and hash helpers
(R104), and counting operations of the scalar words (R159). -/

namespace Sys2Proof.Machine

/-- The number that bytes hold, byte 0 least significant (R10). -/
def bytesToNat : List Byte → Nat
  | [] => 0
  | b :: bs => b.toNat + 256 * bytesToNat bs

/-- The lowest `n` bytes of a number (R10). -/
def natToBytes : Nat → Nat → List Byte
  | 0, _ => []
  | n + 1, v => BitVec.ofNat 8 v :: natToBytes n (v / 256)

/-- The field of a number from bit `lo`, `w` bits wide. -/
def bits (v lo w : Nat) : Nat := v / 2 ^ lo % 2 ^ w

/-- The field of a register from bit `lo`, `w` bits wide, as a number. -/
def fieldOf {n : Nat} (v : BitVec n) (lo w : Nat) : Nat := bits v.toNat lo w

/-- One bit of a register. -/
def flagOf {n : Nat} (v : BitVec n) (i : Nat) : Bool := v.getLsbD i

/-- A number of `w` bits read as two's complement (R13). -/
def signed (w v : Nat) : Int := if v % 2 ^ w < 2 ^ (w - 1) then (v % 2 ^ w : Nat) else (v % 2 ^ w : Nat) - (2 ^ w : Nat)

/-- The lowest `w` bits of an integer, as a number. -/
def wrap (w : Nat) (i : Int) : Nat := (i % (2 ^ w : Nat)).toNat

/-- A 64-bit register from an integer, modulo 2^64. -/
def w64 (i : Int) : W64 := BitVec.ofInt 64 i

/-- A register set to zero in bits at and above `w`. -/
def lowBits {n : Nat} (v : BitVec n) (w : Nat) : BitVec n := BitVec.ofNat n (v.toNat % 2 ^ w)

/-- The number with one bit of value `b` at place `i`. -/
def bitAt (b : Bool) (i : Nat) : Nat := if b then 2 ^ i else 0

/-- mix64 of R104. -/
def mix64 (x : W64) : W64 :=
  let x := x ^^^ (x >>> 31)
  let x := x * 0x8C3E5B71D4A92F17#64
  let x := x ^^^ (x >>> 27)
  let x := x * 0xE5F07A39B26C1D4B#64
  x ^^^ (x >>> 33)

/-- hash of R104. -/
def hash64 (v : W64) : W64 := mix64 (v ^^^ 0x5F1D3B2AC46E8A93#64)

/-- srbits of R144: 24 pseudo-random bits for element `e`. -/
def srbits (jkey lidx src : W64) (e : Nat) : Nat :=
  let v := mix64 (jkey ^^^ 0x6A1C93E74F25D80B#64)
  let v := mix64 (v ^^^ lidx)
  let v := mix64 (v ^^^ src)
  let v := mix64 (v ^^^ BitVec.ofNat 64 e)
  v.toNat % 16777216

/-- Number of leading zero bits below place `n` (CLZ, R159). -/
def leadingZeros (v : W64) : Nat → Nat
  | 0 => 0
  | n + 1 => if v.getLsbD n then 0 else 1 + leadingZeros v n

/-- Number of trailing zero bits from place `64 - n` on (CTZ, R159). -/
def trailingZeros (v : W64) : Nat → Nat
  | 0 => 0
  | n + 1 => if v.getLsbD (63 - n) then 0 else 1 + trailingZeros v n

/-- Number of one bits below place `n` (POPC, R159). -/
def onesBelow {w : Nat} (v : BitVec w) : Nat → Nat
  | 0 => 0
  | n + 1 => (v.getLsbD n).toNat + onesBelow v n

/-- The number whose bits are those of `v` below place `n` in reverse order (BREV, R159). -/
def reversed (v : W64) : Nat → Nat
  | 0 => 0
  | n + 1 => (v.getLsbD n).toNat * 2 ^ (63 - n) + reversed v n

/-- The first `n` elements, then groups of `n` again (fuel bounds the number of groups). -/
def groups {α : Type} (n : Nat) : Nat → List α → List (List α)
  | 0, _ => []
  | _, [] => []
  | fuel + 1, l => l.take n :: groups n fuel (l.drop n)

/-- A list cut into groups of `n`. -/
def chunksOf {α : Type} (n : Nat) (l : List α) : List (List α) := groups n l.length l

/-- The list with `n` copies of `a` at its end at least filled up to that length. -/
def padTo {α : Type} (n : Nat) (a : α) (l : List α) : List α := l ++ List.replicate (n - l.length) a

/-- The largest of a list of numbers, zero for none. -/
def maxOf : List Nat → Nat
  | [] => 0
  | a :: l => max a (maxOf l)

/-- Position of the first element that satisfies a test. -/
def indexWhere {α : Type} (p : α → Bool) : List α → Option Nat
  | [] => none
  | a :: l => if p a then some 0 else (indexWhere p l).map (· + 1)

/-- Replace the element at a position by its image. -/
def modifyAt {α : Type} (n : Nat) (f : α → α) : List α → List α
  | [] => []
  | a :: l => match n with
    | 0 => f a :: l
    | m + 1 => a :: modifyAt m f l

end Sys2Proof.Machine
end

