-- ==== Sys2Proof/Machine/Sparse.lean ====
section
/-! DEFINITION. Tables with rising keys and memories as lists of cells in one canonical form: addresses strictly rising
and no cell equal to what an unlisted address reads as. An unlisted address reads as zero. -/

namespace Sys2Proof.Machine

namespace Sparse

/-- The value under a key. -/
def get? {α : Type} : List (Nat × α) → Nat → Option α
  | [], _ => none
  | (k, v) :: rest, n => if k = n then some v else get? rest n

/-- The table with a value under a key, keys rising. -/
def set {α : Type} : List (Nat × α) → Nat → α → List (Nat × α)
  | [], n, x => [(n, x)]
  | (k, v) :: rest, n, x =>
    if n < k then (n, x) :: (k, v) :: rest
    else if n = k then (n, x) :: rest
    else (k, v) :: set rest n x

/-- The table without a key. -/
def erase {α : Type} : List (Nat × α) → Nat → List (Nat × α)
  | [], _ => []
  | (k, v) :: rest, n => if k = n then rest else (k, v) :: erase rest n

/-- Keys strictly rise. -/
def sorted {α : Type} : List (Nat × α) → Bool
  | [] => true
  | [_] => true
  | a :: b :: rest => decide (a.1 < b.1) && sorted (b :: rest)

end Sparse

/-- A memory. -/
abbrev Memory := List Host.Cell

namespace Memory

/-- The canonical form: addresses strictly rising, no byte equal to zero. -/
def wf (m : Memory) : Bool := Sparse.sorted m && m.all (fun c => c.2 != 0)

/-- What an unlisted address reads as. [DESIGN CHOICE, log 2: unsafe] -/
def unlisted : Byte := 0

/-- The byte at an address. -/
def get (m : Memory) (a : Nat) : Byte := (Sparse.get? m a).getD unlisted

/-- The memory with a byte at an address. -/
def set (m : Memory) (a : Nat) (b : Byte) : Memory :=
  if b = unlisted then Sparse.erase m a else Sparse.set m a b

/-- `n` bytes from an address on. -/
def read (m : Memory) : Nat → Nat → List Byte
  | _, 0 => []
  | a, n + 1 => get m a :: read m (a + 1) n

/-- Bytes stored from an address on. -/
def write (m : Memory) : Nat → List Byte → Memory
  | _, [] => m
  | a, b :: bs => write (set m a b) (a + 1) bs

end Memory

end Sys2Proof.Machine
end

