-- ==== Sys2Proof/Config.lean ====
section
/-! DEFINITION. What the spec leaves open or leaves to the installation: constants without a body, so that nothing can
be proved of their values. Free values take a number that the machine advances (`State.fresh`), so that two of them
need not agree. -/

namespace Sys2Proof.Config

/-- An unspecified value (R12): the number of the step, the place in the step, and what it stands for.
[DESIGN CHOICE, log 5: unsafe] -/
opaque freeWord (fresh slot code : Nat) : Vec

/-- A choice that no rule fixes: which of several events comes first (R7), which victim bucket a core draws (R31), which
of two versions of a line an unordered read returns (R165). [DESIGN CHOICE, log 3: safe] -/
opaque choice (fresh code : Nat) : Nat

/-- Nanoseconds that pass in one step (R4, R417). [DESIGN CHOICE, log 4: safe] -/
opaque tick (fresh : Nat) : Nat

/-- Clock periods that a freeze lasts (R68, R124). [DESIGN CHOICE, log 4: safe] -/
opaque periods (fresh : Nat) : Nat

/-- What a byte written under one key reads as under another (R408, R409): physical address, key number written, key number
read, and the data that the block was written from. -/
opaque otherKey (address written read stored : Nat) : Byte

/-- Extents of the pod's torus minus one (R5, R421). [DESIGN CHOICE, log 8: safe] -/
opaque podX : Fin 8
opaque podY : Fin 16
opaque podZ : Fin 16

/-- Coordinates of this package (R387). [DESIGN CHOICE, log 8: safe] -/
opaque atX : Fin 8
opaque atY : Fin 16
opaque atZ : Fin 16

/-- Spare lanes of a stack (R413). [DESIGN CHOICE, log 8: safe] -/
opaque spareLanes (stack : Nat) : Fin 16

/-- Array rows of a core that the boot march test finds failing (R220, R222, R416). [DESIGN CHOICE, log 8: safe] -/
opaque failingRows (core : Nat) : List Nat

/-- Dies whose boot test finds a failure that can not be repaired, and the lowest core concerned (R416).
[DESIGN CHOICE, log 8: safe] -/
opaque bootFailure (die : Nat) : Option Nat

/-- Failing rows of a die's memories and the spares that its boot test maps them to (R416). [DESIGN CHOICE, log 8: safe] -/
opaque repairedRows (die : Nat) : List (Nat × Nat)

/-- The image of a boot stage and the verdict of its verification (R415). [DESIGN CHOICE, log 8: safe] -/
opaque bootImage (stage : Nat) : List Byte
opaque bootVerified (stage : Nat) : Bool

/-- Security version (R415). [DESIGN CHOICE, log 8: safe] -/
opaque securityVersion : Nat

/-- Signature of an attestation report under the identity key (R415). [DESIGN CHOICE, log 8: safe] -/
opaque signature (measures : List (BitVec 384)) (version package : Nat) (nonce : List Byte) : Nat

/-- The KIND of a RET's trace entry, counted without the 1 of a taken branch (R167, R276). [DESIGN CHOICE, log 18: safe] -/
opaque returnKind : Fin 15

/-- Eye margin of a lane as measured (R413). [DESIGN CHOICE, log 8: safe] -/
opaque eyeMargin (fresh stack lane : Nat) : BitVec 16

/-- R332 does not say with which of its folded operations the checksum lines of a tile are folded: the first one or the
last one. [DESIGN CHOICE, log 52: safe] -/
opaque checksumsFirst : Bool

/-- The bits of the first header of an extended destination other than VALID, which R324 does not give, for the final
header that follows it. [DESIGN CHOICE, log 51: safe] -/
opaque openHeader (final : Vec) : Vec

end Sys2Proof.Config
end

