-- ==== Sys2Proof/Syntax.lean ====
section
/-! DEFINITION. The instructions: one constructor for each row of the opcode table of the spec. The 271 rows with an
encoding are 32-bit words and carry the operand fields of their encoding (R46); the chain bit of a word is not an
operand of it, because it only says where a bundle ends (R40, R41). The 88 rows without an encoding are the steps
that the device takes by itself or that come from outside: they carry the numbers of the unit concerned and, where
they come from outside, what comes in. -/

namespace Sys2Proof

/-- What a packet from another package asks for (R428, R431). -/
inductive PacketKind where
  /-- A put: store the bytes at the address (R428). -/
  | put
  /-- A get request: read bytes and send them back (R428). -/
  | get
  /-- A message for a queue of a core (R428). -/
  | message
  deriving DecidableEq, Repr

/-- A packet as the remote package sees it on arrival (R423, R426, R428); of a queue message all its packets together. -/
structure Packet where
  /-- Put, get or message. -/
  kind : PacketKind
  /-- Package that sent it. -/
  source : Nat
  /-- Core there that issued the operation; its packets of one class form a stream (R424). -/
  core : Nat
  /-- Operation number at the source, quoted in the answer. -/
  op : Nat
  /-- Sequence number of its stream (R423). -/
  seq : Nat
  /-- Group handle it carries, zero for none (R39, R427). -/
  group : BitVec 32
  /-- Range id that the remote package translates through (R428). -/
  rid : Nat
  /-- Byte offset in the range, or the queue destination of a message in the form of QPUT. -/
  addr : Nat
  /-- Length in bytes of a get, or of the whole put or message that the packet is part of. -/
  len : Nat
  /-- Byte offset in the range at which the whole put begins. -/
  start : Nat
  /-- Reduction kind of a put: 0 plain, 1 INT64, 2 FIX64. -/
  red : Nat
  /-- User word of a message. -/
  user : BitVec 32
  /-- Data of the packet: payload of a put, or of a message the next up to 512 bytes. -/
  bytes : List (BitVec 8)
  deriving DecidableEq, Repr

/-- What one junction sensor of a die tells (R418). -/
structure JunctionReading where
  /-- Which of the four junctions. -/
  junction : Nat
  /-- Its temperature in degrees. -/
  celsius : Nat
  deriving DecidableEq, Repr

/-- What a rail's regulator answers to a read (R419). -/
structure RailReading where
  /-- Voltage in units of 2.5 mV. -/
  steps : Nat
  /-- Current in units of 1 A. -/
  amperes : Nat
  deriving DecidableEq, Repr

/-- A replay on a link (R422). -/
structure FlitReplay where
  /-- The port that rejected the flit. -/
  port : Nat
  /-- It has rejected a replay of the flit that it rejected last. -/
  again : Bool
  deriving DecidableEq, Repr

/-- A barrier round that breaks (R434). -/
structure BrokenRound where
  /-- Key of its entry. -/
  entry : Nat
  /-- It has broken at another package, which tells this one. -/
  elsewhere : Bool
  deriving DecidableEq, Repr

/-- What another participant of a collective supplies: for a chunk its elements, or those of several participants combined on the
way (R443); when survivors agree on where to resume its count (R446); at the end its flags (R438). -/
structure Contribution where
  /-- First of the participants that it comes from, by their places among those that the step combines (R442, R446). -/
  lo : Nat
  /-- One past the last of them. -/
  hi : Nat
  /-- Elements, and their checksum where chunks carry one. -/
  bytes : List (BitVec 8)
  /-- Elements, by their place in the chunk, that none of them has any more (R446). -/
  lost : List Nat
  /-- Flags of the combinations that were made for it (R438, R443). -/
  flags : BitVec 8
  /-- Chunks of the step in progress that the participant has completed (R446). -/
  done : Nat
  deriving DecidableEq, Repr

/-- Where a single fault strikes (R8, R280 and the tables of the other levels). -/
inductive FaultSite where
  /-- A register of a core, uncorrectable: up to 143 as machine check XCODE 1 numbers them (R269), the message-handler context's h
  from 112 on, then p0 to p7 from 144, k0 to k7 from 152, lc0 and lc1 from 160, and that context's p from 162 (R280). -/
  | register (core number : Nat)
  /-- A line of a core scratchpad, uncorrectable (R125). -/
  | coreLine (core offset : Nat)
  /-- A line of a cluster scratchpad, uncorrectable (R299). -/
  | clusterLine (cluster offset : Nat)
  /-- A threshold-buffer entry (R269). -/
  | threshold (core entry : Nat)
  /-- A scalar or vector datapath residue (R269). -/
  | residue (core : Nat)
  /-- Issue or decode logic (R269). -/
  | issue (core : Nat)
  /-- The duplicated matrix-sequencer control (R269). -/
  | matrixControl (core : Nat)
  /-- An array cell or accumulator element (R231). -/
  | accumulator (core set row col : Nat)
  /-- A checksum cell of an accumulator set: kind 0 a row checksum, 1 a column checksum, 2 the corner total (R218, R231). -/
  | checksum (core set kind index : Nat)
  /-- An element of a latch (R217). -/
  | latch (core latch row byte : Nat)
  /-- An entry of the trace buffer (R276). -/
  | trace (core entry : Nat)
  /-- A bundle of the loop buffer (R280). -/
  | loopBuffer (core : Nat)
  /-- The range-table entry of a core that holds an address (R280). -/
  | rangeEntry (core va : Nat)
  /-- The registers of a queue (R316). -/
  | queueRegisters (core q : Nat)
  /-- The message at the front of a queue's overflow area, uncorrectable (R316). -/
  | overflow (core q : Nat)
  /-- A correctable error anywhere on a die: only the counters see it (R280). -/
  | corrected (die : Nat)
  /-- The duplicated control of a copy engine (R340). -/
  | copyEngine (cluster engine : Nat)
  /-- The duplicated control of a lintel node (R379). -/
  | lintel (node : Nat)
  /-- An operand that a lintel node holds for a tag, uncorrectable (R379). -/
  | heldOperand (node tag : Nat)
  /-- The lockstep of a synchronisation engine (R360). -/
  | syncEngine (die : Nat)
  /-- An object in a synchronisation engine's cache, uncorrectable (R360). -/
  | object (die obj : Nat)
  /-- A record of a bucket, uncorrectable: die, bucket, level and place (R360). -/
  | record (die bucket level index : Nat)
  /-- A record that stands with a core, uncorrectable: place 0 the local slot, 1 the plan, 2 to 5 the levels of the posts of
  deterministic mode, and 6 and on the waiter of a queue (R18, R360). -/
  | coreRecord (core place index : Nat)
  /-- A record parked on a barrier, uncorrectable: die, object and place among its waiters (R18, R360). -/
  | parkedRecord (die obj index : Nat)
  /-- A record of the next-phase list, uncorrectable (R18, R360). -/
  | nextRecord (die index : Nat)
  /-- A NoC message that is not delivered after its retries: the operation that it carries (R316, R360). -/
  | nocMessage (op : Nat)
  /-- The buffer of a copy engine, uncorrectable: the engine and the transfer whose chunk it runs (R340). -/
  | copyBuffer (cluster engine : Nat)
  /-- An entry of a transom record: a die, or 8 for the hub (R360). -/
  | transomEntry (unit index : Nat)
  /-- The duplicated timer of a wait scan (R360). -/
  | waitScan (die : Nat)
  /-- A tag-table slot of a cluster (R316). -/
  | tagSlot (cluster slot : Nat)
  /-- A block of HBM, uncorrectable (R406). -/
  | hbmBlock (address : Nat)
  /-- A block of HBM with bad symbols that its code corrects (R406). -/
  | hbmSymbols (address : Nat)
  /-- The NoC message that brings the next queue message of another package to a core is lost for good (R316, R428). -/
  | delivery (core : Nat)
  /-- The parity of a key slot (R420). -/
  | keySlot (slot : Nat)
  /-- The lockstep of the hub (R401). -/
  | hub
  /-- The duplicated control of the fabric router (R425). -/
  | router
  deriving DecidableEq, Repr

/-- The instructions (R50 to R57 for the words; the rule each constructor names for the rest). -/
inductive Instr where
  /-- LOOP_BACK (R171). At the issue of the last body bundle the counter decrements and the body repeats or the loop ends. -/
  | loopBack (core : Nat)
  /-- TIMED_LANDING (R66). A timed result is delivered from the threshold buffer at its landing cycle. -/
  | timedLanding (core : Nat)
  /-- LATE_DATA_ARRIVAL (R68). Data arriving after its delivery cycle ends a freeze of the core clock domain. -/
  | lateDataArrival (core periods : Nat) (bank : Bool)
  /-- PICKUP (R24). An idle core takes a record from its local slot, plan or bucket and starts running it. -/
  | pickup (core : Nat)
  /-- IDLE_RETRY (R31). A core that found no work starts its search again after 256 cycles. -/
  | idleRetry (core : Nat)
  /-- SUSPENSION (R25). After the pipes drain, the core writes back state and sends the record to its destination. -/
  | suspension (core : Nat)
  /-- PIN_WAKE (R87). A pinned strand's wake condition is met and it resumes on its core. -/
  | pinWake (core : Nat)
  /-- TRAP_ENTRY (R261). After landings complete, the arbiter takes the highest request and enters trap-handler mode. -/
  | trapEntry (core : Nat)
  /-- MESSAGE_HANDLER_START (R308). The message-handler context starts at a bundle boundary for a delivered handler message. -/
  | messageHandlerStart (core : Nat)
  /-- WATCHDOG_EXPIRY (R271). The hang watchdog period passes and the action depends on the core's state. -/
  | watchdogExpiry (core : Nat)
  /-- PREEMPTION_SERVICE (R272). A core serves a pre-emption request, saving its strand and acknowledging. -/
  | preemptionService (core : Nat)
  /-- CORE_RESUME (R274). A core restores its save area and resumes issue. -/
  | coreResume (core : Nat)
  /-- SAVE_TIMER_EXPIRY (R275). A save or restore timer expires and the strand is marked lost. -/
  | saveTimerExpiry (core : Nat)
  /-- RANGE_WALK (R244). The cluster walker answers a range-table or code-entry miss. -/
  | rangeWalk (core : Nat) (code : Bool) (va : Nat)
  /-- MATRIX_STEP (R229). The macro-sequencer runs one queued step into an accumulator set. -/
  | matrixStep (core : Nat)
  /-- STEP_RESULTS_COMPLETE (R224). A step's results become complete in the set 140 cycles after its end and its flags land. -/
  | stepResultsComplete (core : Nat)
  /-- LATCH_LOAD (R228). The macro-sequencer loads a latch with an A operand. -/
  | latchLoad (core : Nat)
  /-- NEST_PASS (R230). The macro-sequencer begins one pass of a TGO nest, clearing the set as NEST directs. -/
  | nestPass (core : Nat)
  /-- DRAIN (R231). The macro-sequencer checks a set, corrects or replays, and quantises and writes the tile. -/
  | drain (core : Nat)
  /-- MATRIX_CLEAR (R237). The macro-sequencer clears an accumulator set. -/
  | matrixClear (core : Nat)
  /-- POST_PLACEMENT (R81). The event arbiter of the target die appends a posted record to its bucket or next-phase list. -/
  | postPlacement (core op : Nat)
  /-- TAG_ARBITER_APPLY (R300). The cluster's tag arbiter applies a KLOOK, KTAG or KUNTAG. -/
  | tagArbiterApply (core op : Nat)
  /-- MESSAGE_ARRIVAL (R306). A message arrives at a queue and is delivered into the ring or appended to overflow. -/
  | messageArrival (core op : Nat)
  /-- SEND_ACKNOWLEDGEMENT (R307). An acknowledgement of a QPUT or MEET reaches the send unit with the destination free count. -/
  | sendAcknowledgement (core op : Nat)
  /-- SEND_HOLD_EXPIRY (R307). A message held 256 cycles for a full queue is sent. -/
  | sendHoldExpiry (core op : Nat)
  /-- CHUNK_ADMISSION (R327). A chunk with an HBM side is admitted to an engine under the budget. -/
  | chunkAdmission (cluster xfer : Nat)
  /-- BLOCK_COMPLETE (R329). A 4 KiB block's lines are granted and the barrier is decremented. -/
  | blockComplete (cluster xfer : Nat)
  /-- TILE_VERIFICATION (R322). An extended source tile's header and checksums are verified, with one reread on mismatch. -/
  | tileVerification (cluster xfer : Nat)
  /-- TRANSFER_COMPLETE (R330). A transfer ends with a status, failing its barrier on error. -/
  | transferComplete (cluster xfer : Nat)
  /-- ENGINE_FAULT (R340). A copy-engine control mismatch ends the chunk's transfer with status 0x5F. -/
  | engineFault (cluster engine : Nat)
  /-- SYNC_OPERATION (R345). The synchronisation engine applies an operation to an object in event-arbiter order. -/
  | syncOperation (core op : Nat)
  /-- BARRIER_DECREMENT (R345). A transfer's pending-byte decrement reaches a barrier and is tested. -/
  | barrierDecrement (op : Nat)
  /-- OBJECT_FETCH (R341). An object missing from the engine cache is fetched from the sync overflow area. -/
  | objectFetch (die obj : Nat)
  /-- WAIT_SCAN (R358). Every millisecond the supervisor scans waits and reports those past the limit. -/
  | waitScan (die : Nat)
  /-- MEET_ARRIVAL (R364). An operand arrives at its home node and is held, matched, combined or returned. -/
  | meetArrival (op : Nat)
  /-- ORPHAN_SCAN (R366). Every 10 µs a node returns operands unmatched past the orphan timeout. -/
  | orphanScan (node : Nat)
  /-- RESULT_REOFFER (R372). A refused result or return is offered again every 256 cycles. -/
  | resultReoffer (node : Nat)
  /-- RANGE_UPDATE (R248). After invalidations are acknowledged and counts drain, new descriptors are installed. -/
  | rangeUpdate (core op : Nat)
  /-- COMPACTION_BLOCK (R251). The compaction engine copies one 4 KiB block and advances the watermark. -/
  | compactionBlock
  /-- DOORBELL (R389). A write of LQTAIL makes new launch queue entries pending, or is refused. -/
  | doorbell (value : BitVec 64)
  /-- LAUNCH (R394). A launch entry is checked and its strands are created and placed. -/
  | launch
  /-- COLLECTIVE_ENTRY (R440). A collective entry is checked and the LXU begins its join. -/
  | collectiveEntry
  /-- JOB_START (R391). A job start entry zeroes device state and loads new key slots. -/
  | jobStart
  /-- JOB_END (R391). A job end entry clears the job's key slots and zeroes state. -/
  | jobEnd
  /-- UNKNOWN_ENTRY (R390). An entry with an unknown type fails with fault 0x01. -/
  | unknownEntry
  /-- PHASE_COMMIT (R93). When the phase policy ends a phase, the controller checks, digests, commits and opens the next. -/
  | phaseCommit
  /-- PREEMPT (R400). Host command that stops every engine of the job at its stopping unit. -/
  | preempt
  /-- PREEMPT_ACKNOWLEDGEMENT (R400). An engine's acknowledgement reaches the collector, completing pre-emption at the last. -/
  | preemptAcknowledgement (engine : Nat)
  /-- PREEMPTION_TIMEOUT (R401). An engine fails to acknowledge within 10 ms and the launch fails with 0x0C. -/
  | preemptionTimeout (engine : Nat)
  /-- RESUME (R400). Host command that restarts the pre-empted engines in order. -/
  | resume
  /-- CANCEL (R400). Host command that pre-empts if needed and fails the launch with 0x0A. -/
  | cancel
  /-- CONTINUE (R395). Host command that clears QSTOP so entries are taken again. -/
  | continueCmd
  /-- FREEZE (R402). Host command that freezes the transom record TRSEL names. -/
  | freeze
  /-- UNFREEZE (R402). Host command that unfreezes the transom record TRSEL names. -/
  | unfreeze
  /-- HCMD_INVALID (R388). An unknown command value sets BADCMD. -/
  | hcmdInvalid (value : BitVec 64)
  /-- HSTAT_READ (R388). A host read of HSTAT returns it and clears BADCMD. -/
  | hstatRead
  /-- EYECTL_WRITE (R413). A write of EYECTL sets the control fields and clears the stack's INT. -/
  | eyectlWrite (stack : Nat) (value : BitVec 64)
  /-- HOST_REGISTER_WRITE (R387). A host write to a register without its own row, ignored or refused where the rules say. -/
  | hostRegisterWrite (offset : Nat) (value : BitVec 64)
  /-- WINDOW_READ (R404). A host read through the memory window decrypts under HWKEY. -/
  | windowRead (offset len : Nat)
  /-- WINDOW_WRITE (R404). A host write through the memory window encrypts under HWKEY or is dropped. -/
  | windowWrite (offset : Nat) (bytes : List (BitVec 8))
  /-- ATTESTATION_REQUEST (R415). The host requests a signed report of measurements and a nonce. -/
  | attestationRequest (nonce : List (BitVec 8))
  /-- BOOT (R415). A package reset verifies and measures each firmware stage and runs the boot tests. -/
  | boot
  /-- PATROL_SCRUB (R407). The patrol reads a block and arms a write-back if it found errors. -/
  | patrolScrub (stack : Nat)
  /-- SCRUB_WRITEBACK (R407). The armed scrub write-back writes the corrected block unless a demand write cancelled it. -/
  | scrubWriteback (stack : Nat)
  /-- EYE_THRESHOLD_CROSSED (R414). A lane's margin falls below THRESH and retraining is scheduled. -/
  | eyeThresholdCrossed (stack lane : Nat)
  /-- RETRAINING_SLOT (R414). A scheduled slot retrains the stack's lanes or repairs a lane onto a spare. -/
  | retrainingSlot (stack : Nat)
  /-- DROOP (R417). A droop detector stretches the die's core clock. -/
  | droop (die : Nat)
  /-- POWER_LOOP (R417). The power controller adjusts the core-clock target to hold package power;
  `others` is what the package draws beside its core rails, in milliwatts. -/
  | powerLoop (others : Nat)
  /-- THERMAL_LOOP (R418). Junction temperature lowers or raises the clock target, or trips the die. -/
  | thermalLoop (die : Nat) (reading : JunctionReading)
  /-- RAIL_POLL (R419). Every 10 µs the power controller reads each core rail over the rail command bus. -/
  | railPoll (die : Nat) (reading : RailReading)
  /-- REGULATOR_TIMEOUT (R419). A regulator silent for 100 µs lowers the clock target to 600 MHz. -/
  | regulatorTimeout (die : Nat)
  /-- FLIT_REPLAY (R422). A flit failing its CRC is rejected and replayed from the retry buffer. -/
  | flitReplay (replay : FlitReplay)
  /-- PORT_RETRAIN (R425). A port retrains, moving traffic to its twin, and goes down after repeated failures. -/
  | portRetrain (port : Nat)
  /-- PACKAGE_DEATH (R425). A package is declared dead and every reachable package records it. -/
  | packageDeath (package : Nat)
  /-- PACKET_ARRIVAL (R428). A put, get request or queue message arrives at the remote package and is checked and applied. -/
  | packetArrival (packet : Packet)
  /-- PACKET_TIMEOUT (R423). A packet not accepted after 20 µs is resent, failing after five tries. -/
  | packetTimeout (op : Nat)
  /-- FABRIC_COMPLETION (R429). An acknowledgement or last get response completes a remote operation and decrements its barrier. -/
  | fabricCompletion (op : Nat) (status : BitVec 8) (bytes : List (BitVec 8))
  /-- FABRIC_BARRIER_ARRIVAL (R433). An arrival flit reaches a tree node and is forwarded when all children have arrived. -/
  | fabricBarrierArrival (entry child : Nat)
  /-- FABRIC_BARRIER_RELEASE (R432). A release flit advances GEN and arrives at each recorded local object. -/
  | fabricBarrierRelease (entry : Nat)
  /-- ROUND_BREAK (R434). A fabric barrier round that stays open past WLIM breaks and fails its objects. -/
  | roundBreak (round : BrokenRound)
  /-- COLLECTIVE_JOIN (R445). Participants join over a fabric barrier round and compare entry hashes. -/
  | collectiveJoin (peer : Nat) (hash : BitVec 64)
  /-- JOIN_TIMEOUT (R445). A participant not joined within JTO is treated as dead. -/
  | joinTimeout (peer : Nat)
  /-- COLLECTIVE_CHUNK (R444). A chunk of a collective step is combined along the canonical tree and written. -/
  | collectiveChunk (contribution : List Contribution)
  /-- RESET (R391). A cold, warm, die or core reset returns state to reset values. -/
  | reset (level unit : Nat)
  /-- SINGLE_FAULT (R8). A single fault strikes a structure (a soft error upsetting stored data, or a mismatch in duplicated control such as the matrix sequencer, lintel, sync engine, router or hub lockstep). -/
  | singleFault (fault : FaultSite)
  /-- PORT_RETRAINING_END (R425). A port's retraining ends within 50 µs, returning it to service or counting a failed retraining toward the port going down. -/
  | portRetrainingEnd (port : Nat) (ok : Bool)
  /-- ENGINE_RESUME_REPORT (R400). A restarted engine other than a core reports to the hub during resume, letting the next class restart and, at the last report, PSTATE become running. -/
  | engineResumeReport (engine : Nat)
  /-- GET_RESPONSE_ARRIVAL (R429). A get-response packet other than the last arrives at the requesting package and its data is written at LADDR. -/
  | getResponseArrival (op : Nat) (bytes : List (BitVec 8))
  /-- NOP (R50). Control word that does nothing and occupies the B pipe. -/
  | nop
  /-- BR (R167). Branches by packet displacement when its guard condition holds. -/
  | br (r : BitVec 1) (g : BitVec 3) (n : BitVec 1) (d : BitVec 16)
  /-- JMP (R167). Jumps to the word offset held in an s register. -/
  | jmp (r : BitVec 1) (g : BitVec 3) (n : BitVec 1) (s : BitVec 5)
  /-- CALL_DISP (R168). Calls a packet displacement target and writes the link register. -/
  | callDisp (r : BitVec 1) (g : BitVec 3) (n : BitVec 1) (d : BitVec 16)
  /-- CALL_REG (R168). Calls the word offset in an s register and writes the link register. -/
  | callReg (r : BitVec 1) (g : BitVec 3) (n : BitVec 1) (s : BitVec 5)
  /-- RET (R167). Returns to the word offset in the link register, acting as JMP. -/
  | ret (r : BitVec 1) (g : BitVec 3) (n : BitVec 1) (s : BitVec 5)
  /-- BRV_ALL (R169). Branches when a k register is all ones, traps if the mask is not uniform. -/
  | brvAll (r : BitVec 1) (k : BitVec 3) (d : BitVec 16)
  /-- BRV_NONE (R169). Branches when a k register is all zeros, traps if the mask is not uniform. -/
  | brvNone (r : BitVec 1) (k : BitVec 3) (d : BitVec 16)
  /-- LOOP (R171). Captures the following bundles in the loop buffer and runs them for the trip count. -/
  | loop (n : BitVec 8) (l : BitVec 1) (s : BitVec 5)
  /-- BSEL (R175). Selects a shape bucket from a schedule table, writes s28 and k7 and branches. -/
  | bsel (r : BitVec 1) (a : BitVec 5) (t : BitVec 11)
  /-- FENCE_L (R170). Holds issue until earlier L-pipe and K-pipe accesses have been granted. -/
  | fenceL
  /-- MFC (R162). Reads a control register into an s register. -/
  | mfc (d : BitVec 5) (r : BitVec 11)
  /-- MTC (R162). Writes an s register into a control register at t + 2. -/
  | mtc (a : BitVec 5) (r : BitVec 11)
  /-- TRAP (R176). Requests the TRAP cause after its bundle with a code in TVAL. -/
  | trap (k : BitVec 11)
  /-- BKPT (R176). Raises the breakpoint cause precisely at its own bundle. -/
  | bkpt (k : BitVec 11)
  /-- RETT (R177). Leaves trap-handler mode and resumes at EPC, or completes a pending suspension. -/
  | rett
  /-- RETH (R177). Ends the message-handler run and returns issue to the main context. -/
  | reth
  /-- TRAPACK (R177). Sets STATUS.TACK so that a handler fault enters bank 2 instead of halting. -/
  | trapack
  /-- POST (R81). Builds a record from a post descriptor and places it in a bucket by its affinity address. -/
  | post (d : BitVec 5) (a : BitVec 5) (b : BitVec 5) (l : BitVec 5)
  /-- POSTN (R81). Posts a record into the next-phase list of its target die. -/
  | postn (d : BitVec 5) (a : BitVec 5) (b : BitVec 5) (l : BitVec 5)
  /-- SUSP (R85). Suspends the running strand to the tail of its home bucket. -/
  | susp
  /-- PIN_M (R87). Pins the strand in place until the matrix macro-sequencer is idle. -/
  | pinM
  /-- PIN_Q (R87). Pins the strand in place until a queue of the core holds an entry. -/
  | pinQ (a : BitVec 5)
  /-- PIN_B (R87). Pins the strand in place until a barrier releases, fails, is re-initialised or invalidated. -/
  | pinB (d : BitVec 5) (a : BitVec 5)
  /-- PIN_T (R87). Pins the strand in place until the time base reaches a value. -/
  | pinT (a : BitVec 5)
  /-- END (R85). Ends the running strand, also ending trap-handler mode. -/
  | endStrand
  /-- GNEW (R89). Allocates the lowest free group id with an initial member count. -/
  | gnew (d : BitVec 5) (a : BitVec 5) (l : BitVec 5)
  /-- GJOIN (R89). Adds one to a group's member count. -/
  | gjoin (d : BitVec 5) (a : BitVec 5) (l : BitVec 5)
  /-- GLEAVE (R89). Subtracts one from a group's member count. -/
  | gleave (d : BitVec 5) (a : BitVec 5) (l : BitVec 5)
  /-- GFREE (R89). Moves an open group entry to freeing, or to free when nothing is outstanding. -/
  | gfree (d : BitVec 5) (a : BitVec 5) (l : BitVec 5)
  /-- GINFO (R90). Reads a group table entry without an incarnation check. -/
  | ginfo (d : BitVec 5) (a : BitVec 5) (l : BitVec 5)
  /-- DGST (R92). Reads one half of the strand's running digest. -/
  | dgst (d : BitVec 5) (a : BitVec 5) (l : BitVec 5)
  /-- TRACE_W (R279). Writes a KIND 8 trace entry holding a register value. -/
  | traceW (a : BitVec 5)
  /-- TRACE_R (R279). Reads one trace buffer entry into a register pair. -/
  | traceR (d : BitVec 5) (a : BitVec 5)
  /-- TRIG_FIRE (R279). Fires the trace trigger if recording and not yet triggered. -/
  | trigFire
  /-- TRIG_REARM (R279). Clears TRSTAT, empties every trace entry and resets IDX. -/
  | trigRearm
  /-- ADD_SR (R159). Adds two registers. -/
  | addSr (d : BitVec 5) (a : BitVec 5) (b : BitVec 5) (g : BitVec 3)
  /-- ADD_SI (R159). Adds a register and an immediate. -/
  | addSi (d : BitVec 5) (a : BitVec 5) (i : BitVec 10)
  /-- SUB_SR (R159). Subtracts two registers. -/
  | subSr (d : BitVec 5) (a : BitVec 5) (b : BitVec 5) (g : BitVec 3)
  /-- SUB_SI (R159). Subtracts an immediate from a register. -/
  | subSi (d : BitVec 5) (a : BitVec 5) (i : BitVec 10)
  /-- AND_SR (R159). Bitwise AND of two registers. -/
  | andSr (d : BitVec 5) (a : BitVec 5) (b : BitVec 5) (g : BitVec 3)
  /-- AND_SI (R159). Bitwise AND with an immediate. -/
  | andSi (d : BitVec 5) (a : BitVec 5) (i : BitVec 10)
  /-- OR_SR (R159). Bitwise OR of two registers. -/
  | orSr (d : BitVec 5) (a : BitVec 5) (b : BitVec 5) (g : BitVec 3)
  /-- OR_SI (R159). Bitwise OR with an immediate. -/
  | orSi (d : BitVec 5) (a : BitVec 5) (i : BitVec 10)
  /-- XOR_SR (R159). Bitwise XOR of two registers. -/
  | xorSr (d : BitVec 5) (a : BitVec 5) (b : BitVec 5) (g : BitVec 3)
  /-- XOR_SI (R159). Bitwise XOR with an immediate. -/
  | xorSi (d : BitVec 5) (a : BitVec 5) (i : BitVec 10)
  /-- ANDN_SR (R159). AND of a register with the complement of another. -/
  | andnSr (d : BitVec 5) (a : BitVec 5) (b : BitVec 5) (g : BitVec 3)
  /-- ANDN_SI (R159). AND of a register with the complement of an immediate. -/
  | andnSi (d : BitVec 5) (a : BitVec 5) (i : BitVec 10)
  /-- SHL_SR (R159). Shifts left by a register amount. -/
  | shlSr (d : BitVec 5) (a : BitVec 5) (b : BitVec 5) (g : BitVec 3)
  /-- SHL_SI (R159). Shifts left by an immediate amount. -/
  | shlSi (d : BitVec 5) (a : BitVec 5) (i : BitVec 10)
  /-- SHR_SR (R159). Logical right shift by a register amount. -/
  | shrSr (d : BitVec 5) (a : BitVec 5) (b : BitVec 5) (g : BitVec 3)
  /-- SHR_SI (R159). Logical right shift by an immediate amount. -/
  | shrSi (d : BitVec 5) (a : BitVec 5) (i : BitVec 10)
  /-- SAR_SR (R159). Arithmetic right shift by a register amount. -/
  | sarSr (d : BitVec 5) (a : BitVec 5) (b : BitVec 5) (g : BitVec 3)
  /-- SAR_SI (R159). Arithmetic right shift by an immediate amount. -/
  | sarSi (d : BitVec 5) (a : BitVec 5) (i : BitVec 10)
  /-- ROT_SR (R159). Rotates left by a register amount. -/
  | rotSr (d : BitVec 5) (a : BitVec 5) (b : BitVec 5) (g : BitVec 3)
  /-- ROT_SI (R159). Rotates left by an immediate amount. -/
  | rotSi (d : BitVec 5) (a : BitVec 5) (i : BitVec 10)
  /-- MIN_SR (R159). Signed minimum of two registers. -/
  | minSr (d : BitVec 5) (a : BitVec 5) (b : BitVec 5) (g : BitVec 3)
  /-- MIN_SI (R159). Signed minimum with an immediate. -/
  | minSi (d : BitVec 5) (a : BitVec 5) (i : BitVec 10)
  /-- MAX_SR (R159). Signed maximum of two registers. -/
  | maxSr (d : BitVec 5) (a : BitVec 5) (b : BitVec 5) (g : BitVec 3)
  /-- MAX_SI (R159). Signed maximum with an immediate. -/
  | maxSi (d : BitVec 5) (a : BitVec 5) (i : BitVec 10)
  /-- MINU_SR (R159). Unsigned minimum of two registers. -/
  | minuSr (d : BitVec 5) (a : BitVec 5) (b : BitVec 5) (g : BitVec 3)
  /-- MINU_SI (R159). Unsigned minimum with an immediate. -/
  | minuSi (d : BitVec 5) (a : BitVec 5) (i : BitVec 10)
  /-- MAXU_SR (R159). Unsigned maximum of two registers. -/
  | maxuSr (d : BitVec 5) (a : BitVec 5) (b : BitVec 5) (g : BitVec 3)
  /-- MAXU_SI (R159). Unsigned maximum with an immediate. -/
  | maxuSi (d : BitVec 5) (a : BitVec 5) (i : BitVec 10)
  /-- MUL_SR (R159). Low 64 bits of the product of two registers. -/
  | mulSr (d : BitVec 5) (a : BitVec 5) (b : BitVec 5) (g : BitVec 3)
  /-- MUL_SI (R159). Low 64 bits of the product with an immediate. -/
  | mulSi (d : BitVec 5) (a : BitVec 5) (i : BitVec 10)
  /-- MULH (R159). High 64 bits of the signed 128-bit product. -/
  | mulh (d : BitVec 5) (a : BitVec 5) (b : BitVec 5) (g : BitVec 3)
  /-- MULHU (R159). High 64 bits of the unsigned 128-bit product. -/
  | mulhu (d : BitVec 5) (a : BitVec 5) (b : BitVec 5) (g : BitVec 3)
  /-- DIV (R160). Signed division truncating towards zero, never trapping. -/
  | div (d : BitVec 5) (a : BitVec 5) (b : BitVec 5) (g : BitVec 3)
  /-- DIVU (R160). Unsigned division, never trapping. -/
  | divu (d : BitVec 5) (a : BitVec 5) (b : BitVec 5) (g : BitVec 3)
  /-- REM (R160). Signed remainder with the sign of the dividend. -/
  | rem (d : BitVec 5) (a : BitVec 5) (b : BitVec 5) (g : BitVec 3)
  /-- REMU (R160). Unsigned remainder. -/
  | remu (d : BitVec 5) (a : BitVec 5) (b : BitVec 5) (g : BitVec 3)
  /-- CLZ (R159). Counts leading zero bits. -/
  | clz (d : BitVec 5) (a : BitVec 5) (g : BitVec 3)
  /-- CTZ (R159). Counts trailing zero bits. -/
  | ctz (d : BitVec 5) (a : BitVec 5) (g : BitVec 3)
  /-- POPC (R159). Counts one bits. -/
  | popc (d : BitVec 5) (a : BitVec 5) (g : BitVec 3)
  /-- BREV (R159). Reverses the bit order. -/
  | brev (d : BitVec 5) (a : BitVec 5) (g : BitVec 3)
  /-- EXT_B (R159). Sign-extends the low byte. -/
  | extB (d : BitVec 5) (a : BitVec 5) (g : BitVec 3)
  /-- EXT_BU (R159). Zero-extends the low byte. -/
  | extBu (d : BitVec 5) (a : BitVec 5) (g : BitVec 3)
  /-- EXT_H (R159). Sign-extends the low halfword. -/
  | extH (d : BitVec 5) (a : BitVec 5) (g : BitVec 3)
  /-- EXT_HU (R159). Zero-extends the low halfword. -/
  | extHu (d : BitVec 5) (a : BitVec 5) (g : BitVec 3)
  /-- EXT_W (R159). Sign-extends the low word. -/
  | extW (d : BitVec 5) (a : BitVec 5) (g : BitVec 3)
  /-- EXT_WU (R159). Zero-extends the low word. -/
  | extWu (d : BitVec 5) (a : BitVec 5) (g : BitVec 3)
  /-- BFX (R159). Extracts a bit field. -/
  | bfx (d : BitVec 5) (a : BitVec 5) (b : BitVec 5) (g : BitVec 3)
  /-- BFI (R159). Inserts a bit field into the destination register. -/
  | bfi (d : BitVec 5) (a : BitVec 5) (b : BitVec 5) (g : BitVec 3)
  /-- ADDSH_1 (R159). Adds a register to another shifted left by 1. -/
  | addsh1 (d : BitVec 5) (a : BitVec 5) (b : BitVec 5) (g : BitVec 3)
  /-- ADDSH_2 (R159). Adds a register to another shifted left by 2. -/
  | addsh2 (d : BitVec 5) (a : BitVec 5) (b : BitVec 5) (g : BitVec 3)
  /-- ADDSH_3 (R159). Adds a register to another shifted left by 3. -/
  | addsh3 (d : BitVec 5) (a : BitVec 5) (b : BitVec 5) (g : BitVec 3)
  /-- ADDSH_4 (R159). Adds a register to another shifted left by 4. -/
  | addsh4 (d : BitVec 5) (a : BitVec 5) (b : BitVec 5) (g : BitVec 3)
  /-- SEL (R159). Selects one of two registers by a selector predicate. -/
  | sel (d : BitVec 5) (a : BitVec 5) (b : BitVec 5) (p : BitVec 3)
  /-- CMP_EQ_SR (R159). Sets a predicate if two registers are equal. -/
  | cmpEqSr (p : BitVec 3) (a : BitVec 5) (b : BitVec 5) (g : BitVec 3)
  /-- CMP_EQ_SI (R159). Sets a predicate if a register equals an immediate. -/
  | cmpEqSi (p : BitVec 3) (a : BitVec 5) (i : BitVec 10)
  /-- CMP_NE_SR (R159). Sets a predicate if two registers differ. -/
  | cmpNeSr (p : BitVec 3) (a : BitVec 5) (b : BitVec 5) (g : BitVec 3)
  /-- CMP_NE_SI (R159). Sets a predicate if a register differs from an immediate. -/
  | cmpNeSi (p : BitVec 3) (a : BitVec 5) (i : BitVec 10)
  /-- CMP_LT_SR (R159). Signed less-than compare into a predicate. -/
  | cmpLtSr (p : BitVec 3) (a : BitVec 5) (b : BitVec 5) (g : BitVec 3)
  /-- CMP_LT_SI (R159). Signed less-than compare with an immediate. -/
  | cmpLtSi (p : BitVec 3) (a : BitVec 5) (i : BitVec 10)
  /-- CMP_GE_SR (R159). Signed greater-or-equal compare into a predicate. -/
  | cmpGeSr (p : BitVec 3) (a : BitVec 5) (b : BitVec 5) (g : BitVec 3)
  /-- CMP_GE_SI (R159). Signed greater-or-equal compare with an immediate. -/
  | cmpGeSi (p : BitVec 3) (a : BitVec 5) (i : BitVec 10)
  /-- CMP_LTU_SR (R159). Unsigned less-than compare into a predicate. -/
  | cmpLtuSr (p : BitVec 3) (a : BitVec 5) (b : BitVec 5) (g : BitVec 3)
  /-- CMP_LTU_SI (R159). Unsigned less-than compare with a sign-extended immediate. -/
  | cmpLtuSi (p : BitVec 3) (a : BitVec 5) (i : BitVec 10)
  /-- CMP_GEU_SR (R159). Unsigned greater-or-equal compare into a predicate. -/
  | cmpGeuSr (p : BitVec 3) (a : BitVec 5) (b : BitVec 5) (g : BitVec 3)
  /-- CMP_GEU_SI (R159). Unsigned greater-or-equal compare with a sign-extended immediate. -/
  | cmpGeuSi (p : BitVec 3) (a : BitVec 5) (i : BitVec 10)
  /-- PLOG_AND (R159). Predicate AND. -/
  | plogAnd (d : BitVec 3) (a : BitVec 3) (b : BitVec 3) (g : BitVec 3)
  /-- PLOG_OR (R159). Predicate OR. -/
  | plogOr (d : BitVec 3) (a : BitVec 3) (b : BitVec 3) (g : BitVec 3)
  /-- PLOG_XOR (R159). Predicate XOR. -/
  | plogXor (d : BitVec 3) (a : BitVec 3) (b : BitVec 3) (g : BitVec 3)
  /-- PLOG_ANDN (R159). Predicate AND with the complement of the second. -/
  | plogAndn (d : BitVec 3) (a : BitVec 3) (b : BitVec 3) (g : BitVec 3)
  /-- MOVI (R159). Moves an immediate into a register. -/
  | movi (d : BitVec 5) (i : BitVec 10)
  /-- LIMM (R44). Extends the immediate of the preceding SI word to 37 bits. -/
  | limm (i : BitVec 27)
  /-- VADD (R185). Floating lane-wise add, rounded once. -/
  | vadd (x : BitVec 1) (t : BitVec 2) (d : BitVec 5) (a : BitVec 5) (b : BitVec 5) (m : BitVec 3) (z : BitVec 1)
  /-- VSUB (R185). Floating lane-wise subtract. -/
  | vsub (x : BitVec 1) (t : BitVec 2) (d : BitVec 5) (a : BitVec 5) (b : BitVec 5) (m : BitVec 3) (z : BitVec 1)
  /-- VMUL (R185). Floating lane-wise multiply. -/
  | vmul (x : BitVec 1) (t : BitVec 2) (d : BitVec 5) (a : BitVec 5) (b : BitVec 5) (m : BitVec 3) (z : BitVec 1)
  /-- VFMA (R185). Fused multiply-add with one rounding. -/
  | vfma (x : BitVec 1) (t : BitVec 2) (d : BitVec 5) (a : BitVec 5) (b : BitVec 5) (m : BitVec 3) (z : BitVec 1)
  /-- VFMS (R185). Fused multiply-subtract with one rounding. -/
  | vfms (x : BitVec 1) (t : BitVec 2) (d : BitVec 5) (a : BitVec 5) (b : BitVec 5) (m : BitVec 3) (z : BitVec 1)
  /-- VFNMA (R185). Fused negated multiply-add with one rounding. -/
  | vfnma (x : BitVec 1) (t : BitVec 2) (d : BitVec 5) (a : BitVec 5) (b : BitVec 5) (m : BitVec 3) (z : BitVec 1)
  /-- VMIN (R185). Floating lane-wise minimum. -/
  | vmin (x : BitVec 1) (t : BitVec 2) (d : BitVec 5) (a : BitVec 5) (b : BitVec 5) (m : BitVec 3) (z : BitVec 1)
  /-- VMAX (R185). Floating lane-wise maximum. -/
  | vmax (x : BitVec 1) (t : BitVec 2) (d : BitVec 5) (a : BitVec 5) (b : BitVec 5) (m : BitVec 3) (z : BitVec 1)
  /-- VABS (R185). Floating absolute value. -/
  | vabs (x : BitVec 1) (t : BitVec 2) (d : BitVec 5) (a : BitVec 5) (m : BitVec 3) (z : BitVec 1)
  /-- VNEG (R185). Floating negation. -/
  | vneg (x : BitVec 1) (t : BitVec 2) (d : BitVec 5) (a : BitVec 5) (m : BitVec 3) (z : BitVec 1)
  /-- VDIV (R185). Correctly rounded floating division. -/
  | vdiv (x : BitVec 1) (t : BitVec 2) (d : BitVec 5) (a : BitVec 5) (b : BitVec 5) (m : BitVec 3) (z : BitVec 1)
  /-- VSQRT (R185). Correctly rounded floating square root. -/
  | vsqrt (x : BitVec 1) (t : BitVec 2) (d : BitVec 5) (a : BitVec 5) (m : BitVec 3) (z : BitVec 1)
  /-- VCMP_EQ_FLOAT (R192). Floating equality compare into a k register. -/
  | vcmpEqFloat (x : BitVec 1) (t : BitVec 2) (k : BitVec 3) (a : BitVec 5) (b : BitVec 5) (m : BitVec 3) (z : BitVec 1)
  /-- VCMP_LT_FLOAT (R192). Floating less-than compare into a k register. -/
  | vcmpLtFloat (x : BitVec 1) (t : BitVec 2) (k : BitVec 3) (a : BitVec 5) (b : BitVec 5) (m : BitVec 3) (z : BitVec 1)
  /-- VCMP_LE_FLOAT (R192). Floating less-or-equal compare into a k register. -/
  | vcmpLeFloat (x : BitVec 1) (t : BitVec 2) (k : BitVec 3) (a : BitVec 5) (b : BitVec 5) (m : BitVec 3) (z : BitVec 1)
  /-- VCMP_UN_FLOAT (R192). Floating unordered compare into a k register. -/
  | vcmpUnFloat (x : BitVec 1) (t : BitVec 2) (k : BitVec 3) (a : BitVec 5) (b : BitVec 5) (m : BitVec 3) (z : BitVec 1)
  /-- VIADD (R196). Integer lane-wise add modulo the width. -/
  | viadd (x : BitVec 1) (i : BitVec 2) (d : BitVec 5) (a : BitVec 5) (b : BitVec 5) (m : BitVec 3) (z : BitVec 1)
  /-- VISUB (R196). Integer lane-wise subtract. -/
  | visub (x : BitVec 1) (i : BitVec 2) (d : BitVec 5) (a : BitVec 5) (b : BitVec 5) (m : BitVec 3) (z : BitVec 1)
  /-- VIMUL (R196). Low bits of the integer lane product. -/
  | vimul (x : BitVec 1) (i : BitVec 2) (d : BitVec 5) (a : BitVec 5) (b : BitVec 5) (m : BitVec 3) (z : BitVec 1)
  /-- VIMULH (R196). High bits of the signed integer lane product. -/
  | vimulh (x : BitVec 1) (i : BitVec 2) (d : BitVec 5) (a : BitVec 5) (b : BitVec 5) (m : BitVec 3) (z : BitVec 1)
  /-- VIMIN (R196). Signed integer lane minimum. -/
  | vimin (x : BitVec 1) (i : BitVec 2) (d : BitVec 5) (a : BitVec 5) (b : BitVec 5) (m : BitVec 3) (z : BitVec 1)
  /-- VIMAX (R196). Signed integer lane maximum. -/
  | vimax (x : BitVec 1) (i : BitVec 2) (d : BitVec 5) (a : BitVec 5) (b : BitVec 5) (m : BitVec 3) (z : BitVec 1)
  /-- VAND (R196). Byte-masked bitwise AND. -/
  | vand (x : BitVec 1) (d : BitVec 5) (a : BitVec 5) (b : BitVec 5) (m : BitVec 3) (z : BitVec 1)
  /-- VOR (R196). Byte-masked bitwise OR. -/
  | vor (x : BitVec 1) (d : BitVec 5) (a : BitVec 5) (b : BitVec 5) (m : BitVec 3) (z : BitVec 1)
  /-- VXOR (R196). Byte-masked bitwise XOR. -/
  | vxor (x : BitVec 1) (d : BitVec 5) (a : BitVec 5) (b : BitVec 5) (m : BitVec 3) (z : BitVec 1)
  /-- VANDN (R196). Byte-masked AND with complement. -/
  | vandn (x : BitVec 1) (d : BitVec 5) (a : BitVec 5) (b : BitVec 5) (m : BitVec 3) (z : BitVec 1)
  /-- VSHL (R196). Lane-wise left shift. -/
  | vshl (x : BitVec 1) (j : BitVec 1) (d : BitVec 5) (a : BitVec 5) (b : BitVec 5) (m : BitVec 3) (z : BitVec 1)
  /-- VSHR (R196). Lane-wise logical right shift. -/
  | vshr (x : BitVec 1) (j : BitVec 1) (d : BitVec 5) (a : BitVec 5) (b : BitVec 5) (m : BitVec 3) (z : BitVec 1)
  /-- VSAR (R196). Lane-wise arithmetic right shift. -/
  | vsar (x : BitVec 1) (j : BitVec 1) (d : BitVec 5) (a : BitVec 5) (b : BitVec 5) (m : BitVec 3) (z : BitVec 1)
  /-- VFXMUL_FIX64 (R197). FIX64 multiply scaled by the MODE fraction width and rounded. -/
  | vfxmulFix64 (x : BitVec 1) (d : BitVec 5) (a : BitVec 5) (b : BitVec 5) (m : BitVec 3) (z : BitVec 1)
  /-- VFXADD_FIX64 (R197). FIX64 add with wrap or saturation. -/
  | vfxaddFix64 (x : BitVec 1) (d : BitVec 5) (a : BitVec 5) (b : BitVec 5) (m : BitVec 3) (z : BitVec 1)
  /-- VDOT16_BF16 (R194). Sixteen-term BF16 dot products into FP32 lanes. -/
  | vdot16Bf16 (x : BitVec 1) (d : BitVec 5) (a : BitVec 5) (b : BitVec 5) (m : BitVec 3) (z : BitVec 1)
  /-- VDOT16_F16 (R194). Sixteen-term FP16 dot products into FP32 lanes. -/
  | vdot16F16 (x : BitVec 1) (d : BitVec 5) (a : BitVec 5) (b : BitVec 5) (m : BitVec 3) (z : BitVec 1)
  /-- VDOT16_E4M3 (R194). Sixteen-term E4M3 dot products with the window of R152. -/
  | vdot16E4m3 (x : BitVec 1) (d : BitVec 5) (a : BitVec 5) (b : BitVec 5) (m : BitVec 3) (z : BitVec 1)
  /-- VDOT16_E5M2 (R194). Sixteen-term E5M2 dot products. -/
  | vdot16E5m2 (x : BitVec 1) (d : BitVec 5) (a : BitVec 5) (b : BitVec 5) (m : BitVec 3) (z : BitVec 1)
  /-- VDOT16_I8 (R194). Sixteen-term INT8 dot products into INT32 lanes. -/
  | vdot16I8 (x : BitVec 1) (d : BitVec 5) (a : BitVec 5) (b : BitVec 5) (m : BitVec 3) (z : BitVec 1)
  /-- VDOT16_LOG6 (R194). Sixteen-term LOG6 dot products. -/
  | vdot16Log6 (x : BitVec 1) (d : BitVec 5) (a : BitVec 5) (b : BitVec 5) (m : BitVec 3) (z : BitVec 1)
  /-- VDOT16_E2M1 (R194). Sixteen-term E2M1 dot products. -/
  | vdot16E2m1 (x : BitVec 1) (d : BitVec 5) (a : BitVec 5) (b : BitVec 5) (m : BitVec 3) (z : BitVec 1)
  /-- VCMP_EQ_INT (R192). Integer equality compare into a k register. -/
  | vcmpEqInt (x : BitVec 1) (j : BitVec 1) (k : BitVec 3) (a : BitVec 5) (b : BitVec 5) (m : BitVec 3) (z : BitVec 1)
  /-- VCMP_LT_INT (R192). Signed integer less-than compare into a k register. -/
  | vcmpLtInt (x : BitVec 1) (j : BitVec 1) (k : BitVec 3) (a : BitVec 5) (b : BitVec 5) (m : BitVec 3) (z : BitVec 1)
  /-- VCMP_LTU_INT (R192). Unsigned integer less-than compare into a k register. -/
  | vcmpLtuInt (x : BitVec 1) (j : BitVec 1) (k : BitVec 3) (a : BitVec 5) (b : BitVec 5) (m : BitVec 3) (z : BitVec 1)
  /-- VCMP_LE_INT (R192). Signed integer less-or-equal compare into a k register. -/
  | vcmpLeInt (x : BitVec 1) (j : BitVec 1) (k : BitVec 3) (a : BitVec 5) (b : BitVec 5) (m : BitVec 3) (z : BitVec 1)
  /-- VCVT (R198). Converts each element between formats by R147 and R148. -/
  | vcvt (x : BitVec 1) (f : BitVec 4) (d : BitVec 5) (a : BitVec 5) (s : BitVec 4) (m : BitVec 3) (z : BitVec 1)
  /-- VMXQ (R199). Quantises one 32-element block into an MX block with a scale byte. -/
  | vmxq (x : BitVec 1) (d : BitVec 5) (a : BitVec 5) (b : BitVec 5) (e : BitVec 3)
  /-- VMXD (R200). Expands an MX block to FP32 in a register pair. -/
  | vmxd (x : BitVec 1) (d : BitVec 5) (a : BitVec 5) (b : BitVec 5) (e : BitVec 3)
  /-- VRCPE_F32 (R186). 12-bit reciprocal estimate in FP32. -/
  | vrcpeF32 (x : BitVec 1) (d : BitVec 5) (a : BitVec 5) (m : BitVec 3) (z : BitVec 1)
  /-- VRSQE_F32 (R186). 12-bit reciprocal square root estimate in FP32. -/
  | vrsqeF32 (x : BitVec 1) (d : BitVec 5) (a : BitVec 5) (m : BitVec 3) (z : BitVec 1)
  /-- VFEXP_F32 (R187). Base-2 exponential over the reduced domain in FP32. -/
  | vfexpF32 (x : BitVec 1) (d : BitVec 5) (a : BitVec 5) (m : BitVec 3) (z : BitVec 1)
  /-- VSCALEB_F32 (R188). Scales FP32 lanes by a power of two, rounded once. -/
  | vscalebF32 (x : BitVec 1) (d : BitVec 5) (a : BitVec 5) (b : BitVec 5) (m : BitVec 3) (z : BitVec 1)
  /-- VGETEXP_F32 (R189). Returns floor(log2|a|) of FP32 lanes. -/
  | vgetexpF32 (x : BitVec 1) (d : BitVec 5) (a : BitVec 5) (m : BitVec 3) (z : BitVec 1)
  /-- VRNDI_F32 (R190). Rounds FP32 lanes to an integral FP32 value. -/
  | vrndiF32 (x : BitVec 1) (d : BitVec 5) (a : BitVec 5) (m : BitVec 3) (z : BitVec 1)
  /-- VRNDI_I_F32 (R190). Rounds FP32 lanes to INT32. -/
  | vrndiIF32 (x : BitVec 1) (d : BitVec 5) (a : BitVec 5) (m : BitVec 3) (z : BitVec 1)
  /-- VCLASS_F32 (R191). Classifies FP32 lanes into one-hot class bits. -/
  | vclassF32 (x : BitVec 1) (d : BitVec 5) (a : BitVec 5) (m : BitVec 3) (z : BitVec 1)
  /-- VRCPE_F64 (R186). 12-bit reciprocal estimate in FP64. -/
  | vrcpeF64 (x : BitVec 1) (d : BitVec 5) (a : BitVec 5) (m : BitVec 3) (z : BitVec 1)
  /-- VRSQE_F64 (R186). 12-bit reciprocal square root estimate in FP64. -/
  | vrsqeF64 (x : BitVec 1) (d : BitVec 5) (a : BitVec 5) (m : BitVec 3) (z : BitVec 1)
  /-- VFEXP_F64 (R187). Base-2 exponential over the reduced domain in FP64. -/
  | vfexpF64 (x : BitVec 1) (d : BitVec 5) (a : BitVec 5) (m : BitVec 3) (z : BitVec 1)
  /-- VSCALEB_F64 (R188). Scales FP64 lanes by a power of two. -/
  | vscalebF64 (x : BitVec 1) (d : BitVec 5) (a : BitVec 5) (b : BitVec 5) (m : BitVec 3) (z : BitVec 1)
  /-- VGETEXP_F64 (R189). Returns floor(log2|a|) of FP64 lanes. -/
  | vgetexpF64 (x : BitVec 1) (d : BitVec 5) (a : BitVec 5) (m : BitVec 3) (z : BitVec 1)
  /-- VRNDI_F64 (R190). Rounds FP64 lanes to an integral FP64 value. -/
  | vrndiF64 (x : BitVec 1) (d : BitVec 5) (a : BitVec 5) (m : BitVec 3) (z : BitVec 1)
  /-- VRNDI_I_F64 (R190). Rounds FP64 lanes to INT64. -/
  | vrndiIF64 (x : BitVec 1) (d : BitVec 5) (a : BitVec 5) (m : BitVec 3) (z : BitVec 1)
  /-- VCLASS_F64 (R191). Classifies FP64 lanes into one-hot class bits. -/
  | vclassF64 (x : BitVec 1) (d : BitVec 5) (a : BitVec 5) (m : BitVec 3) (z : BitVec 1)
  /-- VSEL (R193). Selects bytes of two registers by a selector mask. -/
  | vsel (x : BitVec 1) (d : BitVec 5) (a : BitVec 5) (b : BitVec 5) (k : BitVec 3)
  /-- VMOV (R201). Copies a register, byte-wise masked. -/
  | vmov (x : BitVec 1) (d : BitVec 5) (a : BitVec 5) (m : BitVec 3) (z : BitVec 1)
  /-- VXMOV (R201). Copies a register of the other cluster into this cluster. -/
  | vxmov (x : BitVec 1) (d : BitVec 5) (a : BitVec 5) (m : BitVec 3) (z : BitVec 1)
  /-- VBCAST (R202). Broadcasts the low bits of an s register into every active lane. -/
  | vbcast (x : BitVec 1) (d : BitVec 5) (s : BitVec 5) (w : BitVec 2) (m : BitVec 3) (z : BitVec 1)
  /-- VEXT (R203). Extracts one lane into an s register. -/
  | vext (x : BitVec 1) (d : BitVec 5) (a : BitVec 5) (n : BitVec 5) (h : BitVec 1) (w : BitVec 2) (e : BitVec 1)
  /-- VINS (R203). Inserts an s register into one lane. -/
  | vins (x : BitVec 1) (d : BitVec 5) (s : BitVec 5) (n : BitVec 5) (h : BitVec 1) (w : BitVec 2)
  /-- VPERM (R204). Permutes bytes of one register by index bytes. -/
  | vperm (x : BitVec 1) (d : BitVec 5) (a : BitVec 5) (b : BitVec 5) (m : BitVec 3) (z : BitVec 1)
  /-- VSHUF (R204). Selects bytes from two registers by index bytes in the destination. -/
  | vshuf (x : BitVec 1) (d : BitVec 5) (a : BitVec 5) (b : BitVec 5) (m : BitVec 3) (z : BitVec 1)
  /-- VRED_ADD_F32 (R195). Sums active FP32 lanes into lane 0 as one group. -/
  | vredAddF32 (x : BitVec 1) (d : BitVec 5) (a : BitVec 5) (b : BitVec 5) (m : BitVec 3)
  /-- VRED_ADD_F64 (R195). Sums active FP64 lanes into lane 0. -/
  | vredAddF64 (x : BitVec 1) (d : BitVec 5) (a : BitVec 5) (b : BitVec 5) (m : BitVec 3)
  /-- VRED_MIN_F32 (R195). Minimum of active FP32 lanes into lane 0. -/
  | vredMinF32 (x : BitVec 1) (d : BitVec 5) (a : BitVec 5) (b : BitVec 5) (m : BitVec 3)
  /-- VRED_MAX_F32 (R195). Maximum of active FP32 lanes into lane 0. -/
  | vredMaxF32 (x : BitVec 1) (d : BitVec 5) (a : BitVec 5) (b : BitVec 5) (m : BitVec 3)
  /-- VRED_ADD_I32 (R195). Sums active INT32 lanes into lane 0. -/
  | vredAddI32 (x : BitVec 1) (d : BitVec 5) (a : BitVec 5) (b : BitVec 5) (m : BitVec 3)
  /-- VRED_ADD_I64 (R195). Sums active INT64 lanes into lane 0. -/
  | vredAddI64 (x : BitVec 1) (d : BitVec 5) (a : BitVec 5) (b : BitVec 5) (m : BitVec 3)
  /-- VRED_MIN_I32 (R195). Signed minimum of active INT32 lanes into lane 0. -/
  | vredMinI32 (x : BitVec 1) (d : BitVec 5) (a : BitVec 5) (b : BitVec 5) (m : BitVec 3)
  /-- VRED_MAX_I32 (R195). Signed maximum of active INT32 lanes into lane 0. -/
  | vredMaxI32 (x : BitVec 1) (d : BitVec 5) (a : BitVec 5) (b : BitVec 5) (m : BitVec 3)
  /-- KAND (R205). AND of two k registers. -/
  | kand (x : BitVec 1) (d : BitVec 3) (a : BitVec 3) (b : BitVec 3)
  /-- KOR (R205). OR of two k registers. -/
  | kor (x : BitVec 1) (d : BitVec 3) (a : BitVec 3) (b : BitVec 3)
  /-- KXOR (R205). XOR of two k registers. -/
  | kxor (x : BitVec 1) (d : BitVec 3) (a : BitVec 3) (b : BitVec 3)
  /-- KNOT (R205). Complement of a k register. -/
  | knot (x : BitVec 1) (d : BitVec 3) (a : BitVec 3)
  /-- KMOV (R205). Copies one k register to another. -/
  | kmov (x : BitVec 1) (d : BitVec 3) (a : BitVec 3)
  /-- KMOV_FROM_S (R205). Copies an s register into a k register. -/
  | kmovFromS (x : BitVec 1) (d : BitVec 3) (a : BitVec 5)
  /-- KMOV_TO_S (R205). Copies a k register into an s register. -/
  | kmovToS (x : BitVec 1) (d : BitVec 5) (a : BitVec 3)
  /-- KPOP (R205). Counts the one bits of a k register into an s register. -/
  | kpop (x : BitVec 1) (d : BitVec 5) (a : BitVec 3)
  /-- KUNI (R205). Expands a lane mask to one bit per byte. -/
  | kuni (x : BitVec 1) (d : BitVec 3) (a : BitVec 3) (l : BitVec 2)
  /-- TMMA (R229). Queues one step of the matrix array with A from a descriptor pair. -/
  | tmma (s : BitVec 3) (acc : BitVec 2) (a : BitVec 5) (b : BitVec 5) (r : BitVec 1)
  /-- TMMA_LATCH (R229). Queues one step of the matrix array with A from a latch. -/
  | tmmaLatch (s : BitVec 3) (acc : BitVec 2) (l : BitVec 2) (b : BitVec 5) (r : BitVec 1)
  /-- TLATCH (R228). Queues the load of an A operand into a latch. -/
  | tlatch (s : BitVec 3) (l : BitVec 2) (a : BitVec 5)
  /-- TGO (R230). Copies NEST to the active registers and queues a nest of steps and drains. -/
  | tgo (s : BitVec 3) (acc : BitVec 2) (a : BitVec 5) (b : BitVec 5) (p : BitVec 5)
  /-- TDRAIN (R231). Queues a drain of an accumulator set to a destination tile. -/
  | tdrain (acc : BitVec 2) (a : BitVec 5)
  /-- TWAIT (R235). Waits for earlier matrix operations to end and returns the matrix status. -/
  | twait (d : BitVec 5) (l : BitVec 5)
  /-- TSTAT (R235). Returns the matrix status without waiting. -/
  | tstat (d : BitVec 5) (l : BitVec 5)
  /-- TCLR (R237). Queues clearing of an accumulator set to zero. -/
  | tclr (acc : BitVec 2)
  /-- TROW (R238). Marks a physical array row for retirement at the next map point. -/
  | trow (a : BitVec 5)
  /-- LD_B (R164). Loads a sign-extended byte from the core scratchpad. -/
  | ldB (d : BitVec 5) (a : BitVec 5) (l : BitVec 5) (f : BitVec 6)
  /-- LD_BU (R164). Loads a zero-extended byte. -/
  | ldBu (d : BitVec 5) (a : BitVec 5) (l : BitVec 5) (f : BitVec 6)
  /-- LD_H (R164). Loads a sign-extended halfword. -/
  | ldH (d : BitVec 5) (a : BitVec 5) (l : BitVec 5) (f : BitVec 6)
  /-- LD_HU (R164). Loads a zero-extended halfword. -/
  | ldHu (d : BitVec 5) (a : BitVec 5) (l : BitVec 5) (f : BitVec 6)
  /-- LD_W (R164). Loads a sign-extended word. -/
  | ldW (d : BitVec 5) (a : BitVec 5) (l : BitVec 5) (f : BitVec 6)
  /-- LD_WU (R164). Loads a zero-extended word. -/
  | ldWu (d : BitVec 5) (a : BitVec 5) (l : BitVec 5) (f : BitVec 6)
  /-- LD_D (R164). Loads a doubleword. -/
  | ldD (d : BitVec 5) (a : BitVec 5) (l : BitVec 5) (f : BitVec 6)
  /-- ST_B (R164). Stores a byte to the core scratchpad. -/
  | stB (d : BitVec 5) (a : BitVec 5) (f : BitVec 6)
  /-- ST_H (R164). Stores a halfword. -/
  | stH (d : BitVec 5) (a : BitVec 5) (f : BitVec 6)
  /-- ST_W (R164). Stores a word. -/
  | stW (d : BitVec 5) (a : BitVec 5) (f : BitVec 6)
  /-- ST_D (R164). Stores a doubleword. -/
  | stD (d : BitVec 5) (a : BitVec 5) (f : BitVec 6)
  /-- VLD (R206). Loads one 64-byte line into a vector register. -/
  | vld (y : BitVec 1) (d : BitVec 5) (a : BitVec 5) (l : BitVec 5) (f : BitVec 6)
  /-- VST (R206). Stores a vector register as one 64-byte line. -/
  | vst (y : BitVec 1) (d : BitVec 5) (a : BitVec 5) (f : BitVec 6)
  /-- VGATHER (R207). Gathers sixteen 4-byte elements from the core scratchpad. -/
  | vgather (x : BitVec 1) (d : BitVec 5) (b : BitVec 5) (a : BitVec 4) (m : BitVec 3) (l : BitVec 5)
  /-- VSCATTER (R207). Scatters sixteen 4-byte elements to the core scratchpad. -/
  | vscatter (x : BitVec 1) (d : BitVec 5) (b : BitVec 5) (a : BitVec 4) (m : BitVec 3)
  /-- KLD_W (R299). Loads a sign-extended word from the cluster scratchpad. -/
  | kldW (d : BitVec 5) (a : BitVec 5) (l : BitVec 5) (f : BitVec 6)
  /-- KLD_WU (R299). Loads a zero-extended word from the cluster scratchpad. -/
  | kldWu (d : BitVec 5) (a : BitVec 5) (l : BitVec 5) (f : BitVec 6)
  /-- KLD_D (R299). Loads a doubleword from the cluster scratchpad. -/
  | kldD (d : BitVec 5) (a : BitVec 5) (l : BitVec 5) (f : BitVec 6)
  /-- KST_W (R299). Stores a word to the cluster scratchpad. -/
  | kstW (d : BitVec 5) (a : BitVec 5) (f : BitVec 6)
  /-- KST_D (R299). Stores a doubleword to the cluster scratchpad. -/
  | kstD (d : BitVec 5) (a : BitVec 5) (f : BitVec 6)
  /-- KVLD (R299). Loads one cluster scratchpad line into a vector register. -/
  | kvld (y : BitVec 1) (d : BitVec 5) (a : BitVec 5) (l : BitVec 5) (f : BitVec 6)
  /-- KVST (R299). Stores a vector register as one cluster scratchpad line. -/
  | kvst (y : BitVec 1) (d : BitVec 5) (a : BitVec 5) (f : BitVec 6)
  /-- KLOOK (R301). Reads a tag-table entry by tag, slot or first free slot. -/
  | klook (d : BitVec 5) (a : BitVec 5) (l : BitVec 5)
  /-- KTAG (R302). Conditionally sets a tag-table entry's tag and state. -/
  | ktag (d : BitVec 5) (a : BitVec 5) (b : BitVec 5)
  /-- KUNTAG (R302). Conditionally frees a tag-table entry. -/
  | kuntag (d : BitVec 5) (a : BitVec 5) (b : BitVec 5)
  /-- QPUT (R310). Sends one 64-byte message to a queue of a core. -/
  | qput (d : BitVec 5) (a : BitVec 5) (b : BitVec 5)
  /-- QGET (R311). Takes the message at the head of a queue, or parks on an empty queue. -/
  | qget (d : BitVec 5) (a : BitVec 5) (l : BitVec 5)
  /-- QSTAT (R312). Reads the state of a queue or of the send unit. -/
  | qstat (d : BitVec 5) (a : BitVec 5) (l : BitVec 5)
  /-- QCFG_REL (R313). Releases taken ring entries of a queue. -/
  | qcfgRel (a : BitVec 5) (b : BitVec 5)
  /-- QCFG_OPEN (R313). Opens a queue with a new descriptor and zero pointers. -/
  | qcfgOpen (a : BitVec 5) (b : BitVec 5)
  /-- QCFG_CLOSE (R313). Closes a queue so later arrivals go to the overflow area. -/
  | qcfgClose (a : BitVec 5)
  /-- XFER (R336). Checks and translates a transfer record and hands its chunks to the copy engines. -/
  | xfer (d : BitVec 5) (a : BitVec 5) (l : BitVec 5)
  /-- XWAIT (R337). Waits for transfers up to a handle and returns the completion summary. -/
  | xwait (d : BitVec 5) (a : BitVec 5) (l : BitVec 5)
  /-- XSTAT (R338). Reads the state of one transfer without waiting. -/
  | xstat (d : BitVec 5) (a : BitVec 5) (l : BitVec 5)
  /-- XCANCEL (R339). Cancels one outstanding transfer of the context. -/
  | xcancel (a : BitVec 5)
  /-- XCANCEL_ALL (R339). Cancels every outstanding transfer of the context. -/
  | xcancelAll
  /-- BINIT (R352). Initialises a barrier object with a literal count or a group binding. -/
  | binit (a : BitVec 5) (b : BitVec 5)
  /-- BARRIVE (R345). Arrives at a barrier, arming it if needed. -/
  | barrive (a : BitVec 5)
  /-- BWAIT (R353). Waits for a barrier round, parking the strand if it is not satisfied. -/
  | bwait (d : BitVec 3) (a : BitVec 5) (b : BitVec 5)
  /-- BEXPECT (R345). Adds expected bytes to a barrier's pending count. -/
  | bexpect (a : BitVec 5) (b : BitVec 5)
  /-- BINV (R345). Invalidates a barrier into a kind-0 object, waking every waiter. -/
  | binv (a : BitVec 5)
  /-- AADD (R354). Atomic add to a 64-bit cell. -/
  | aadd (d : BitVec 5) (a : BitVec 5) (b : BitVec 5) (l : BitVec 5)
  /-- ACAS (R354). Atomic compare-and-swap on a cell. -/
  | acas (d : BitVec 5) (a : BitVec 5) (b : BitVec 5) (l : BitVec 5)
  /-- AMIN (R354). Atomic signed minimum on a cell. -/
  | amin (d : BitVec 5) (a : BitVec 5) (b : BitVec 5) (l : BitVec 5)
  /-- AMAX (R354). Atomic signed maximum on a cell. -/
  | amax (d : BitVec 5) (a : BitVec 5) (b : BitVec 5) (l : BitVec 5)
  /-- AOR (R354). Atomic OR on a cell. -/
  | aor (d : BitVec 5) (a : BitVec 5) (b : BitVec 5) (l : BitVec 5)
  /-- AFIX (R354). Atomic saturating FIX64 add on a cell. -/
  | afix (d : BitVec 5) (a : BitVec 5) (b : BitVec 5) (l : BitVec 5)
  /-- AREAD (R354). Reads a cell or barrier doubleword without effect. -/
  | aread (d : BitVec 5) (a : BitVec 5) (l : BitVec 5)
  /-- MTAGA (R374). Allocates a lintel tag and opens it at its home node. -/
  | mtaga (d : BitVec 5) (l : BitVec 5)
  /-- MTAGF (R375). Frees a lintel tag at its home node. -/
  | mtagf (d : BitVec 5) (a : BitVec 5) (l : BitVec 5)
  /-- MEET (R376). Sends a vector-register operand to the tag's home node. -/
  | meet (d : BitVec 5) (a : BitVec 5) (b : BitVec 5) (x : BitVec 1) (o : BitVec 4)
  /-- MEET_T (R376). Sends a scratchpad tile operand to the tag's home node. -/
  | meetT (d : BitVec 5) (a : BitVec 5) (b : BitVec 5) (o : BitVec 4)
  /-- MSTAT (R377). Reads the state of a tag at its home node. -/
  | mstat (d : BitVec 5) (a : BitVec 5) (l : BitVec 5)
  /-- RLOOK (R255). Reads a field of the range descriptor holding an address. -/
  | rlook (d : BitVec 5) (a : BitVec 5) (b : BitVec 5) (l : BitVec 5)
  /-- RSPLIT (R257). Splits a range in two at an address. -/
  | rsplit (d : BitVec 5) (a : BitVec 5) (b : BitVec 5) (l : BitVec 5)
  /-- RMERGE (R257). Merges a range with the adjacent range above it. -/
  | rmerge (d : BitVec 5) (a : BitVec 5) (b : BitVec 5) (l : BitVec 5)
  /-- RINV (R257). Removes a range. -/
  | rinv (a : BitVec 5)
  /-- RRES_SET (R257). Sets a range's resident window. -/
  | rresSet (d : BitVec 5) (a : BitVec 5) (b : BitVec 5)
  /-- RRES_GROW (R257). Grows a range's resident window. -/
  | rresGrow (d : BitVec 5) (a : BitVec 5) (b : BitVec 5)
  /-- RPROT_ALL (R257). Changes a range's permissions and key. -/
  | rprotAll (a : BitVec 5) (b : BitVec 5)
  /-- RPROT_PERM (R257). Changes a range's permissions only. -/
  | rprotPerm (a : BitVec 5) (b : BitVec 5)
  /-- RPROT_KEY (R257). Changes a range's key slot only. -/
  | rprotKey (a : BitVec 5) (b : BitVec 5)
  /-- RFENCE (R256). Waits for earlier range instructions to complete and reports failures. -/
  | rfence (d : BitVec 5) (l : BitVec 5)
  /-- RMOVE (R257). Queues a compaction move of a range to new backing. -/
  | rmove (a : BitVec 5) (b : BitVec 5)
  /-- FPUT (R429). Writes local bytes into a remote range or a remote queue. -/
  | fput (a : BitVec 5)
  /-- FGET (R429). Reads bytes of a remote range into the local package. -/
  | fget (a : BitVec 5)
  /-- FBAR (R432). Joins the package to a round of a fabric barrier. -/
  | fbar (d : BitVec 5) (a : BitVec 5) (b : BitVec 5)
  /-- FSTAT (R437). Reads the fabric summary, a port's state or the pod state. -/
  | fstat (d : BitVec 5) (a : BitVec 5) (l : BitVec 5)
  /-- CPOST (R448). Appends a collective entry image to the launch's collective list. -/
  | cpost (a : BitVec 5)
  deriving DecidableEq, Repr

end Sys2Proof
end

