-- ==== Sys2Proof/Machine/CoreState.lean ====
section
/-! DEFINITION. The state of a core as plain data: its registers (R117), control registers (R121 to R124, R262, R270,
R277, R304), the results in flight (R59 to R68), the trap requests it holds (R260), the loop buffer (R171), the matrix
state (R210 to R222), its range table (R244), its send unit (R307), its queues (R304), its trace buffer (R276) and the
strand it holds (R15, R25). Register files are lists of a fixed length; memories are lists of cells. -/

namespace Sys2Proof.Machine

/-- A strand record (R15, R16). The header fields stand apart; a reserved KIND or STATE value is kept as a number. -/
structure Record where
  /-- KIND [31:28]. -/
  kind : Nat
  /-- STATE [27:24]. -/
  state : Nat
  /-- PRIO [23:22]. -/
  prio : Nat
  /-- NXPH [21]. -/
  nxph : Bool
  /-- WSTAT [20]. -/
  wstat : Bool
  /-- TRPEND [19]. -/
  trpend : Bool
  /-- PCORE [9:0]. -/
  pcore : Nat
  /-- Word 1: resume PC. -/
  rpc : W32
  /-- Words 2 and 3: logical index. -/
  lidx : W64
  /-- Word 4: range-set id. -/
  rset : W32
  /-- Word 5: phase. -/
  phase : W32
  /-- Word 6: MODE. -/
  mode : W32
  /-- Word 7: status block index. -/
  dslot : W32
  /-- Words 8 to 15. -/
  args : List W32
  deriving DecidableEq, Repr

/-- A fold of the digest in the strand's fold order (R107): its units once its bytes are known, none while pending. -/
structure FoldSlot where
  /-- Operation number of the transfer or meet that holds the place. -/
  id : Nat
  /-- The (w0, w1) pairs of the operation, none while it is pending. -/
  units : Option (List (W64 × W64))
  deriving DecidableEq, Repr

/-- A status block (R20), with the folds not yet applied behind a pending one (R107). -/
structure StatusBlock where
  /-- DIGEST [63:0] of the running digest. -/
  dl : W64
  /-- DIGEST [127:64]. -/
  dh : W64
  /-- SRCNT. -/
  src : W64
  /-- OSN. -/
  osn : W64
  /-- HOME: affinity address [47:0]. -/
  home : BitVec 48
  /-- Die that owned the backing of that address when it was translated (R28). -/
  homeDie : Nat
  /-- DPHASE. -/
  dphase : W32
  /-- The digest has been seeded for DPHASE. -/
  seeded : Bool
  /-- At least one unit was folded in the phase (R109). -/
  folded : Bool
  /-- Folds waiting in fold order. -/
  folds : List FoldSlot
  deriving DecidableEq, Repr

/-- One recorded element of XELEM with its full sequence number (R150). -/
structure Offer where
  /-- Operation sequence number. -/
  osn : W64
  /-- Element index. -/
  elem : Nat
  /-- Flag number. -/
  flag : Nat
  deriving DecidableEq, Repr

/-- One bank of cause registers (R262). -/
structure Bank where
  /-- EPC.WOFF. -/
  epc : W32
  /-- CAUSE.V. -/
  v : Bool
  /-- CAUSE.XCODE. -/
  xcode : BitVec 8
  /-- CAUSE.PEND. -/
  pend : BitVec 16
  /-- CAUSE.DEFERRED. -/
  deferred : Bool
  /-- CAUSE.CODE. -/
  code : BitVec 5
  /-- TVAL. -/
  tval : W64
  /-- TBUNDLE.WOFF. -/
  tbundle : W32
  deriving DecidableEq, Repr

/-- The control registers and counters that a context has for itself (R121). -/
structure Ctx where
  /-- MODE (R141). -/
  mode : W64
  /-- XFLAGS [7:0] (R149). -/
  xflags : BitVec 8
  /-- XELEM (R150). -/
  xelem : Option Offer
  /-- LIDX (R24). -/
  lidx : W64
  /-- First cause bank. -/
  bank1 : Bank
  /-- Second cause bank. -/
  bank2 : Bank
  /-- TVEC.WOFF. -/
  tvec : W32
  /-- HSTK.OFF. -/
  hstk : BitVec 23
  /-- STATUS.TACK. -/
  tack : Bool
  /-- STATUS.HMODE. -/
  hmode : Bool
  /-- STATUS.SUSPP. -/
  suspp : Bool
  /-- Operation sequence number of the next instruction (R20, R367). -/
  osn : W64
  /-- Stochastic-rounding counter (R145). -/
  src : W64
  /-- Word offset of the next bundle. -/
  pc : Nat
  /-- How that bundle is reached: the XCODE of a fetch fault at it (R268); 5 for a pick-up at a record's RPC, which also
  looks at the word before (R45) and reports XCODE 2. -/
  origin : Nat
  /-- Word offset of the bundle that branched to it (R268). -/
  from_ : Nat
  /-- The first operation number that the strand or handler in this context may have (R256). -/
  since : Nat
  /-- Range instructions issued since the last RFENCE (R256). -/
  rcount : Nat
  /-- Failures of range instructions since the last RFENCE: status, op, operation number, sequence number (R256). -/
  rfail : List (Nat × Nat × Nat × W64)
  /-- Transfer handle counter (R335). -/
  handle : BitVec 16
  /-- Handles issued since the window began, at most 32,768 (R335). -/
  window : Nat
  /-- Summary since the last XWAIT: first failure (issue number, status, handle), flags, number (R335, R337). -/
  sumFail : Option (Nat × Nat × Nat)
  /-- OR of the summarised flags. -/
  sumFlags : BitVec 8
  /-- Offers of the summarised transfers. -/
  sumOffer : Option Offer
  /-- Transfers summarised. -/
  sumDone : Nat
  /-- Results of the latest completed transfers: handle, status, flags, bytes; newest first, at most 64 (R335). -/
  results : List (Nat × Nat × Nat × Nat)
  /-- First failure of a fabric operation since the summary was last read: status, op, sequence bits (R430, R437). -/
  fabFail : Option (Nat × Nat × Nat)
  deriving DecidableEq, Repr

/-- Where a result lands. -/
inductive Port where
  /-- s register of the main context. -/
  | s (n : Nat)
  /-- h register of the main context. -/
  | h (n : Nat)
  /-- Predicate of the main context. -/
  | p (n : Nat)
  /-- x register. -/
  | x (n : Nat)
  /-- y register. -/
  | y (n : Nat)
  /-- k register. -/
  | k (n : Nat)
  /-- s register of the message-handler context. -/
  | ms (n : Nat)
  /-- h register of the message-handler context. -/
  | mh (n : Nat)
  /-- Predicate of the message-handler context. -/
  | mp (n : Nat)
  /-- Control register, in the copy of the main (false) or message-handler (true) context. -/
  | creg (handler : Bool) (n : Nat)
  /-- No register: only flags land. -/
  | flags
  deriving DecidableEq, Repr

/-- Bytes of one scratchpad line that a load has requested from its bank and not been granted yet (R127, R128, R296). -/
structure Want where
  /-- In the cluster scratchpad. -/
  cluster : Bool
  /-- Offset of the first byte. -/
  off : Nat
  /-- Bytes. -/
  size : Nat
  /-- Byte of the result at which they stand. -/
  place : Nat
  /-- Periods from the grant to the data (R128, R297). -/
  lat : Nat
  /-- Clock period of the core in which its bank sees the request. -/
  at_ : Nat
  /-- Clock period by which it is granted at the latest. -/
  limit : Nat
  /-- Time base at its issue, by which requests of different cores stand in order (R296). -/
  since : Nat
  deriving DecidableEq, Repr

/-- A result in flight (R59 to R68). -/
structure Landing where
  /-- Destination. -/
  port : Port
  /-- Issue cycle. -/
  t0 : Nat
  /-- Landing cycle. -/
  due : Nat
  /-- Value, zero-extended. -/
  val : Vec
  /-- Holds a threshold-buffer entry (R67). -/
  timed : Bool
  /-- The data is there (R68). -/
  arrived : Bool
  /-- Its window meets another one of the same register (R62). -/
  clash : Bool
  /-- Flags that land with it (R149). -/
  flags : BitVec 8
  /-- Element offered to XELEM (R150). -/
  offer : Option Offer
  /-- Issued by the message-handler context. -/
  handler : Bool
  /-- Word offset of the issuing bundle. -/
  pc : Nat
  /-- Operation whose answer it awaits, 0 for none. -/
  id : Nat
  /-- An uncorrectable error met on the way: TVAL of the machine check at its delivery (R269). -/
  err : Option W64
  /-- Line requests not granted yet, the oldest first (R128, R208). -/
  wants : List Want
  /-- Width in bytes from which the value is sign-extended once it is complete, 0 for none (R164). -/
  ext : Nat
  /-- Clock period of the core in which the last of its data comes from the banks, 0 where they give none (R128). -/
  ready : Nat
  /-- Its datapath met a residue mismatch, which is requested at the landing (R269). -/
  residue : Bool
  /-- The trap arbiter has already applied the write of QDESC or QPTR that it stands for (R304). -/
  applied : Bool
  deriving DecidableEq, Repr

/-- A trap request (R259, R260). -/
structure Request where
  /-- Cause code. -/
  code : Nat
  /-- TVAL. -/
  tval : W64
  /-- Word offset for TBUNDLE. -/
  tbundle : Nat
  /-- XCODE. -/
  xcode : Nat
  /-- Taken at a boundary after its origin (kind D). -/
  deferred : Bool
  /-- EPC where the cause names it itself; none for the next bundle to issue. -/
  epc : Option Nat
  /-- Whose request it is: 0 the strand's or from outside, 1 trap-handler code's own, 2 the message handler's own
  (R263, R266). -/
  level : Nat
  deriving DecidableEq, Repr

/-- How a word of the bundle in hand ended. -/
inductive Mark where
  /-- It executed. -/
  | done
  /-- It raised a precise trap of this code. -/
  | trapped (code : Nat)
  /-- The bundle can not issue yet; architectural cycles pass (R223, R244 and others). -/
  | stalled
  /-- The bundle can not issue and the clock domain freezes (R67). -/
  | frozen
  deriving DecidableEq, Repr

/-- The bundle in hand and the word of it that executes (R41, R59). -/
structure Issue where
  /-- Word offset of the bundle's first word. -/
  start : Nat
  /-- Word offset of its last word. -/
  last : Nat
  /-- Word offset of the word that executes. -/
  word : Nat
  /-- The word itself, which an illegal-instruction trap reports (R259). -/
  raw : W32
  /-- Position of the word among those that take sequence numbers (R20). -/
  slot : Nat
  /-- Immediate bits of a LIMM that follows (R44). -/
  ext : Option (BitVec 27)
  /-- Stochastic-rounding values the bundle has taken so far (R145). -/
  srUsed : Nat
  /-- Where control goes next. -/
  npc : Nat
  /-- A taken branch or a return. -/
  taken : Bool
  /-- How the next bundle is reached: the XCODE of a fetch fault at it (R268). -/
  origin : Nat
  /-- Cycles to the next bundle. -/
  lat : Nat
  /-- The drain bit (R71). -/
  drain : Bool
  /-- How the word ended. -/
  mark : Mark
  deriving DecidableEq, Repr

/-- The loop buffer (R171 to R173). -/
structure Loop where
  /-- LOOPA. -/
  active : Bool
  /-- lc1 is selected. -/
  sel : Bool
  /-- Body length in bundles. -/
  count : Nat
  /-- Bundles captured so far: first word offset and words. -/
  body : List (Nat × List W32)
  /-- Number of the next body bundle. -/
  pos : Nat
  /-- Word offset at which that bundle stands. -/
  next : Nat
  deriving DecidableEq, Repr

/-- An access bound at issue to a descriptor and its version (R247). -/
structure Bound where
  /-- RID. -/
  rid : Nat
  /-- Version. -/
  version : Nat
  /-- Virtual address of the first byte. -/
  va : Nat
  /-- Physical address of the first byte. -/
  pa : Nat
  /-- KEY. -/
  key : Nat
  /-- PERM. -/
  perm : BitVec 9
  /-- Window offset of the first byte, for redirection by compaction (R251). -/
  woff : Nat
  deriving DecidableEq, Repr

/-- What a strand that is leaving its core waits for (R25, R26, R353). -/
inductive Leave where
  /-- SUSP. -/
  | susp
  /-- END. -/
  | ended
  /-- BWAIT: object, round, result register. -/
  | barrier (b : Bound) (round dst : Nat)
  /-- QGET on an empty queue: queue and result register. -/
  | queue (q dst : Nat)
  /-- PIN.M. -/
  | pinM
  /-- PIN.Q: queue. -/
  | pinQ (q : Nat)
  /-- PIN.B: object and result register. -/
  | pinB (b : Bound) (dst : Nat)
  /-- PIN.T: time. -/
  | pinT (time : Nat)
  /-- A pinned strand that its barrier has woken. -/
  | woken
  deriving DecidableEq, Repr

/-- What the core does with its strand. -/
inductive Activity where
  /-- No strand; it searches again at this cycle (R31). -/
  | idle
  /-- Runs its strand. -/
  | running
  /-- Suspends: the pipes drain, then the strand leaves (R25). -/
  | leaving (why : Leave)
  /-- BWAIT has asked the barrier's arbiter and waits for the answer (R353). -/
  | asking (why : Leave)
  /-- Pinned until its condition holds (R26, R87). -/
  | pinned (why : Leave)
  /-- Halted (R265). -/
  | halted
  /-- Saved to its save area and waiting for resume: the strand ran, was pinned (true) or leaving (R272). -/
  | saved (was : Option (Bool × Leave))
  deriving DecidableEq, Repr

/-- A range descriptor (R240) with its version (R244). -/
structure Desc where
  /-- RID. -/
  rid : Nat
  /-- VBASE. -/
  vbase : Nat
  /-- VLIMIT, 2^48 where the field is zero. -/
  vlimit : Nat
  /-- POFF. -/
  poff : Nat
  /-- RBASE. -/
  rbase : Nat
  /-- RLIMIT. -/
  rlimit : Nat
  /-- KEY. -/
  key : Nat
  /-- PERM [8:0]. -/
  perm : BitVec 9
  /-- Version, modulo 256. -/
  version : Nat
  deriving DecidableEq, Repr

/-- A strand parked on a queue (R311). -/
structure QueueWaiter where
  /-- Its record. -/
  record : Record
  /-- The argument that takes the result. -/
  dst : Nat
  /-- Start of the wait. -/
  since : Nat
  /-- The wait has been reported (R358). -/
  reported : Bool
  deriving DecidableEq, Repr

/-- A message queue of a core (R304, R305, R308, R311). -/
structure Queue where
  /-- QDESC. -/
  desc : W64
  /-- QPTR. -/
  ptr : W64
  /-- Delivery count. -/
  count : BitVec 8
  /-- Overflow area: whole messages, front first, each a list of 64-byte entries. -/
  spilled : List (List (List Byte))
  /-- The parked strand (R22, R311). -/
  waiter : Option QueueWaiter
  /-- Received a message from another package in the phase (R315). -/
  remote : Bool
  /-- Lines of the entries released in the phase of a check-mode launch, which are not free before its commit (R315). -/
  kept : List Nat
  /-- The message at the front of the overflow area has an uncorrectable error (R316). -/
  spoiled : Bool
  /-- A message has been delivered since a QGET last decided to park (R311). -/
  news : Bool
  deriving DecidableEq, Repr

/-- Trace registers and buffer (R276, R277). -/
structure Trace where
  /-- TRCTL. -/
  ctl : W64
  /-- TRSTAT. -/
  stat : BitVec 3
  /-- TRTRIGA. -/
  triga : W64
  /-- TRTRIGB. -/
  trigb : W64
  /-- TRMASK. -/
  mask : W64
  /-- TRPTR.IDX. -/
  idx : BitVec 10
  /-- TRTS. -/
  ts : W64
  /-- TRCNT. -/
  cnt : W64
  /-- Entries recorded since the trigger. -/
  after : Nat
  /-- Entries by index; an index not listed holds KIND 0. -/
  entries : List (Nat × BitVec 128)
  deriving DecidableEq, Repr

/-- A tile operand as a matrix word samples it at issue (R129, R218, R223): the two registers with the effective base,
the format and whether the tile is extended. -/
structure TileRef where
  /-- First descriptor register. -/
  lo : W64
  /-- Second descriptor register. -/
  hi : W64
  /-- Effective base, BASE plus the nest's offset. -/
  base : Nat
  /-- Format code. -/
  fmt : Nat
  /-- Extended tile. -/
  ext : Bool
  deriving DecidableEq, Repr

/-- An A operand: a latch or a tile read from a scratchpad. -/
inductive AOperand where
  /-- From latch n. -/
  | latch (n : Nat)
  /-- From a scratchpad. -/
  | tile (t : TileRef)
  deriving DecidableEq, Repr

/-- A step as the replay record keeps it (R218). -/
structure StepRec where
  /-- Shape code. -/
  shape : Nat
  /-- Input format. -/
  fmt : Nat
  /-- A operand. -/
  a : AOperand
  /-- B operand. -/
  b : TileRef
  /-- MODE at issue. -/
  mode : W64
  /-- Sequence number. -/
  osn : W64
  /-- Word offset of the issuing bundle. -/
  pc : Nat
  /-- Issued by trap-handler code (R263). -/
  handler : Bool
  deriving DecidableEq, Repr

/-- An operation of the matrix queue (R223) with what it sampled at issue. -/
inductive MatOp where
  /-- TMMA: set, clear first, the step. -/
  | step (set : Nat) (clr : Bool) (r : StepRec)
  /-- TLATCH: latch, shape, operand. -/
  | latch (n shape : Nat) (t : TileRef)
  /-- TGO: shape, set, the three descriptors, DRAINCTL, TOLT, NEST, and BFMT of the sixteen banks. -/
  | nest (shape set : Nat) (a b c : TileRef) (drainctl tolt : W64) (regs : List W64) (bfmt : List Byte)
  /-- TDRAIN: set, destination, DRAINCTL, TOLT. -/
  | drain (set : Nat) (c : TileRef) (drainctl tolt : W64)
  /-- TCLR: set. -/
  | clear (set : Nat)
  /-- TROW: physical row. -/
  | row (n : Nat)
  deriving DecidableEq, Repr

/-- A queued matrix operation. -/
structure MatEntry where
  /-- The operation. -/
  op : MatOp
  /-- Issue cycle. -/
  t0 : Nat
  /-- MODE at issue. -/
  mode : W64
  /-- Sequence number. -/
  osn : W64
  /-- Stochastic-rounding value. -/
  src : W64
  /-- Logical index of the strand. -/
  lidx : W64
  /-- Word offset of the issuing bundle. -/
  pc : Nat
  /-- Issued by trap-handler code (R263). -/
  handler : Bool
  deriving DecidableEq, Repr

/-- A latch (R217). -/
structure Latch where
  /-- Format code. -/
  fmt : Nat
  /-- M'. -/
  rows : Nat
  /-- K. -/
  k : Nat
  /-- The descriptor it was loaded from. -/
  src : TileRef
  /-- Element data and scale bytes, one list per row. -/
  data : List (List Byte)
  /-- FP32 tile scale. -/
  tscale : W32
  /-- Column-checksum vector in the checksum format. -/
  csum : List W64
  /-- The operand's SUBST. -/
  subst : Bool
  /-- Stale since a row was retired (R239). -/
  stale : Bool
  deriving DecidableEq, Repr

/-- An accumulator set (R217, R218). Rows that no step has written yet are absent and read as unspecified values. -/
structure AccSet where
  /-- Class: the input-format class 0 FP64, 1 FP32, 2 INT8, 3 every other; none at pick-up. -/
  cls : Option Nat
  /-- Accumulators, row by row. -/
  c : List (List W64)
  /-- Row checksums. -/
  rc : List W64
  /-- Column checksums. -/
  cc : List W64
  /-- Corner total. -/
  corner : W64
  /-- Replay record, oldest first. -/
  replay : List StepRec
  /-- The set can be replayed. -/
  replayable : Bool
  /-- Formats of the steps since the last clear (R220). -/
  fmts : List Nat
  /-- More than 16 steps since the last clear (R218, R220). -/
  spilled : Bool
  /-- A step since the last clear consumed a substituted operand (R234). -/
  subst : Bool
  /-- Cycle at which the last step's results are complete (R224). -/
  ready : Nat
  deriving DecidableEq, Repr

/-- What the macro-sequencer is in the middle of: it reads the lines of its operands (R216, R225). -/
inductive MatJob where
  /-- A step into a set, with the steps of a replay that follow it (R229, R232). -/
  | step (set : Nat) (r : StepRec) (rest : List StepRec)
  /-- The load of a latch with `m` rows of `k` elements of a tile, and the step that waits for it where the latch was stale
  (R228, R239). -/
  | load (n : Nat) (t : TileRef) (m k : Nat) (then_ : Option (Nat × StepRec × List StepRec))
  deriving DecidableEq, Repr

/-- Flags of a matrix operation on their way (R224, R234). -/
structure MatFlags where
  /-- Cycle at which they land. -/
  due : Nat
  /-- Flags. -/
  flags : BitVec 8
  /-- Element offered. -/
  offer : Option Offer
  /-- Word offset of the issuing bundle. -/
  pc : Nat
  /-- Issued by trap-handler code (R263). -/
  handler : Bool
  deriving DecidableEq, Repr

/-- The matrix array (R210, R217 to R222, R236). -/
structure Matrix where
  /-- DRAINCTL. -/
  drainctl : W64
  /-- TOLT. -/
  tolt : W64
  /-- NEST shadow, 24 registers. -/
  shadow : List W64
  /-- NEST active, 24 registers. -/
  active : List W64
  /-- Physical rows that are not in their reset state: STATE, ROLE, ERRCNT, errors since the last remapping, marked. -/
  rows : List (Nat × (Nat × Nat × Nat × Nat × Bool))
  /-- Latches sl0 to sl3. -/
  latches : List (Option Latch)
  /-- Sets acc0 to acc3. -/
  sets : List AccSet
  /-- The M pipe's view of the latches: format, M', K (R217). -/
  viewLatch : List (Option (Nat × Nat × Nat))
  /-- The M pipe's view of the set classes. -/
  viewClass : List (Option Nat)
  /-- Queued operations, the one that runs first. -/
  queue : List MatEntry
  /-- Last cycle of what the sequencer has run (R224). -/
  lastEnd : Nat
  /-- The first queued operation has run and ends at that cycle. -/
  fin : Bool
  /-- Pass of the running nest (R230). -/
  pass : Nat
  /-- Next level-0 index of the pass. -/
  inner : Nat
  /-- What the operation does next: 0 it starts, or a pass starts; 1 steps of a pass; 2 its drain; 3 the second check of a
  drain after a replay; 4 a drain writes (R230 to R234). -/
  stage : Nat
  /-- Operands that are being read, up to the cycle of `lastEnd`. -/
  job : Option MatJob
  /-- Lines of those operands read so far: cluster scratchpad, offset, bytes (R225). -/
  seen : List ((Bool × Nat) × List Byte)
  /-- Lines that a drain is still to write, in order (R234). -/
  writes : List (Bool × Nat × List Byte)
  /-- A TWAIT waits, in trap-handler mode or not (R235, R270). -/
  awaited : Option Bool
  /-- Located errors since the last TWAIT. -/
  corr : Nat
  /-- Replays since the last TWAIT. -/
  rply : Nat
  /-- Last tile-mismatch reason. -/
  lasterr : Nat
  /-- SPX. -/
  spx : Bool
  /-- Passes completed by the last TGO. -/
  npass : Nat
  /-- Flags of steps and drains on their way (R224). -/
  results : List MatFlags
  /-- The clock domain is frozen, for lines of the part in hand have not been granted by its end (R224). -/
  late : Bool
  deriving DecidableEq, Repr

/-- A copy of a line as other agents may still see it: without stores that no FENCE.L has ordered yet (R165, R170). -/
structure OldLine where
  /-- The contexts some of whose stores it lacks: core, and whether the message handler. -/
  lacks : List (Nat × Bool)
  /-- Those of them whose FENCE.L waits for one of these stores (R170). -/
  fenced : List (Nat × Bool)
  /-- The line lies in the cluster scratchpad. -/
  cluster : Bool
  /-- Line number, offset divided by 64. -/
  line : Nat
  /-- Its 64 bytes. -/
  bytes : List Byte
  deriving DecidableEq, Repr

/-- A core (R115 to R131). -/
structure Core where
  /-- s0 to s31 of the main context. -/
  s : List W64
  /-- h0 to h15 of the main context. -/
  h : List W64
  /-- p0 to p7 of the main context; p0 is read through its accessor. -/
  p : List Bool
  /-- x0 to x31. -/
  x : List Vec
  /-- y0 to y31. -/
  y : List Vec
  /-- k0 to k7; k0 is read through its accessor. -/
  k : List W64
  /-- lc0 and lc1. -/
  lc : List W32
  /-- s0 to s15 of the message-handler context. -/
  ms : List W64
  /-- h0 to h15 of the message-handler context. -/
  mh : List W64
  /-- p0 to p7 of the message-handler context. -/
  mp : List Bool
  /-- Control registers of the main context. -/
  main : Ctx
  /-- Control registers of the message-handler context. -/
  hand : Ctx
  /-- The message-handler context runs (R120). -/
  inHandler : Bool
  /-- Architectural cycle (R124). -/
  cycle : Nat
  /-- Cycle at which the next bundle issues. -/
  issueAt : Nat
  /-- FROZEN. -/
  frozen : W64
  /-- FRZBANK. -/
  frzbank : W64
  /-- FRZFULL. -/
  frzfull : W64
  /-- The clock domain is frozen for a full threshold buffer (R67). -/
  full : Bool
  /-- WDOG.PERIOD in microseconds. -/
  wdPeriod : W32
  /-- WDOG.SAVET in microseconds. -/
  wdSave : BitVec 16
  /-- Watchdog count start, time base in ns. -/
  wdStart : Nat
  /-- An expiry is held or was requested and no restart came since (R271). -/
  wdHeld : Bool
  /-- BFMT0 to BFMT15, bits [7:0]. -/
  bfmt : List Byte
  /-- The eight queues. -/
  queues : List Queue
  /-- Handler starts waiting: queue and header, oldest first (R308). -/
  starts : List (Nat × W64)
  /-- Trace. -/
  trace : Trace
  /-- Matrix array. -/
  mat : Matrix
  /-- Core scratchpad (R125). -/
  scratch : List Host.Cell
  /-- Lines with an uncorrectable error (R125). -/
  badLines : List Nat
  /-- Results in flight, in issue order. -/
  landings : List Landing
  /-- Trap requests seen and not taken. -/
  requests : List Request
  /-- A precise fault whose bundle is held while results land (R260). -/
  held : Option Request
  /-- The loop buffer. -/
  loop : Loop
  /-- The bundle in hand. -/
  iss : Issue
  /-- What the core does. -/
  act : Activity
  /-- The strand it holds. -/
  strand : Option Record
  /-- Local slot: strands woken from its queues, oldest first (R27). -/
  slot : List Record
  /-- Plan records of the phase (R32). -/
  plan : List Record
  /-- Phase posts this core runs in deterministic mode, four levels (R33). -/
  posts : List (List Record)
  /-- Wait counts of those levels (R30). -/
  postWait : List Nat
  /-- Cycle before which an idle core does not search again (R31). -/
  idleUntil : Nat
  /-- Range table, most recently used first (R244). -/
  table : List Desc
  /-- Range set the table holds. -/
  tableSet : Option Nat
  /-- Set recorded before the handler changed it (R244). -/
  savedSet : Option Nat
  /-- Code entry. -/
  codeEntry : Option Desc
  /-- Addresses, each with its set, of which a walk has answered that no range holds them (R244). -/
  walkMiss : List (Nat × Nat)
  /-- Unacknowledged sends: operation numbers (R307). -/
  sends : List Nat
  /-- Sends that are held: operation number and time base before which the message does not leave (R307). -/
  sendHold : List (Nat × Nat)
  /-- Latest free count seen for a queue: destination core times 8 plus queue, and count (R307). -/
  freeSeen : List (Nat × Nat)
  /-- Outstanding transfers of both contexts: handler context, handle, transfer number (R335). -/
  xfers : List (Bool × Nat × Nat)
  /-- Outstanding fabric operations: handler context and operation number (R437). -/
  fabOps : List (Bool × Nat)
  /-- Lines as they stood before stores not yet fenced. -/
  oldLines : List OldLine
  /-- A FENCE.L holds the next bundle until the context's accesses before it have been granted: its issue cycle, and whether it is
  the message handler's (R170). -/
  fence : Option (Nat × Bool)
  /-- Number of the step in which the core was saved: the parts of its save area whose layout no rule gives hold the free bytes
  of that step (R273). -/
  saveMark : Nat
  /-- Lines of its scratchpad that have been written since the core was saved (R274). -/
  newer : List Nat
  /-- Registers with an uncorrectable error that no bundle has read yet, by their fault number (R269, R280). -/
  badRegs : List Nat
  /-- Flags that have landed since they were last merged into the phase (R100). -/
  unmerged : BitVec 8
  /-- Lowest element offered since then. -/
  unmergedOffer : Option Offer
  /-- The strand's flags were merged at a phase boundary since its pick-up (R100). -/
  merged : Bool
  /-- Pre-emption has been requested (R272). -/
  preempt : Bool
  /-- Start of its service (R275). -/
  saveStart : Option Nat
  /-- Number of the launch whose code range the code entry holds (R244). -/
  codeLaunch : Option Nat
  /-- Start of the pin in progress (R358). -/
  pinSince : Nat
  /-- That pin has been reported. -/
  pinReported : Bool
  deriving DecidableEq, Repr

end Sys2Proof.Machine
end

