-- ==== Sys2Proof/Machine/PackageState.lean ====
section
/-! DEFINITION. The state outside the cores as plain data: operations on their way to an arbiter, clusters (R295 to
R308, R317 to R339), dies (R28 to R33, R341 to R358), lintel nodes (R361 to R366), the hub with its phase controller
(R37, R93 to R114, R240 to R252, R387 to R402), the fabric (R421 to R448) and the platform (R403 to R419). -/

namespace Sys2Proof.Machine

/-- Who issued an operation and under what (R94, R367). -/
structure Issuer where
  /-- Global core index. -/
  core : Nat
  /-- Issued by the message-handler context. -/
  handler : Bool
  /-- Logical index. -/
  lidx : W64
  /-- Sequence number. -/
  osn : W64
  /-- MODE at issue. -/
  mode : W64
  /-- Stochastic-rounding value, where it took one. -/
  src : W64
  /-- Word offset of the bundle. -/
  pc : Nat
  /-- Status block of the strand. -/
  dslot : W32
  /-- Phase number. -/
  phase : W32
  /-- Launch identifier. -/
  launch : W64
  deriving DecidableEq, Repr

/-- Where a meet sends its result (R370, R376). -/
inductive MeetDest where
  /-- Queue `q` of a core, with the handler flag. -/
  | queue (core q : Nat) (h : Bool)
  /-- Global memory. -/
  | memory (b : Bound)
  deriving DecidableEq, Repr

/-- An operand of a meet (R364, R367, R376). -/
structure Operand where
  /-- Operation number. -/
  id : Nat
  /-- Sender. -/
  by_ : Issuer
  /-- Tag. -/
  tag : W32
  /-- Combine operation. -/
  cop : Nat
  /-- Tile source. -/
  ts : Bool
  /-- Extended tile. -/
  ext : Bool
  /-- Format the MEET sampled. -/
  fmt : Nat
  /-- Operand bytes, 64 for each line. -/
  bytes : List Byte
  /-- Destination. -/
  dest : MeetDest
  /-- Return queue. -/
  rq : Nat
  /-- Time at which it was held. -/
  time : Nat
  deriving DecidableEq, Repr

/-- A message on its way to a queue (R305): its entries without SEQ and OVF. -/
structure Message where
  /-- Destination core. -/
  core : Nat
  /-- Destination queue. -/
  q : Nat
  /-- Entries of 64 bytes, the first one with the header. -/
  entries : List (List Byte)
  /-- Tag that stays busy until delivery, for lintel messages (R372). -/
  tag : Option Nat
  /-- From another package (R315). -/
  remote : Bool
  deriving DecidableEq, Repr

/-- Operations on synchronisation objects (R345, R353, R354). -/
inductive SyncKind where
  /-- BINIT with the literal flag and the low word of s[b]. -/
  | init (literal : Bool) (value : W32)
  /-- BARRIVE. -/
  | arrive
  /-- BEXPECT. -/
  | expect (n : Nat)
  /-- BINV. -/
  | inv
  /-- BWAIT for a round; `park` where it may park. -/
  | wait (round : Nat) (park : Bool)
  /-- PIN.B registration. -/
  | pin
  /-- Atomics: 0 AADD, 1 AMIN, 2 AMAX, 3 AOR, 4 AFIX, 5 AREAD on cell number `cell`. -/
  | atomic (op cell : Nat) (value : W64)
  /-- ACAS. -/
  | cas (cell : Nat) (old new : W64)
  deriving DecidableEq, Repr

/-- A range instruction as the hub sees it, with its operands (R253, R257). -/
inductive RangeWord where
  /-- RSPLIT at an address. -/
  | split (p : W64)
  /-- RMERGE, expected upper RID. -/
  | merge (upper : W64)
  /-- RINV. -/
  | remove
  /-- RRES: GROW or SET, new window. -/
  | window (grow : Bool) (base lim : W64)
  /-- RPROT: form 0 ALL, 1 PERM, 2 KEY, and the attribute word. -/
  | protect (form : Nat) (v : W64)
  /-- RMOVE to a new POFF. -/
  | move (q : W64)
  deriving DecidableEq, Repr

/-- State of a tag number in the hub pool (R363, R375). -/
inductive PoolState where
  /-- MTAGA may take it. -/
  | free
  /-- Allocated. -/
  | allocated
  /-- The node has closed it, and the close has not reached the hub arbiter. -/
  | closing
  deriving DecidableEq, Repr

/-- A range update whose first step has passed (R248): the descriptors that it replaces or removes, with their set, and
whether it ends a move. -/
structure RangeUpd where
  /-- Range set. -/
  set : Nat
  /-- Old descriptors. -/
  old : List Desc
  /-- RIDs of the new descriptors. -/
  made : List Nat
  /-- RIDs that become free when it completes. -/
  freed : List Nat
  /-- The last step of a move. -/
  move : Bool
  deriving DecidableEq, Repr

/-- An operation that has left its core and waits for its arbiter. -/
inductive Op where
  /-- POST or POSTN (R81). -/
  | post (rec : Record) (die bucket : Nat) (next : Bool) (home : BitVec 48)
  /-- KLOOK (R301). -/
  | look (mode arg : Nat)
  /-- KTAG (R302). -/
  | ktag (slot : Nat) (tag : BitVec 48) (expect new : Nat)
  /-- KUNTAG (R302). -/
  | kuntag (slot : Nat) (tag : BitVec 48) (expect : Nat) (zero : Bool)
  /-- QPUT: destination core and queue, handler flag, user word, payload offset, and the payload line once its read has
  been granted (R310, R312). -/
  | put (core q : Nat) (h : Bool) (user : W32) (offset : Nat) (payload : Option (List Byte))
  /-- The acknowledgement of a QPUT or a MEET on its way back: for a QPUT the destination ring, core times 8 plus queue, with
  its free count, and for a refused message the TVAL of its trap (R306, R307, R376). -/
  | ack (seen : Option (Nat × Nat)) (refused : Option W64)
  /-- Another message on its way to a queue (R305). -/
  | message (m : Message)
  /-- MEET: the lines of the operand that have been read, and of a tile source the offset of the next line and the number of
  lines still to be read (R376). -/
  | meet (o : Operand) (rest : Option (Nat × Nat))
  /-- QGET that waits for the front of the overflow area to be moved into the ring (R311), since a time of the time base, and
  whether a wait scan has reported it (R358). [DESIGN CHOICE, log 2: unsafe] -/
  | get (q since : Nat) (reported : Bool)
  /-- A group instruction on its way to the hub (R78, R89, R90): 0 GNEW, 1 GJOIN, 2 GLEAVE, 3 GFREE, 4 GINFO, with its operand. -/
  | group (kind : Nat) (v : W64)
  /-- DGST of one half while folds it must include are pending (R92). -/
  | dgst (high : Bool)
  /-- MTAGA on its way to the hub arbiter (R374). -/
  | tagAsk
  /-- MTAGA: the open of an allocated tag number with its incarnation, on its way to the home node (R374). -/
  | tagOpen (tnum : Nat) (inc : BitVec 8)
  /-- The result of a meet that its node writes to global memory: the node, L and R, the message that goes back where a poisoned
  block refuses the write, the result's lines, the writes still to be made by their offsets, and whether one was refused
  (R370, R406). -/
  | meetWrite (node : Nat) (l r : Operand) (back : Message) (bytes : List Byte) (left : List (Nat × List Byte)) (refused : Bool)
  /-- MTAGF (R375). -/
  | tagFree (tag : W32)
  /-- MSTAT (R377). -/
  | tagStat (tag : W32)
  /-- A synchronisation operation on an object of a die (R343). -/
  | sync (die obj : Nat) (kind : SyncKind) (b : Option Bound)
  /-- A decrement or, with no byte count, a failure from a transfer or a fabric operation (R329, R330), with the number of
  that operation. -/
  | decrement (die obj : Nat) (bytes : Option Nat) (source : Nat) (b : Option Bound)
  /-- An arrival from a fabric barrier round (R432). -/
  | fabricArrive (die obj : Nat) (b : Option Bound)
  /-- A range instruction whose first step waits (R248, R252): set, address, word. -/
  | rangeAsk (set va : Nat) (w : RangeWord)
  /-- A directory update (R248). -/
  | range (u : RangeUpd)
  /-- RFENCE with its count of range instructions (R256). -/
  | rangeFence (count : Nat)
  /-- FPUT: record fields, bindings of the local side and of the barrier (R426, R429). -/
  | fput (lsp laddr pkg : Nat) (qf : Bool) (rid roff red len : Nat) (group user : W32) (l bar : Option Bound)
  /-- FGET. -/
  | fget (lsp laddr pkg rid roff len : Nat) (group : W32) (l bar : Option Bound)
  /-- FBAR on its way to the hub arbiter: handle, box word and binding of the local object (R431, R432). -/
  | fbar (handle : W32) (box : BitVec 25) (obj : Option Bound)
  /-- CPOST: the scratchpad offset of its entry image and the bytes of it that have been read (R448). -/
  | cpost (offset : Nat) (image : List Byte)
  deriving DecidableEq, Repr

/-- An operation with its issuer. -/
structure Pending where
  /-- Number. -/
  id : Nat
  /-- Issuer. -/
  by_ : Issuer
  /-- What it does. -/
  op : Op
  deriving DecidableEq, Repr

/-- A chunk of a transfer on the copy engine that runs it (R326), or the reread of its tile (R323): the source bytes from `lo`
to `hi`. -/
structure EngineRun where
  /-- Engine of the cluster. -/
  engine : Nat
  /-- First source byte. -/
  lo : Nat
  /-- One past its last source byte. -/
  hi : Nat
  /-- Pieces of the block in hand that have been written (R326, R329). -/
  wrote : Nat
  /-- The burst of reads under way: its bank, and the lines of it that have been granted (R127). -/
  reads : Nat × Nat
  /-- The burst of writes under way. -/
  writes : Nat × Nat
  deriving DecidableEq, Repr

/-- A transfer (R317, R326, R336). -/
structure Xfer where
  /-- Number. -/
  id : Nat
  /-- Issuer. -/
  by_ : Issuer
  /-- Handle. -/
  handle : Nat
  /-- SSP and DSP. -/
  ssp : Nat
  /-- DSP. -/
  dsp : Nat
  /-- SADDR. -/
  saddr : Nat
  /-- DADDR. -/
  daddr : Nat
  /-- ROWS. -/
  rows : Nat
  /-- NCOL. -/
  ncol : Nat
  /-- Source format. -/
  sfmt : Nat
  /-- Destination format. -/
  dfmt : Nat
  /-- Source extended. -/
  sext : Bool
  /-- Destination extended. -/
  dext : Bool
  /-- SPITCH. -/
  spitch : Nat
  /-- DPITCH. -/
  dpitch : Nat
  /-- OP. -/
  op : Nat
  /-- RAW. -/
  raw : Bool
  /-- TILE. -/
  tile : Bool
  /-- DTSCALE. -/
  dtscale : W32
  /-- Binding of a global source. -/
  src : Option Bound
  /-- Binding of a global destination. -/
  dst : Option Bound
  /-- Binding of the barrier. -/
  bar : Option Bound
  /-- JKEY of the launch (R144). -/
  jkey : W64
  /-- A side lies in HBM (R327). -/
  hbm : Bool
  /-- Chunks of source bytes admitted so far (R326). -/
  admitted : Nat
  /-- Chunks that engines run. -/
  runs : List EngineRun
  /-- Source bytes that each chunk has read from its first one on, with the place of that one, in ascending order. -/
  parts : List (Nat × List Byte)
  /-- Runs of the image that can not be read: start and length (R330). -/
  unread : List (Nat × Nat)
  /-- Units of a plain source that have been read in part, by address, with the value of which the rest is taken (R101). -/
  seen : List (Nat × W64)
  /-- Every source byte has been read, and the source's count is released (R245). -/
  freed : Bool
  /-- The first header has been written (R324). -/
  opened : Bool
  /-- Destination blocks of 4 KiB granted so far. -/
  granted : List Nat
  /-- Bytes decremented so far (R329). -/
  done : Nat
  /-- The source tile has been reread (R323). -/
  reread : Bool
  /-- Verification has been decided (R322). -/
  verified : Bool
  /-- A source line was substituted (R410). -/
  subst : Bool
  /-- Folds of the data before it was rewritten (R332). -/
  firstFold : Option (List (W64 × W64))
  /-- Flags raised so far. -/
  flags : BitVec 8
  /-- Element with the lowest identifier. -/
  offer : Option Offer
  /-- Cancelled by XCANCEL. -/
  cancelled : Bool
  /-- Status once it has failed. -/
  status : Nat
  deriving DecidableEq, Repr

/-- A tag-table entry (R300). -/
structure TagEntry where
  /-- TAG. -/
  tag : BitVec 48
  /-- STATE: 0 free, 1 filling, 2 ready. -/
  state : Nat
  /-- OWNER. -/
  owner : Nat
  deriving DecidableEq, Repr

/-- A cluster (R295 to R303, R326, R327, R245). -/
structure Cluster where
  /-- Cluster scratchpad. -/
  scratch : List Host.Cell
  /-- Lines with an uncorrectable error. -/
  badLines : List Nat
  /-- Tag table: slots that are not free or whose owner was set. -/
  tags : List (Nat × TagEntry)
  /-- Slots whose entry has an uncorrectable error (R316). -/
  badSlots : List Nat
  /-- Transfers that have not ended, in the order received. -/
  xfers : List Xfer
  /-- Token bucket in bytes (R327). -/
  tokens : Nat
  /-- Count table: (RID, version) and accesses in flight (R245). -/
  counts : List ((Nat × Nat) × Nat)
  /-- The step that wrote its pages of the save area, while it has not been restored from them (R393, R400). -/
  saved : Option Nat
  /-- Lines that have been written since it was saved. -/
  newer : List Nat
  deriving DecidableEq, Repr

/-- A strand that waits on a barrier: parked, with its record and the argument that takes the status, or pinned. -/
structure Waiter where
  /-- Logical index. -/
  lidx : W64
  /-- Round, none for a pinned strand. -/
  round : Option Nat
  /-- Record of a parked strand and its argument. -/
  parked : Option (Record × Nat)
  /-- Core of a pinned strand and its result register. -/
  pinned : Option (Nat × Nat)
  /-- Virtual address of the barrier. -/
  va : Nat
  /-- Start of the wait. -/
  since : Nat
  /-- The wait has been reported (R358). -/
  reported : Bool
  deriving DecidableEq, Repr

/-- A synchronisation object (R342). -/
structure SyncObj where
  /-- Kind 1, a barrier; otherwise eight cells. -/
  barrier : Bool
  /-- The eight cells of kind 0. -/
  cells : List W64
  /-- STATE: 0 reset, 1 armed, 2 released, 3 failed. -/
  state : Nat
  /-- FCAUSE. -/
  fcause : Nat
  /-- GEN. -/
  gen : Nat
  /-- Bound to a group rather than to a literal count. -/
  bound : Bool
  /-- GROUP. -/
  group : W32
  /-- The binding has added one to the group's outstanding count (R348). -/
  counted : Bool
  /-- MEMB. -/
  memb : Nat
  /-- ARR. -/
  arr : Nat
  /-- PEND. -/
  pend : Nat
  /-- Strands that wait. -/
  waiters : List Waiter
  deriving DecidableEq, Repr

/-- A transom record of a die or of the hub (R356, R357, R402). -/
structure Transom where
  /-- Entries, oldest first, at most 4,096. -/
  entries : List (BitVec 512)
  /-- SEQ of the next entry. -/
  seq : W32
  /-- Frozen. -/
  frozen : Bool
  /-- Refused events, saturating. -/
  refused : W32
  deriving DecidableEq, Repr

/-- A compute die (R28 to R33, R341 to R359, R417, R418). -/
structure Die where
  /-- Twenty buckets of four levels of records. -/
  buckets : List (List (List Record))
  /-- Wait counts of levels 0 to 2 of each bucket. -/
  waits : List (List Nat)
  /-- Next-phase list (R83). -/
  next : List Record
  /-- Objects by number; one not listed is of kind 0 with all bytes zero. -/
  objects : List (Nat × SyncObj)
  /-- Objects cached in the engine, most recently used first (R341). -/
  cache : List Nat
  /-- Transom record. -/
  transom : Transom
  /-- Undo log of the phase: objects as first found (R359). -/
  undo : List (Nat × SyncObj)
  /-- Stopped by a machine check of its control. -/
  stopped : Bool
  /-- The clock is stretched (R417). -/
  stretched : Bool
  /-- Temperatures of the four junctions in degrees (R418). -/
  temps : List Nat
  /-- Repair table: failing rows and the spares that they are mapped to (R416). -/
  repairs : List (Nat × Nat)
  /-- BOOTSUM (R416). -/
  bootsum : W64
  /-- Corrected errors (R280). -/
  corrected : Nat
  deriving DecidableEq, Repr

/-- A directory entry of a lintel node (R363). -/
structure DirEntry where
  /-- STATE is open. -/
  isOpen : Bool
  /-- INC. -/
  inc : BitVec 8
  /-- Held operand, and whether it stands in the overflow area. -/
  held : Option (Bool × Nat × Operand)
  /-- TOMB. -/
  tomb : Bool
  deriving DecidableEq, Repr

/-- A lintel node (R361 to R366, R372). -/
structure Node where
  /-- Directory by tag number. -/
  dir : List (Nat × DirEntry)
  /-- Messages offered again, with the time from which each is (R372). -/
  offers : List (Nat × Message)
  /-- Undo log of the phase. -/
  undo : List (Nat × DirEntry)
  /-- Stopped by a machine check of its control. -/
  stopped : Bool
  deriving DecidableEq, Repr

/-- A group-table entry (R37). -/
structure Group where
  /-- 0 free, 1 open, 2 freeing. -/
  state : Nat
  /-- Incarnation. -/
  inc : BitVec 8
  /-- Member count. -/
  memb : Nat
  /-- Outstanding count. -/
  outs : Nat
  deriving DecidableEq, Repr

/-- A write to a unit of a P range in the open phase (R101). -/
structure PlainWrite where
  /-- Number of the writer. -/
  writer : Nat
  /-- The model's turn in which it was written. -/
  turn : Nat
  /-- Address of the unit. -/
  pa : Nat
  /-- The unit's value before it. -/
  old : W64
  deriving DecidableEq, Repr

/-- A write to a V range, or a reduction store to one, in the open phase (R94, R97). -/
structure ShadowWrite where
  /-- Writer's logical index. -/
  lidx : W64
  /-- Sequence number. -/
  osn : W64
  /-- Order among the units of one operation. -/
  sub : Nat
  /-- Range set through which it was written. -/
  set : Nat
  /-- Virtual address of the 8-byte unit. -/
  va : Nat
  /-- Physical address of the unit. -/
  pa : Nat
  /-- KEY. -/
  key : Nat
  /-- 0 plain, 1 INT64, 2 FIX64. -/
  kind : Nat
  /-- Bytes written. -/
  mask : BitVec 8
  /-- Data or delta. -/
  data : W64
  deriving DecidableEq, Repr

/-- What a strand folded in the phase and in which phase it runs (R109). -/
structure Ancestor where
  /-- Child. -/
  child : W64
  /-- Parent. -/
  parent : W64
  /-- Sequence number of the parent's POST. -/
  osn : W64
  deriving DecidableEq, Repr

/-- The launch in progress (R392). -/
structure Launch where
  /-- Number of the launch in this model's count, for code entries. -/
  num : Nat
  /-- Launch identifier. -/
  ident : W64
  /-- Index of its entry. -/
  index : Nat
  /-- PRIO. -/
  prio : Nat
  /-- DET. -/
  det : Bool
  /-- DMODE. -/
  dmode : Nat
  /-- PPOL. -/
  ppol : Nat
  /-- IRQ. -/
  irq : Bool
  /-- CODERID. -/
  coderid : Nat
  /-- Range set of the template. -/
  rset : Nat
  /-- MODE of the template with DET. -/
  mode : W32
  /-- JKEY. -/
  jkey : W64
  /-- PPARAM. -/
  pparam : W32
  /-- WLIM in microseconds. -/
  wlim : Nat
  /-- MTO in microseconds. -/
  mto : Nat
  /-- DLOG. -/
  dlog : Nat
  /-- DLEN. -/
  dlen : Nat
  /-- Shadow area size. -/
  shadow : Nat
  /-- Strand overflow area size. -/
  overflow : Nat
  /-- Status area: base. -/
  statusBase : Nat
  /-- Status area size. -/
  statusSize : Nat
  /-- Physical base of the range directory. -/
  dirBase : Nat
  /-- Sets of the directory: number, first entry and count, as the launch entry gave them. -/
  dirSets : List (Nat × Nat × Nat)
  /-- First virtual byte of the code range; no update of a range changes it (R257). -/
  codeBase : Nat
  /-- Bytes of one queue's overflow area. -/
  queueArea : Nat
  /-- Physical base of the queue overflow areas. -/
  queueBase : Nat
  /-- Physical base of the lintel overflow areas. -/
  lintelBase : Nat
  /-- Objects of each die. -/
  objects : Nat
  /-- Open phase. -/
  phase : Nat
  /-- Phases committed. -/
  committed : Nat
  /-- Serial re-execution of the phase (R114). -/
  serial : Bool
  /-- The conditions of R113 fail. -/
  marked : Bool
  /-- A write of the phase was dropped (R97). -/
  dropped : Bool
  /-- Writes of the phase to V ranges, in arrival order. -/
  writes : List ShadowWrite
  /-- POSTs of the phase. -/
  posts : List Ancestor
  /-- Units of P ranges written in the phase. -/
  pwrites : List PlainWrite
  /-- Strands that have run in the phase: logical index and status block (R19, R109). -/
  ran : List (W64 × Nat)
  /-- Strands that ended in the phase: their records, whose status blocks are freed after its commit (R20, R85). -/
  ended : List Record
  /-- Two records of the phase carry one logical index (R19). -/
  dup : Option W64
  /-- Phase flags. -/
  flags : BitVec 8
  /-- Element of the phase flags: logical index and offer. -/
  elem : Option (W64 × Offer)
  /-- The fabric barrier round of the phase boundary is over (R435). -/
  podDone : Bool
  /-- Collective entries posted by CPOST: images of 32 doublewords (R448). -/
  collectives : List (List W64)
  /-- Physical base of the save area (R393). -/
  saveBase : Nat
  /-- Physical base of the sync object space (R393). -/
  objectBase : Nat
  /-- While the root records are being created: the launch entry, the range of the affinity addresses, and the next strand
  (R394, R398). -/
  roots : Option (List W64 × Desc × Nat)
  deriving DecidableEq, Repr

/-- A collective in progress (R438 to R447). -/
structure Coll where
  /-- The entry's doublewords. -/
  dws : List W64
  /-- Index in the launch queue; none for a CPOST entry. -/
  index : Option Nat
  /-- Bound source buffer. -/
  sbuf : Bound
  /-- Bound destination buffer. -/
  dbuf : Bound
  /-- The round of the join is open. -/
  opened : Bool
  /-- Join complete. -/
  joined : Bool
  /-- Packages joined so far, this one among them. -/
  peers : List Nat
  /-- Dead participants' ranks. -/
  dead : List Nat
  /-- Step in progress. -/
  stepNo : Nat
  /-- Chunks of the step completed. -/
  chunk : Nat
  /-- Chunks of the step for which every contribution has been sent (R444). -/
  sent : Nat
  /-- Resume point of the last re-stitch. -/
  resume : Option Nat
  /-- Start of the join. -/
  since : Nat
  /-- The current step's source part, element by element; none for what only a dead participant held. -/
  part : List (Option W64)
  /-- The step's destination part so far. -/
  out : List (Option W64)
  /-- FLAGS. -/
  flags : BitVec 8
  /-- Participants, by their place in the ring, whose contribution to the chunk has failed its checksum once. -/
  bad : List Nat
  deriving DecidableEq, Repr

/-- A move of the compaction engine (R251). -/
structure Move where
  /-- Operation number. -/
  id : Nat
  /-- Issuer. -/
  by_ : Issuer
  /-- Range set. -/
  set : Nat
  /-- RID. -/
  rid : Nat
  /-- Version of the descriptor that it moves. -/
  version : Nat
  /-- Old physical address of the resident window. -/
  source : Nat
  /-- New POFF. -/
  poff : Nat
  /-- New physical address of the resident window. -/
  base : Nat
  /-- Watermark, none while queued. -/
  mark : Option Nat
  /-- Stopped by an RINV. -/
  aborted : Bool
  deriving DecidableEq, Repr

/-- What a core held at phase start of the strand set and of its queues (R112, R114). -/
structure CoreStart where
  /-- Local slot. -/
  slot : List Record
  /-- Plan records. -/
  plan : List Record
  /-- Queues. -/
  queues : List Queue
  /-- Handler starts. -/
  starts : List (Nat × W64)
  deriving DecidableEq, Repr

/-- What rollback restores (R112): the strand set, status blocks, groups, tags, directory and queues at phase start. -/
structure Snapshot where
  /-- Dies: buckets, next-phase lists, objects. -/
  dies : List (Nat × Die)
  /-- Records and queues of cores: local slot, plan, queues, handler starts. -/
  cores : List (Nat × CoreStart)
  /-- Status blocks. -/
  status : List (Nat × StatusBlock)
  /-- Group table. -/
  groups : List (Nat × Group)
  /-- Tag pool. -/
  tags : List (Nat × (PoolState × BitVec 8))
  /-- Node directories. -/
  nodes : List (Nat × Node)
  /-- Range directory. -/
  dir : List (Nat × List Desc)
  deriving DecidableEq, Repr

/-- The hub (R37, R93, R243, R251, R361, R387 to R402). -/
structure Hub where
  /-- HID. -/
  hid : W64
  /-- LQBASE. -/
  lqbase : W64
  /-- LQSIZE [4:0]. -/
  lqsize : Nat
  /-- LQTAIL. -/
  lqtail : Nat
  /-- LQHEAD. -/
  lqhead : Nat
  /-- PGT [27:0]. -/
  pgt : W64
  /-- PGT as the last pre-emption sampled it (R399). -/
  pgtNow : W64
  /-- PSTAT. -/
  pstat : W64
  /-- TRSEL. -/
  trsel : Nat
  /-- TRIDX. -/
  tridx : Nat
  /-- HSTAT.LSEQ. -/
  lseq : W32
  /-- HSTAT.BADCMD. -/
  badcmd : Bool
  /-- HSTAT.QSTOP. -/
  qstop : Bool
  /-- HSTAT.PSTATE. -/
  pstate : Nat
  /-- HSTAT.RUN. -/
  run : Bool
  /-- JSEQ. -/
  jseq : W32
  /-- A job is open. -/
  job : Bool
  /-- Launches started, this model's count. -/
  launches : Nat
  /-- Launch in progress. -/
  launch : Option Launch
  /-- Translation set of the job's most recently started launch (R440). -/
  lastSet : Option Nat
  /-- Collective in progress. -/
  coll : Option Coll
  /-- Joins of other packages, with the hashes of their entries, for collectives that this package has not joined yet (R445). -/
  joins : List (Nat × W64)
  /-- Collective entries of a completed launch still to run (R448). -/
  collQueue : List (List W64)
  /-- Pick-ups are held (R93 step 1). -/
  hold : Bool
  /-- Group table: entries not in the reset state. -/
  groups : List (Nat × Group)
  /-- Tag pool: entries not free with INC 0: allocated, INC (R363). -/
  tags : List (Nat × (PoolState × BitVec 8))
  /-- Range directory: range set and its descriptors, ascending VBASE (R243). -/
  dir : List (Nat × List Desc)
  /-- Versions of removed RIDs, so that a reused RID goes on counting. -/
  versions : List (Nat × Nat)
  /-- Descriptor changes of the phase (R250). -/
  dirUndo : Nat
  /-- Moves, the running one first. -/
  moves : List Move
  /-- Status blocks by DSLOT. -/
  status : List (Nat × StatusBlock)
  /-- Loaded key slots and the number of the key each holds (R409). -/
  keys : List (Nat × Nat)
  /-- Keys drawn so far. -/
  keyCount : Nat
  /-- Snapshot of the phase start. -/
  snap : Option Snapshot
  /-- Transom record of the hub. -/
  transom : Transom
  /-- Engines that have acknowledged the pre-emption, by number. -/
  acks : List Nat
  /-- Engines that still report during resume. -/
  toResume : List Nat
  /-- Start of the pre-emption in progress. -/
  preStart : Nat
  /-- CANCEL waits for the pre-emption to complete. -/
  cancelling : Bool
  /-- The commands, 1 PREEMPT and 3 CANCEL, that wait for the last step of the commit under way, oldest first (R398). -/
  waiting : List Nat
  deriving DecidableEq, Repr

/-- A port (R421, R425). -/
structure FabPort where
  /-- 0 up, 1 retraining, 2 down, 3 unused. -/
  state : Nat
  /-- Retrainings since reset. -/
  retrains : Nat
  /-- Failed retrainings within the last second. -/
  failures : List Nat
  /-- Replays since reset. -/
  replays : Nat
  /-- Replays of one flit that have been rejected one after the other (R422). -/
  run : Nat
  /-- Time at which it went down. -/
  since : Nat
  deriving DecidableEq, Repr

/-- A recorded FBAR: logical index, object binding, issuing core and context, sequence number. -/
structure FbarRec where
  /-- Issuer. -/
  by_ : Issuer
  /-- Operation number. -/
  id : Nat
  /-- Box word. -/
  box : BitVec 25
  /-- Binding of the local object. -/
  obj : Option Bound
  deriving DecidableEq, Repr

/-- An active fabric barrier entry (R432). -/
structure FabEntry where
  /-- GID. -/
  gid : Nat
  /-- INC of the handle. -/
  inc : BitVec 8
  /-- GEN. -/
  gen : Nat
  /-- A round is open. -/
  isOpen : Bool
  /-- Box. -/
  box : BitVec 25
  /-- Member count of the round. -/
  need : Nat
  /-- Recorded FBARs. -/
  recs : List FbarRec
  /-- FBARs held for the next round. -/
  nextRecs : List FbarRec
  /-- Children whose arrival has come. -/
  children : List Nat
  /-- The arrival has been forwarded up the tree (R433). -/
  sentUp : Bool
  /-- Opened at. -/
  since : Nat
  /-- The round of the phase controller (R435). -/
  pod : Bool
  /-- The open round is the join of a collective (R445). -/
  join : Bool
  deriving DecidableEq, Repr

/-- A remote operation on its way (R429). -/
structure Remote where
  /-- Operation number. -/
  id : Nat
  /-- Issuer. -/
  by_ : Issuer
  /-- The operation. -/
  op : Op
  /-- Packets sent so far. -/
  left : Nat
  /-- Packets of a put that have been acknowledged (R424). -/
  acked : Nat
  /-- Bytes read so far for the next packet of a put. -/
  buf : List Byte
  /-- Failures of each of its packets, by SEQ (R423). -/
  tries : List (Nat × Nat)
  /-- Bytes of a get received so far. -/
  got : Nat
  /-- Status with which it has failed at this package, or 0. -/
  failed : Nat
  deriving DecidableEq, Repr

/-- A packet that has left the package (R423, R424). -/
structure Sent where
  /-- Destination package. -/
  dst : Nat
  /-- Port that it takes. -/
  port : Option Nat
  /-- Class. -/
  cls : Nat
  /-- Header flit. -/
  header : BitVec 256
  /-- Data flits. -/
  data : List Byte
  /-- Time at which it left. -/
  time : Nat
  /-- Packet of a remote operation. -/
  packet : Option Packet
  deriving DecidableEq, Repr

/-- The fabric side of the package (R421 to R435). -/
structure Fabric where
  /-- Torus extents X, Y, Z. -/
  ex : Nat
  /-- Extent in Y. -/
  ey : Nat
  /-- Extent in Z. -/
  ez : Nat
  /-- Ports not in their reset state. -/
  ports : List (Nat × FabPort)
  /-- Dead packages. -/
  dead : List Nat
  /-- Barrier entries. -/
  entries : List FabEntry
  /-- Operations in flight. -/
  remotes : List Remote
  /-- Packets sent, newest first: what leaves the package. -/
  sent : List Sent
  /-- Next SEQ of each outgoing stream: class, core, package. -/
  seqs : List ((Nat × Nat × Nat) × Nat)
  /-- Next SEQ expected of each incoming stream: class, core, package. -/
  expect : List ((Nat × Nat × Nat) × Nat)
  /-- Packets that arrived early. -/
  early : List Packet
  /-- Queue messages of which some packets have arrived: stream and bytes so far. -/
  parts : List ((Nat × Nat × Nat) × List Byte)
  /-- Answers sent to packets of others: source, operation, status, bytes of a get. -/
  answers : List (Nat × Nat × Nat × List Byte)
  /-- A hub machine check has the hub send its death notice (R425). -/
  notice : Bool
  /-- The notice has left. -/
  told : Bool
  /-- Cores whose next queue message from another package the NoC loses for good (R316). -/
  lost : List Nat
  deriving DecidableEq, Repr

/-- A lane whose margin has fallen below the threshold (R414). -/
structure LowLane where
  /-- Lane. -/
  lane : Nat
  /-- Margin as last measured. -/
  margin : Nat
  /-- 0 not yet retrained, 1 still below the threshold after a retraining, 2 in service without a spare. -/
  stage : Nat
  deriving DecidableEq, Repr

/-- Eye state of a stack (R413). -/
structure Eye where
  /-- EYECTL. -/
  ctl : W64
  /-- Lanes below the threshold, in the order in which they crossed it. -/
  low : List LowLane
  /-- Lanes repaired. -/
  repd : Nat
  /-- Spare lanes left. -/
  spare : Nat
  /-- NOSP. -/
  nosp : Bool
  /-- RTPEND. -/
  rtpend : Bool
  /-- INT. -/
  int : Bool
  /-- Armed scrub write-backs, oldest first: block number, whether it poisons, and the time of the scrub read (R407). -/
  armed : List (Nat × Bool × Nat)
  /-- Next block of the patrol. -/
  patrol : Nat
  deriving DecidableEq, Repr

/-- A core rail and its regulator (R417, R419); voltages in steps of 2.5 mV. -/
structure Rail where
  /-- Voltage target. -/
  target : Nat
  /-- Voltage as last read. -/
  volts : Nat
  /-- Current as last read, in amperes. -/
  amps : Nat
  /-- Time of the last write of the target. -/
  wrote : Option Nat
  /-- A rise that a droop has asked for waits until the rail may be written again. -/
  rise : Bool
  deriving DecidableEq, Repr

/-- The platform (R403 to R419). -/
structure Platform where
  /-- HWKEY. -/
  hwkey : Nat
  /-- SUBCNT. -/
  subcnt : W64
  /-- MEMUE [59:0]. -/
  memue : Nat
  /-- MEMUE [63:60]. -/
  memueStack : Nat
  /-- MEMCE. -/
  memce : W64
  /-- THERM: TJTHR, TJMAX, TARGET, TIEN. -/
  tjthr : Nat
  /-- TJMAX. -/
  tjmax : Nat
  /-- TARGET. -/
  target : Nat
  /-- TIEN. -/
  tien : Bool
  /-- Throttling. -/
  throttling : Bool
  /-- Time of the last step that the thermal loop made (R418). -/
  stepped : Option Nat
  /-- Eyes by stack; one not listed is in its reset state. -/
  eyes : List (Nat × Eye)
  /-- Core rails by die; one not listed is in its reset state. -/
  rails : List (Nat × Rail)
  /-- Dies whose regulator is silent. -/
  silent : List Nat
  /-- Blocks with a correctable error. -/
  soft : List Nat
  /-- Poisoned blocks. -/
  poison : List Nat
  /-- Blocks with an uncorrectable error that no read has met yet. -/
  hard : List Nat
  /-- Key number under which each block was last written; a block not listed holds no ciphertext. -/
  blockKey : List (Nat × Nat)
  /-- Size class in the sideband of each block that is stored compressed (R412). -/
  classes : List (Nat × Nat)
  /-- Measurement registers M0 to M3. -/
  measures : List (BitVec 384)
  /-- Boot has ended (R415). -/
  booted : Bool
  /-- A boot stage failed its verification, which stopped boot (R415). -/
  bootFailed : Bool
  /-- Last attestation report: measurements, version, package, nonce, signature. -/
  report : Option (List (BitVec 384) × Nat × Nat × List Byte × Nat)
  /-- MSI-X vectors raised, newest first. -/
  msix : List Nat
  /-- Value of the last host read. -/
  hostRead : List Byte
  deriving DecidableEq, Repr

end Sys2Proof.Machine
end

