-- ==== Sys2Proof/Machine/State.lean ====
section
/-! DEFINITION. The whole state of a package as plain data, the reasons for which a step can stop, and the state right
after a package reset. The cores, clusters, dies and nodes stand in lists with rising numbers; one that is not listed is
in its reset state. `agenda`, `fresh`, `cur` and `nextId` are the model's own: events that wait for their arbiter, the
number of the step from which free values are taken, the core in turn, and the next operation number. -/

namespace Sys2Proof.Machine

/-- Why a step stops. -/
inductive Fault where
  /-- An event names a unit that does not exist (R5, R6). Raised by the events; safe, since no run of the hardware
  contains such an event. [DESIGN CHOICE, log 7: safe] -/
  | noSuchUnit (number : Nat)
  deriving DecidableEq, Repr

/-- Why a step has no meaning. -/
inductive Refusal where
  /-- The instruction has no meaning yet. Raised by `exec`; safe. -/
  | notModelled (mnemonic : String)
  deriving DecidableEq, Repr

/-- The state of a package (R5). -/
structure State where
  /-- Cores by global core index. -/
  cores : List (Nat × Core)
  /-- Clusters by die × 20 + cluster. -/
  clusters : List (Nat × Cluster)
  /-- Compute dies. -/
  dies : List (Nat × Die)
  /-- Lintel nodes. -/
  nodes : List (Nat × Node)
  /-- The hub. -/
  hub : Hub
  /-- HBM by physical address (R242). -/
  hbm : List Host.Cell
  /-- The fabric. -/
  fabric : Fabric
  /-- The platform. -/
  platform : Platform
  /-- Operations that have left their cores. -/
  ops : List Pending
  /-- Events that wait for their arbiter, oldest first; events from outside stand here too. -/
  agenda : List Instr
  /-- The core whose bundle is in hand. -/
  cur : Nat
  /-- Time base in ns (R3). -/
  time : Nat
  /-- Number of the step; free values are taken at it. -/
  fresh : Nat
  /-- Next operation number. -/
  nextId : Nat
  deriving DecidableEq, Repr

/-- An empty bank of cause registers (R262). -/
def Bank.reset : Bank :=
  { epc := 0, v := false, xcode := 0, pend := 0, deferred := false, code := 0, tval := 0, tbundle := 0 }

/-- Control registers of a context after reset (R141, R149, R150, R262). [DESIGN CHOICE, log 1: unsafe] -/
def Ctx.reset : Ctx :=
  { mode := 0, xflags := 0, xelem := none, lidx := 0, bank1 := Bank.reset, bank2 := Bank.reset, tvec := 0, hstk := 0,
    tack := false, hmode := false, suspp := false, osn := 0, src := 0, pc := 0, origin := 0, from_ := 0, since := 0, rcount := 0,
    rfail := [], handle := 0, window := 0, sumFail := none, sumFlags := 0, sumOffer := none, sumDone := 0,
    results := [], fabFail := none }

/-- A queue after reset: closed and empty (R304). -/
def Queue.reset : Queue :=
  { desc := 0, ptr := 0, count := 0, spilled := [], waiter := none, remote := false, kept := [], spoiled := false, news := false }

/-- Trace registers after reset (R277). [DESIGN CHOICE, log 1: unsafe] -/
def Trace.reset : Trace :=
  { ctl := 2, stat := 0, triga := 0, trigb := 0, mask := 0, idx := 0, ts := 0, cnt := 0, after := 0, entries := [] }

/-- An accumulator set without class (R217). -/
def AccSet.reset : AccSet :=
  { cls := none, c := [], rc := [], cc := [], corner := 0, replay := [], replayable := false, fmts := [], spilled := false,
    subst := false, ready := 0 }

/-- NEST after reset: COUNT 1 on every level, strides 0 (R221). -/
def Matrix.nestReset : List W64 :=
  [1, 0, 0, 0, 1, 0, 0, 0, 1, 0, 0, 0, 1, 0, 0, 0, 1, 0, 0, 0, 1, 0, 0, 0]

/-- The matrix array after reset (R210, R219 to R222). -/
def Matrix.reset : Matrix :=
  { drainctl := 0x3F80000002000000, tolt := 0x0000088888884444, shadow := Matrix.nestReset,
    active := Matrix.nestReset, rows := [], latches := [none, none, none, none],
    sets := [AccSet.reset, AccSet.reset, AccSet.reset, AccSet.reset],
    viewLatch := [none, none, none, none], viewClass := [none, none, none, none], queue := [], lastEnd := 0, fin := false, pass := 0,
    inner := 0, stage := 0, job := none, seen := [], writes := [], awaited := none, corr := 0, rply := 0, lasterr := 0, spx := false, npass := 0, results := [], late := false }

/-- The loop buffer empty (R171). -/
def Loop.reset : Loop :=
  { active := false, sel := false, count := 0, body := [], pos := 0, next := 0 }

/-- No bundle in hand. -/
def Issue.reset : Issue :=
  { start := 0, last := 0, word := 0, raw := 0, slot := 0, ext := none, srUsed := 0, npc := 0, taken := false, origin := 0, lat := 1,
    drain := false, mark := .done }

/-- A core after reset (R117, R122 to R126, R262, R270, R277, R304). [DESIGN CHOICE, log 1: unsafe] -/
def Core.reset : Core :=
  { s := List.replicate 32 0, h := List.replicate 16 0, p := List.replicate 8 false, x := List.replicate 32 0,
    y := List.replicate 32 0, k := List.replicate 8 0, lc := [0, 0], ms := List.replicate 16 0,
    mh := List.replicate 16 0, mp := List.replicate 8 false, main := Ctx.reset, hand := Ctx.reset, inHandler := false,
    cycle := 0, issueAt := 0, frozen := 0, frzbank := 0, frzfull := 0, full := false, wdPeriod := 100000, wdSave := 1000, wdStart := 0,
    wdHeld := false, bfmt := List.replicate 16 0, queues := List.replicate 8 Queue.reset, starts := [],
    trace := Trace.reset, mat := Matrix.reset, scratch := [], badLines := [], landings := [], requests := [],
    held := none, loop := Loop.reset, iss := Issue.reset, act := .idle, strand := none, slot := [], plan := [],
    posts := [[], [], [], []], postWait := [0, 0, 0], idleUntil := 0, table := [], tableSet := none, savedSet := none,
    codeEntry := none, walkMiss := [], sends := [], sendHold := [], freeSeen := [], xfers := [], fabOps := [], oldLines := [], fence := none, badRegs := [], saveMark := 0, newer := [],
    unmerged := 0, unmergedOffer := none, merged := false, preempt := false, saveStart := none, codeLaunch := none, pinSince := 0,
    pinReported := false }

/-- A cluster after reset: scratchpad and tag table empty, a full token bucket (R295, R300, R327). -/
def Cluster.reset : Cluster :=
  { scratch := [], badLines := [], tags := [], badSlots := [], xfers := [], tokens := 1048576, counts := [], saved := none,
    newer := [] }

/-- A kind-0 object with all bytes zero (R342). -/
def SyncObj.reset : SyncObj :=
  { barrier := false, cells := [0, 0, 0, 0, 0, 0, 0, 0], state := 0, fcause := 0, gen := 0, bound := false, group := 0,
    counted := false, memb := 0, arr := 0, pend := 0, waiters := [] }

/-- An empty transom record (R356). -/
def Transom.reset : Transom := { entries := [], seq := 1, frozen := false, refused := 0 }

/-- A die after reset: no records, no objects (R29, R341, R356). [DESIGN CHOICE, log 1: unsafe; PRESUMED, log 9: unsafe] -/
def Die.reset : Die :=
  { buckets := List.replicate 20 [[], [], [], []], waits := List.replicate 20 [0, 0, 0], next := [], objects := [],
    cache := [], transom := Transom.reset, undo := [], stopped := false, stretched := false, temps := [0, 0, 0, 0], repairs := [],
    bootsum := 0, corrected := 0 }

/-- A lintel node after reset: every directory entry closed with INC 0 (R363). [DESIGN CHOICE, log 10: unsafe] -/
def Node.reset : Node := { dir := [], offers := [], undo := [], stopped := false }

/-- HID from the pod configuration (R387). -/
def Hub.hidReset : W64 :=
  let x := Config.atX.val % (Config.podX.val + 1)
  let y := Config.atY.val % (Config.podY.val + 1)
  let z := Config.atZ.val % (Config.podZ.val + 1)
  BitVec.ofNat 64 (x + (Config.podX.val + 1) * (y + (Config.podY.val + 1) * z) + 65536 * x + 16777216 * y +
    4294967296 * z)

/-- The hub after reset (R387, R388); slot 0 holds the first key drawn (R409).
[DESIGN CHOICE, log 1: unsafe; DESIGN CHOICE, log 10: unsafe] -/
def Hub.reset : Hub :=
  { hid := Hub.hidReset, lqbase := 0, lqsize := 4, lqtail := 0, lqhead := 0, pgt := 0, pgtNow := 0, pstat := 0, trsel := 0,
    tridx := 0, lseq := 0, badcmd := false, qstop := false, pstate := 4, run := false, jseq := 0, job := false,
    launches := 0, launch := none, lastSet := none, coll := none, joins := [], collQueue := [], hold := false, groups := [],
    tags := [], dir := [], versions := [], dirUndo := 0, moves := [], status := [], keys := [(0, 1)],
    keyCount := 1, snap := none, transom := Transom.reset, acks := [], toResume := [], preStart := 0,
    cancelling := false, waiting := [] }

/-- The fabric after reset (R421 to R425). -/
def Fabric.reset : Fabric :=
  { ex := Config.podX.val + 1, ey := Config.podY.val + 1, ez := Config.podZ.val + 1, ports := [], dead := [],
    entries := [], remotes := [], sent := [], seqs := [], expect := [], early := [], parts := [], answers := [], notice := false
    told := false, lost := [] }

/-- A core rail after reset: the lowest voltage (R417, R419). [DESIGN CHOICE, log 103: unsafe] -/
def Rail.reset : Rail := { target := 152, volts := 0, amps := 0, wrote := none, rise := false }

/-- The platform after reset (R405, R418). [PRESUMED, log 9: unsafe] -/
def Platform.reset : Platform :=
  { hwkey := 0, subcnt := 0, memue := 0, memueStack := 0, memce := 0, tjthr := 95, tjmax := 0, target := 850,
    tien := false, throttling := false, stepped := none, eyes := [], rails := [], silent := [], soft := [], poison := [], hard := [],
    blockKey := [], classes := [], measures := [0, 0, 0, 0], booted := false, bootFailed := false, report := none, msix := [], hostRead := [] }

/-- The package right after reset. [DESIGN CHOICE, log 5: unsafe] -/
def State.reset : State :=
  { cores := [], clusters := [], dies := [], nodes := [], hub := Hub.reset, hbm := [], fabric := Fabric.reset,
    platform := Platform.reset, ops := [], agenda := [], cur := 0, time := 0, fresh := 0, nextId := 1 }

end Sys2Proof.Machine
end

