-- ==== Sys2Proof/Machine/Units.lean ====
section
/-! DEFINITION. Reading and replacing the units of a package: one accessor and one update for each kind of unit, and the
agenda of events. Every other definition reaches the units through these. -/

namespace Sys2Proof.Machine

/-- Core `n`. -/
def State.core (s : State) (n : Nat) : Core := (Sparse.get? s.cores n).getD Core.reset

/-- The state with core `n` replaced. -/
def State.setCore (s : State) (n : Nat) (c : Core) : State := { s with cores := Sparse.set s.cores n c }

/-- The state with core `n` changed by a function. -/
def State.onCore (s : State) (n : Nat) (f : Core → Core) : State := s.setCore n (f (s.core n))

/-- Cluster `n`. -/
def State.cluster (s : State) (n : Nat) : Cluster := (Sparse.get? s.clusters n).getD Cluster.reset

/-- The state with cluster `n` replaced. -/
def State.setCluster (s : State) (n : Nat) (c : Cluster) : State := { s with clusters := Sparse.set s.clusters n c }

/-- The state with cluster `n` changed by a function. -/
def State.onCluster (s : State) (n : Nat) (f : Cluster → Cluster) : State := s.setCluster n (f (s.cluster n))

/-- Die `n`. -/
def State.die (s : State) (n : Nat) : Die := (Sparse.get? s.dies n).getD Die.reset

/-- The state with die `n` replaced. -/
def State.setDie (s : State) (n : Nat) (d : Die) : State := { s with dies := Sparse.set s.dies n d }

/-- The state with die `n` changed by a function. -/
def State.onDie (s : State) (n : Nat) (f : Die → Die) : State := s.setDie n (f (s.die n))

/-- The array with its queue discarded and nothing under way (R233). -/
def Matrix.emptied (m : Matrix) : Matrix :=
  { m with queue := [], fin := false, stage := 0, job := none, seen := [], writes := [], late := false }

/-- Lintel node `n`. -/
def State.node (s : State) (n : Nat) : Node := (Sparse.get? s.nodes n).getD Node.reset

/-- The state with node `n` replaced. -/
def State.setNode (s : State) (n : Nat) (x : Node) : State := { s with nodes := Sparse.set s.nodes n x }

/-- The state with the hub changed by a function. -/
def State.onHub (s : State) (f : Hub → Hub) : State := { s with hub := f s.hub }

/-- The state with the platform changed by a function. -/
def State.onPlatform (s : State) (f : Platform → Platform) : State := { s with platform := f s.platform }

/-- The state with the fabric changed by a function. -/
def State.onFabric (s : State) (f : Fabric → Fabric) : State := { s with fabric := f s.fabric }

/-- The cluster of a core (R6). -/
def clusterOf (core : Nat) : Nat := core / 4

/-- The die of a core (R6). -/
def dieOfCore (core : Nat) : Nat := core / 80

/-- The cores whose stores may be seen late in a scratchpad: the core itself, or the four cores of the cluster. -/
def sharers (core : Nat) (cluster : Bool) : List Nat :=
  if cluster then (List.range 4).map (4 * clusterOf core + ·) else [core]

/-- The stores of a context have been granted: no agent reads a line without them (R25, R170). [DEDUCED, log 23: unsafe] -/
def State.granted (s : State) (core : Nat) (handler : Bool) : State :=
  (sharers core true).foldl (fun s k => s.onCore k fun c =>
    { c with oldLines := c.oldLines.filter fun o => !o.lacks.contains (core, handler) }) s

/-- The state with an event behind the others of the agenda. -/
def State.push (s : State) (i : Instr) : State := { s with agenda := s.agenda ++ [i] }

/-- The launch in progress changed by a function. -/
def State.onLaunch (s : State) (f : Launch → Launch) : State :=
  { s with hub := { s.hub with launch := s.hub.launch.map f } }

/-- An operation under way, by its number. -/
def State.findOp (s : State) (id : Nat) : Option Pending := s.ops.find? (fun p => p.id == id)

/-- The state without an operation. -/
def State.dropOp (s : State) (id : Nat) : State := { s with ops := s.ops.filter (fun p => p.id != id) }

/-- The binding that a meet's destination stands for, if it is in global memory. -/
def MeetDest.bound? : MeetDest → Option Bound
  | .memory b => some b
  | .queue _ _ _ => none

/-- The state with an operation under way, under the next operation number. -/
def State.addOp (s : State) (by_ : Issuer) (op : Op) : State :=
  { s with ops := s.ops ++ [{ id := s.nextId, by_ := by_, op := op }], nextId := s.nextId + 1 }

/-- Raise an MSI-X vector. -/
def State.interrupt (s : State) (vector : Nat) : State :=
  s.onPlatform fun p => { p with msix := vector :: p.msix }

/-- An engine has stopped for a pre-emption and has not restarted (R400). -/
def State.stopped (s : State) (engine : Nat) : Bool := s.hub.pstate != 0 && s.hub.pstate != 4 && s.hub.acks.contains engine

/-- Number of a copy engine among the engines of a pre-emption: cores come first, then copy engines, lintel nodes,
synchronisation engines, the LXU and the fabric router (R400). -/
def copyEngine (cluster e : Nat) : Nat := 640 + 8 * cluster + e

/-- A choice of one element of a list; only one candidate is no choice. [DESIGN CHOICE, log 3: safe] -/
def choose {α : Type} (fresh code : Nat) (l : List α) : Option α :=
  match l with
  | [] => none
  | [a] => some a
  | l => l[Config.choice fresh code % l.length]?

/-- Accesses in flight against a version of a range in a cluster (R245). -/
def Cluster.count (c : Cluster) (k : Nat × Nat) : Nat :=
  match c.counts.find? (fun e => e.1 == k) with | some e => e.2 | none => 0

/-- The counts with one entry set; an entry that reaches zero is free. -/
def Cluster.setCount (c : Cluster) (k : Nat × Nat) (n : Nat) : Cluster :=
  let rest := c.counts.filter fun e => e.1 != k
  { c with counts := if n = 0 then rest else rest ++ [(k, n)] }

/-- The count of an access is released in the cluster of the core that issued it (R245). -/
def State.release (s : State) (core : Nat) (b : Bound) : State :=
  s.onCluster (clusterOf core) fun c => c.setCount (b.rid, b.version) (c.count (b.rid, b.version) - 1)

/-- The counts of several bindings are released. -/
def State.releaseAll (s : State) (core : Nat) (bs : List (Option Bound)) : State :=
  bs.foldl (fun s b => match b with | some b => s.release core b | none => s) s

end Sys2Proof.Machine
end

