-- ==== Sys2Proof/Machine/Hbm.lean ====
section
/-! DEFINITION. HBM as its controllers show it: inline encryption by key slot (R408, R409), poison and partial writes
(R406), the race of the scrub write-back with demand writes (R407), redirection by a running move (R251), and
frequent-pattern compression (R412). Memory holds the logical bytes in clear beside the number of the key under which each block
was last written. -/

namespace Sys2Proof.Machine

/-- Number of the key in a slot; zero for a slot that is not loaded. -/
def State.keyNo (s : State) (slot : Nat) : Nat := (Sparse.get? s.hub.keys slot).getD 0

/-- Stack of a physical address (R242). -/
def stackOf (pa : Nat) : Nat := pa / 2 ^ 36 % 16

/-- Physical address of the HBM region, inside its stack (R242). -/
def hbmAddress (pa : Nat) : Bool := pa < 2 ^ 40 && pa % 2 ^ 36 < 48 * 2 ^ 30

/-! Frequent-pattern compression (R412). -/

/-- The words of a block (R10, R412). -/
def blockWords (bytes : List Byte) : List Nat := (chunksOf 4 bytes).map bytesToNat

/-- Leading zero words of a block, at most eight. -/
def zeroRun : Nat → List Nat → Nat
  | 0, _ => 0
  | _, [] => 0
  | n + 1, w :: ws => if w = 0 then 1 + zeroRun n ws else 0

/-- Prefix and payload of a non-zero word: fewest bits, then the lower prefix (R412). -/
def fpcWord (w : Nat) : Nat × Nat × Nat :=
  let sx := signed 32 w
  let lo := signed 16 (w % 65536)
  let hi := signed 16 (w / 65536)
  if -8 ≤ sx ∧ sx < 8 then (1, 4, w % 16)
  else if -128 ≤ sx ∧ sx < 128 then (2, 8, w % 256)
  else if w % 256 = w / 256 % 256 ∧ w % 65536 = w / 65536 then (6, 8, w % 256)
  else if -32768 ≤ sx ∧ sx < 32768 then (3, 16, w % 65536)
  else if w % 65536 = 0 then (4, 16, w / 65536)
  else if -128 ≤ lo ∧ lo < 128 ∧ -128 ≤ hi ∧ hi < 128 then (5, 16, w % 256 + 256 * (w / 65536 % 256))
  else (7, 32, w)

/-- The bit stream of a block: its length and its value, from bit `pos` on (R412). -/
def fpcStream : Nat → List Nat → Nat → Nat → Nat × Nat
  | 0, _, pos, acc => (pos, acc)
  | _, [], pos, acc => (pos, acc)
  | fuel + 1, w :: ws, pos, acc =>
    if w = 0 then
      let n := zeroRun 8 (w :: ws)
      fpcStream fuel ((w :: ws).drop n) (pos + 6) (acc + (n - 1) * 8 * 2 ^ pos)
    else
      let (p, k, v) := fpcWord w
      fpcStream fuel ws (pos + 3 + k) (acc + (p + 8 * v) * 2 ^ pos)

/-- Size class of a block and the bytes it is stored as (R412). -/
def compress (bytes : List Byte) : Nat × List Byte :=
  let (n, v) := fpcStream 17 (blockWords bytes) 0 0
  if n ≤ 128 then (0, natToBytes 16 v)
  else if n ≤ 256 then (1, natToBytes 32 v)
  else if n ≤ 384 then (2, natToBytes 48 v)
  else (3, bytes)

/-- The word that a prefix other than 000 and its payload stand for, with the payload's length (R412). -/
def fpcField (prefix_ v : Nat) : Nat × Nat :=
  match prefix_ with
  | 1 => (4, wrap 32 (signed 4 (v % 2 ^ 4)))
  | 2 => (8, wrap 32 (signed 8 (v % 2 ^ 8)))
  | 3 => (16, wrap 32 (signed 16 (v % 2 ^ 16)))
  | 4 => (16, v % 2 ^ 16 * 65536)
  | 5 => (16, wrap 16 (signed 8 (v % 2 ^ 8)) + 65536 * wrap 16 (signed 8 (v / 2 ^ 8 % 2 ^ 8)))
  | 6 => (8, v % 2 ^ 8 * 0x1010101)
  | _ => (32, v % 2 ^ 32)

/-- The `need` words that a stream decodes to from bit `pos` on; none where it does not decode to exactly these within its
`limit` bits (R412). `fuel` bounds the fields. -/
def fpcDecode (stream limit : Nat) : Nat → Nat → Nat → Option (List Nat)
  | 0, need, _ => if need = 0 then some [] else none
  | fuel + 1, need, pos =>
    if need = 0 then some []
    else
      let p := bits stream pos 3
      if p = 0 then
        let n := bits stream (pos + 3) 3 + 1
        if need < n ∨ limit < pos + 6 then none
        else (fpcDecode stream limit fuel (need - n) (pos + 6)).map (List.replicate n 0 ++ ·)
      else
        let f := fpcField p (stream / 2 ^ (pos + 3))
        if limit < pos + 3 + f.1 then none
        else (fpcDecode stream limit fuel (need - 1) (pos + 3 + f.1)).map (f.2 :: ·)

/-- The block that its stored bytes decompress to (R412). -/
def decompress (stored : List Byte) : Option (List Byte) :=
  (fpcDecode (bytesToNat stored) (8 * stored.length) 17 16 0).map fun ws => ws.flatMap (natToBytes 4)

/-! Reading. -/

/-- What a block that was stored compressed under one key decompresses to under another one (R408, R409, R412).
[DESIGN CHOICE, log 109: safe] -/
def State.decoded (s : State) (key b : Nat) : Option (Option (List Byte)) :=
  match Sparse.get? s.platform.classes b, Sparse.get? s.platform.blockKey b with
  | some c, some k =>
    if k = key then none
    else
      let stored := bytesToNat (compress (Memory.read s.hbm (64 * b) 64)).2
      some (decompress ((List.range (16 * (c + 1))).map fun i => Config.otherKey (64 * b + i) k key stored))
  | _, _ => none

/-- A byte of HBM read under a key (R408, R409). [DESIGN CHOICE, log 2: unsafe] -/
def State.hbmByte (s : State) (key pa : Nat) : Byte :=
  match Sparse.get? s.platform.blockKey (pa / 64) with
  | some k =>
    if k = key then Memory.get s.hbm pa
    else match s.decoded key (pa / 64) with
      | some (some bytes) => bytes.getD (pa % 64) 0
      | _ => Config.otherKey pa k key (bytesToNat (Memory.read s.hbm (pa - pa % 64) 64))
  | none => Config.otherKey pa 0 key 0

/-- `n` bytes of HBM read under a key. -/
def State.hbmBytes (s : State) (key : Nat) : Nat → Nat → List Byte
  | _, 0 => []
  | pa, n + 1 => s.hbmByte key pa :: State.hbmBytes s key (pa + 1) n

/-- A block meets an interval. -/
def blockMeets (pa n b : Nat) : Bool := decide (pa / 64 ≤ b) && decide (b * 64 < pa + n)

/-- A block of the interval is poisoned or found to be so (R406). -/
def State.poisoned (s : State) (pa n : Nat) : Bool :=
  s.platform.poison.any (blockMeets pa n) || s.platform.hard.any (blockMeets pa n)

/-- Blocks of an interval that are uncorrectable under a key: compressed ones whose streams do not decode under it (R412), and
all of them under key number zero, which stands for a slot that its parity has cleared (R420). -/
def State.garbled (s : State) (key pa n : Nat) : List Nat :=
  if key = 0 then (List.range ((pa % 64 + n + 63) / 64)).map (pa / 64 + ·)
  else ((s.platform.classes.map (·.1)).filter (blockMeets pa n)).filter fun b => s.decoded key b == some none

/-- A read of the interval under a key finds an uncorrectable block (R406, R412). -/
def State.unreadable (s : State) (key pa n : Nat) : Bool := s.poisoned pa n || !(s.garbled key pa n).isEmpty

/-- One more uncorrectable error (R405, R406). -/
def Platform.countUncorrected (p : Platform) (n stack : Nat) : Platform :=
  if n = 0 then p else { p with memue := min (p.memue + n) (2 ^ 60 - 1), memueStack := stack }

/-- More corrected errors (R405, R406). -/
def Platform.countCorrected (p : Platform) (n : Nat) : Platform :=
  { p with memce := BitVec.ofNat 64 (min (p.memce.toNat + n) (2 ^ 64 - 1)) }

/-- A read counts the correctable errors that it meets, and the uncorrectable ones that no read has met before, whose
blocks are poisoned from then on (R406). -/
def State.noteRead (s : State) (pa n : Nat) : State :=
  let soft := s.platform.soft.filter (blockMeets pa n)
  let hard := s.platform.hard.filter (blockMeets pa n)
  if soft.isEmpty && hard.isEmpty then s
  else s.onPlatform fun p =>
    { (p.countUncorrected hard.length (stackOf pa)).countCorrected soft.length with
      poison := p.poison ++ hard, hard := p.hard.filter fun b => !blockMeets pa n b }

/-- A read under a key, as the controller counts it: streams that do not decode are uncorrectable (R406, R412). -/
def State.noteAccess (s : State) (key pa n : Nat) : State :=
  match s.garbled key pa n with
  | [] => s.noteRead pa n
  | bs => (s.onPlatform fun p =>
      { p with hard := p.hard ++ bs.filter fun b => !p.hard.contains b && !p.poison.contains b }).noteRead pa n

/-- A read consumes a substituted block (R405, R410). -/
def Platform.substituted (p : Platform) : Platform :=
  { p with subcnt := BitVec.ofNat 64 (min (p.subcnt.toNat + 1) (2 ^ 64 - 1)) }

/-- A demand write to a block takes its armed write-back away (R407). -/
def Platform.disarm (p : Platform) (block : Nat) : Platform :=
  { p with eyes := p.eyes.map fun e =>
      if e.2.armed.any (fun a => a.1 == block) then (e.1, { e.2 with armed := e.2.armed.filter (·.1 != block) }) else e }

/-- A compressed range holds the logical bytes at a physical address, or is being moved there (R251, R404, R412).
[DESIGN CHOICE, log 109: safe] -/
def Hub.compressedAt (h : Hub) (pa : Nat) : Bool :=
  let ds := (h.dir.flatMap (·.2)).filter fun d => d.perm.getLsbD 8
  ds.any fun d => (decide (d.poff ≤ pa) && decide (pa < d.poff + (d.vlimit - d.vbase))) ||
    h.moves.any fun m => m.rid == d.rid && decide (m.base ≤ pa) && decide (pa < m.base + (d.rlimit - d.rbase))

/-- The size classes with that of a block after a write: a block of a compressed range has that of its bytes, any other one
is stored raw (R412). -/
def State.classify (s : State) (b : Nat) (bytes : List Byte) : List (Nat × Nat) :=
  let c := if s.hub.compressedAt (64 * b) then (compress bytes).1 else 3
  if c = 3 then Sparse.erase s.platform.classes b else Sparse.set s.platform.classes b c

/-- Bytes stored into one block under a key; none where the block is poisoned and the write is partial (R406). Under a slot that
its parity has cleared the block is uncorrectable from then on (R420). A partial write corrects what it merges with. Memory
holds the logical bytes of a compressed block, and the sideband its size class (R412).
[DEDUCED, log 101: unsafe; DESIGN CHOICE, log 109: safe] -/
def State.hbmWriteBlock (s : State) (key pa : Nat) (bytes : List Byte) : Option State :=
  let b := pa / 64
  let whole := bytes.length == 64
  if s.unreadable key pa 1 && !whole then none
  else if key = 0 then
    some (s.onPlatform fun p => { p.disarm b with hard := b :: p.hard.filter (· != b) })
  else
    let old := Sparse.get? s.platform.blockKey b
    let mem := if whole || old == some key then s.hbm else Memory.write s.hbm (b * 64) (s.hbmBytes key (b * 64) 64)
    let now := Memory.write mem pa bytes
    let p := (s.platform.disarm b).countCorrected (if !whole && s.platform.soft.contains b then 1 else 0)
    some { s with
      hbm := now
      platform := { p with
        blockKey := Sparse.set p.blockKey b key
        classes := s.classify b (Memory.read now (b * 64) 64)
        poison := p.poison.filter (· != b)
        hard := p.hard.filter (· != b)
        soft := p.soft.filter (· != b) } }

/-- A refused partial write is counted in MEMUE with its stack (R405, R406); as a demand write it takes an armed write-back
away (R407). -/
def State.countRefused (s : State) (key pa : Nat) : State :=
  (s.noteAccess key pa 1).onPlatform fun p => (p.disarm (pa / 64)).countUncorrected 1 (stackOf pa)

/-- Bytes stored block by block under a key; the flag says that a block refused its part. `fuel` bounds the blocks. -/
def State.hbmWriteLoop (s : State) (key : Nat) : Nat → Nat → List Byte → Bool → State × Bool
  | 0, _, _, bad => (s, bad)
  | _, _, [], bad => (s, bad)
  | fuel + 1, pa, bytes, bad =>
    let n := 64 - pa % 64
    match s.hbmWriteBlock key pa (bytes.take n) with
    | some t => State.hbmWriteLoop t key fuel (pa + n) (bytes.drop n) bad
    | none => State.hbmWriteLoop (s.countRefused key pa) key fuel (pa + n) (bytes.drop n) true

/-- Bytes stored into HBM under a key, and whether a poisoned block refused a part. -/
def State.hbmWrite (s : State) (key pa : Nat) (bytes : List Byte) : State × Bool :=
  s.hbmWriteLoop key (bytes.length / 64 + 2) pa bytes false

/-- A doubleword of a device structure, under slot 0 (R408). No rule says what the device makes of one in a poisoned block,
and its value is free. [DESIGN CHOICE, log 128: unsafe] -/
def State.hbmDw (s : State) (pa : Nat) : W64 :=
  if s.unreadable (s.keyNo 0) pa 8 then (Config.freeWord s.fresh 9850 pa).setWidth 64
  else BitVec.ofNat 64 (bytesToNat (s.hbmBytes (s.keyNo 0) pa 8))

/-- What stands somewhere in an area of the device's own can not be read: the area has a block that can not, and no rule says
whether it is one of those where this stands. [DESIGN CHOICE, log 128: unsafe] -/
def State.areaLost (s : State) (pa n : Nat) : Bool :=
  s.keyNo 0 == 0 || (s.poisoned pa n && Config.choice s.fresh (9852 + pa) % 2 == 1)

/-- The read that finds this is counted (R406). -/
def State.noteLost (s : State) (pa n : Nat) : State :=
  match choose s.fresh (9853 + pa) ((s.platform.poison ++ s.platform.hard).filter (blockMeets pa n)) with
  | some b => s.noteRead (64 * b) 64
  | none => s

/-- `n` doublewords of a device structure. -/
def State.hbmDws (s : State) (pa n : Nat) : List W64 := (List.range n).map fun i => s.hbmDw (pa + 8 * i)

/-- Where an access to a physical byte lands while a range moves (R251): the controllers redirect every old byte below the
watermark to the new backing, whoever reaches it. The block being copied is copied in one step, so no access meets it
halfway. [DEDUCED, log 43: safe] -/
def State.redirectPa (s : State) (pa : Nat) : Nat :=
  match s.hub.moves with
  | m :: _ =>
    match m.mark with
    | some w => if m.source ≤ pa ∧ pa < m.source + w then m.base + (pa - m.source) else pa
    | none => pa
  | [] => pa

/-- Where an access of a binding lands (R251). -/
def State.redirect (s : State) (b : Bound) (offset : Nat) : Nat := s.redirectPa (b.pa + offset)

/-- A byte read through a binding. -/
def State.boundByte (s : State) (b : Bound) (offset : Nat) : Byte := s.hbmByte (s.keyNo b.key) (s.redirect b offset)

/-- Bytes stored through a binding, all on one side of the watermark where it matters: byte runs are cut at 4 KiB. -/
def State.boundWrite (s : State) (b : Bound) : Nat → Nat → List Byte → Bool → State × Bool
  | 0, _, _, bad => (s, bad)
  | _, _, [], bad => (s, bad)
  | fuel + 1, offset, bytes, bad =>
    let n := 64 - (b.pa + offset) % 64
    let r := s.hbmWrite (s.keyNo b.key) (s.redirect b offset) (bytes.take n)
    State.boundWrite r.1 b fuel (offset + n) (bytes.drop n) (bad || r.2)

end Sys2Proof.Machine
end

