-- ==== Sys2Proof/Machine/Supervise.lean ====
section
/-! DEFINITION. The transom records (R356, R357, R402), the completion of launch-queue entries and the end of a faulted
launch (R395), machine checks of dies and of the hub (R360), halts and lost strands as the die supervisor passes them on
(R265, R275, R355). -/

namespace Sys2Proof.Machine

/-- An entry of a transom record (R356). -/
def transomEntry (kind src : Nat) (seq : W32) (time : Nat) (data : Nat) : BitVec 512 :=
  BitVec.ofNat 512 (time % 2 ^ 64 + 2 ^ 64 * seq.toNat + 2 ^ 110 * (src % 1024) + 2 ^ 120 * (kind % 256) + 2 ^ 128 * data)

/-- A record with one more event: refused while frozen, the oldest one lost beyond 4,096 (R356, R357). -/
def Transom.add (t : Transom) (kind src time data : Nat) : Transom :=
  if t.frozen then { t with refused := if t.refused.toNat = 2 ^ 32 - 1 then t.refused else t.refused + 1 }
  else
    let es := t.entries ++ [transomEntry kind src t.seq time data]
    { t with entries := if 4096 < es.length then es.drop 1 else es, seq := t.seq + 1 }

/-- An event in the hub's record (R402). -/
def State.hubEvent (s : State) (kind data : Nat) : State :=
  s.onHub fun h => { h with transom := h.transom.add kind 0x3FE s.time data }

/-- The poisoned blocks of an interval that refused their part of a write, by writer class (R402, R406). -/
def State.noteRefused (s : State) (pa n cls : Nat) : State :=
  (s.platform.poison.filter (blockMeets pa n)).foldl (fun s b => s.hubEvent 0x1C (64 * b + 2 ^ 64 * cls)) s

/-- Bytes stored into one of the device's own structures, under slot 0 (R408). A part that a poisoned block refuses is recorded
(R406); R402 has no writer class for the device itself, and the class is free. [DESIGN CHOICE, log 128: unsafe] -/
def State.putDevice (s : State) (pa : Nat) (bytes : List Byte) : State :=
  let r := s.hbmWrite (s.keyNo 0) pa bytes
  if r.2 then r.1.noteRefused pa bytes.length (Config.freeWord s.fresh 9851 pa).toNat else r.1

/-- A doubleword stored into a device structure. -/
def State.hbmPutDw (s : State) (pa : Nat) (v : W64) : State := s.putDevice pa (natToBytes 8 v.toNat)

/-- An event in a die's record. -/
def State.dieEvent (s : State) (die kind src data : Nat) : State :=
  s.onDie die fun d => { d with transom := d.transom.add kind src s.time data }

/-- Freeze a die's record (R357); the frozen record raises MSI-X vector 2 (R395). -/
def State.freezeDie (s : State) (die : Nat) : State :=
  (s.onDie die fun d => { d with transom := { d.transom with frozen := true } }).interrupt 2

/-- An event that a die passes on to the hub (R355, R402). -/
def State.forward (s : State) (die kind : Nat) : State :=
  s.hubEvent 0x18 (die + 2 ^ 64 * kind + 2 ^ 128 * ((s.die die).transom.seq.toNat - 1))

/-- The completion word (R395). -/
def completionWord (fault detail phases : Nat) : W64 :=
  BitVec.ofNat 64 (2 ^ 63 + 2 ^ 48 * fault + 2 ^ 40 * (min detail 255) + min phases (2 ^ 32 - 1))

/-- Physical address of launch queue entry `i` (R389). -/
def State.entryAddress (s : State) (i : Nat) : Nat := s.hub.lqbase.toNat + 256 * i

/-- A launch-queue entry ends: fault detail first, completion word last, then the vectors (R395). -/
def State.endEntry (s : State) (index : Nat) (irq : Bool) (fault detail low : Nat) (fdet : List W64) : State :=
  let a := s.entryAddress index
  let cw := completionWord fault detail low
  let s := if fault = 0 then s
    else (fdet.zipIdx.foldl (fun s d => s.hbmPutDw (a + 8 * (27 + d.2)) d.1) s)
  let s := s.hbmPutDw (a + 248) cw
  let s := s.hubEvent 0x11 cw.toNat
  let s := if irq then s.interrupt 0 else s
  let s := if fault = 0 then s else s.interrupt 1
  s.onHub fun h => { h with run := false, qstop := h.qstop || fault != 0, pstate := if h.pstate = 0 then 4 else h.pstate }

/-- The strand of a core is taken away; a halted core stays halted and keeps its cause banks (R265), and a message handler that
runs goes on with its results (R120). -/
def Core.discard (c : Core) : Core :=
  { c with
    act := if c.act = .halted then .halted else .idle
    strand := none, slot := [], plan := [], posts := [[], [], [], []], postWait := [0, 0, 0], loop := Loop.reset
    requests := c.requests.filter fun r => c.inHandler && r.level == 2
    held := c.held.filter fun r => c.inHandler && r.level == 2
    landings := c.landings.filter fun l => c.inHandler && l.handler
    mat := { c.mat.emptied with results := [], awaited := none }
    main := if c.act = .halted then c.main
      else { c.main with
        hmode := false, tack := false, suspp := false
        bank1 := { c.main.bank1 with v := false }
        bank2 := { c.main.bank2 with v := false } }
    queues := c.queues.map fun q => { q with waiter := none } }

/-- The records of a die are discarded, and nobody waits on its objects. -/
def Die.discard (d : Die) : Die :=
  { d with
    buckets := List.replicate 20 [[], [], [], []], waits := List.replicate 20 [0, 0, 0], next := []
    objects := d.objects.map fun o => (o.1, { o.2 with waiters := [] }) }

/-- The access that a strand on its way to a barrier has bound and not yet sent (R245, R353). -/
def Core.unsent (c : Core) : List (Option Bound) :=
  match c.act with
  | .leaving (.barrier b _ _) => [some b]
  | .leaving (.pinB b _) => [some b]
  | .saved (some (false, .barrier b _ _)) => [some b]
  | .saved (some (false, .pinB b _)) => [some b]
  | _ => []

/-- Every record of the launch is discarded (R395). -/
def State.discardStrands (s : State) : State :=
  let s := s.cores.foldl (fun s c => s.releaseAll c.1 c.2.unsent) s
  { s with
    cores := s.cores.map fun c => (c.1, c.2.discard)
    dies := s.dies.map fun d => (d.1, d.2.discard) }

/-- The launch in progress ends with a fault (R395): its records and the open phase's shadows are discarded. -/
def State.failLaunch (s : State) (fault detail : Nat) (fdet : List W64) : State :=
  match s.hub.launch with
  | none => s
  | some l =>
    let s := s.discardStrands
    let s := if 2 ≤ fault ∧ fault ≤ 7 then
        s.hubEvent 0x13 (fdet.zipIdx.foldl (fun n d => n + 2 ^ (64 * (d.2 + 1)) * d.1.toNat) fault)
      else s
    let s := s.endEntry l.index l.irq fault detail l.committed fdet
    s.onHub fun h => { h with launch := none, snap := none, hold := false, collQueue := [] }

/-- What a die machine check leaves in the records: its entry, the freeze, and the report to the hub (R357, R360).
[DESIGN CHOICE, log 106: unsafe] -/
def State.noteDieCheck (s : State) (die structure_ address : Nat) : State :=
  ((s.dieEvent die 0x08 0x3FF (structure_ + 2 ^ 64 * address)).freezeDie die).forward die 0x08

/-- A die machine check (R360, R395): its records, then launch fault 0x09. -/
def State.dieCheck (s : State) (die structure_ address : Nat) : State :=
  (s.noteDieCheck die structure_ address).failLaunch 0x09 0
    [BitVec.ofNat 64 die, (s.die die).transom.seq.setWidth 64, 0, 0]

/-- What a hub machine check leaves: the death notice to the other packages (R425), its entry, the freeze and its vector (R360,
R401, R420). -/
def State.noteHubCheck (s : State) : State :=
  let s := (s.onFabric fun f => { f with notice := true }).hubEvent 0x18 8
  (s.onHub fun h => { h with transom := { h.transom with frozen := true } }).interrupt 2

/-- A hub machine check: its records, then launch fault 0x09. -/
def State.hubCheck (s : State) : State :=
  s.noteHubCheck.failLaunch 0x09 0 [8, s.hub.transom.seq.setWidth 64, 0, 0]

/-- Words 0 to 5 of a record as transom data (R15, R16, R356). -/
def Record.header (r : Record) : Nat :=
  2 ^ 28 * r.kind + 2 ^ 24 * r.state + 2 ^ 22 * r.prio + bitAt r.nxph 21 + bitAt r.wstat 20 + bitAt r.trpend 19 + r.pcore

/-- The sixteen words of a record (R15). -/
def Record.words (r : Record) : List Nat :=
  [r.header, r.rpc.toNat, r.lidx.toNat % 2 ^ 32, r.lidx.toNat / 2 ^ 32, r.rset.toNat, r.phase.toNat, r.mode.toNat,
    r.dslot.toNat] ++ r.args.map (·.toNat)

/-- Words as one number, the first one lowest. -/
def wordsToNat : List Nat → Nat
  | [] => 0
  | w :: ws => w + 2 ^ 32 * wordsToNat ws

/-- The strand of a core is lost: record frozen, die machine check, launch fault 0x0B (R21, R275, R395). -/
def State.loseStrand (s : State) (core : Nat) : State :=
  let die := dieOfCore core
  match (s.core core).strand with
  | none => s
  | some r =>
    let lost := { r with state := 7, pcore := 0 }
    let s := s.onCore core fun c => { c with strand := some lost }
    let s := s.dieEvent die 0x03 core (wordsToNat (lost.words.take 6))
    let s := (s.freezeDie die).forward die 0x03
    s.failLaunch 0x0B 0 [r.lidx, 0, 0, 0]

/-- A cause bank as CAUSE reads (R262). -/
def Bank.cause (b : Bank) : W64 :=
  BitVec.ofNat 64 (bitAt b.v 63 + 2 ^ 40 * b.xcode.toNat + 2 ^ 16 * b.pend.toNat + bitAt b.deferred 7 + b.code.toNat)

/-- CAUSE, TVAL, EPC and TBUNDLE of a bank as data of an event, the last two as 32-bit words. -/
def Bank.data (b : Bank) : Nat :=
  b.cause.toNat + 2 ^ 64 * b.tval.toNat + 2 ^ 128 * b.epc.toNat + 2 ^ 160 * b.tbundle.toNat

/-- Both cause banks as the data of a halt event (R356). -/
def bothBanks (x : Ctx) : Nat := x.bank1.data + 2 ^ 192 * x.bank2.data

/-- A core halts (R265): it issues nothing more, its requests are discarded, its strand is lost, the die's record
freezes and the launch fails with 0x09. [DEDUCED, log 14: unsafe] -/
def State.haltCore (s : State) (core : Nat) : State :=
  let die := dieOfCore core
  let c := s.core core
  let seq := (s.die die).transom.seq
  let s := s.setCore core { c with
    act := .halted, requests := [], held := none
    strand := c.strand.map fun r => { r with state := 7, pcore := 0 } }
  let s := (s.dieEvent die 0x02 core (bothBanks (if c.inHandler then c.hand else c.main))).forward die 0x02
  let s := s.dieEvent die 0x08 0x3FF (2 ^ 64 * core)
  let s := (s.freezeDie die).forward die 0x08
  s.failLaunch 0x09 0 [BitVec.ofNat 64 die, seq.setWidth 64, 0, 0]

end Sys2Proof.Machine
end

