-- ==== Sys2Proof/Machine/Digest.lean ====
section
/-! DEFINITION. Digests (R104 to R109): fold units, the running digest of a strand with its fold order, and the phase
digest. -/

namespace Sys2Proof.Machine

/-- A running digest: D.l and D.h. -/
abbrev Digest := W64 × W64

/-- seed of R106. -/
def digestSeed (launch : W64) (phase mode : W32) : Digest :=
  (mix64 (BitVec.ofNat 64 (2 ^ 32 * phase.toNat + mode.toNat)), mix64 (launch ^^^ 0x2D4897C10B3F6E55#64))

/-- step of R106. -/
def digestStep (d : Digest) (w0 w1 : W64) : Digest :=
  let x := (d.2 ^^^ w0) * 0xB3A94E176D2C58F1#64
  let y := (d.1 ^^^ w1) * 0xC97D2E651A3BF04D#64
  (y.rotateLeft 31 + x, x.rotateLeft 29 ^^^ y)

/-- MIX of R109, as a 128-bit number. -/
def digestMix (lidx : W64) (d : Digest) : Nat :=
  let m := mix64 lidx
  let hi := mix64 (d.2 ^^^ m)
  let lo := mix64 ((d.1 + m) ^^^ 0x3F84D5B5B5470917#64)
  2 ^ 64 * hi.toNat + lo.toNat

/-- One 8-byte unit of a global write (R94, R105): its virtual address, the bytes written, and the data in place. -/
structure FoldUnit where
  /-- Virtual address of the unit. -/
  va : Nat
  /-- Bytes written. -/
  mask : BitVec 8
  /-- Data, or delta. -/
  data : W64
  deriving DecidableEq, Repr

/-- The words of a fold unit (R105): `kind` 0 plain, 1 INT64, 2 FIX64. -/
def FoldUnit.words (u : FoldUnit) (kind : Nat) : W64 × W64 :=
  (BitVec.ofNat 64 (2 ^ 62 * kind + 2 ^ 45 * u.mask.toNat + u.va / 8 % 2 ^ 45), u.data)

/-- The units that a run of bytes touches, ascending (R105). `fuel` bounds their number. -/
def unitsOf : Nat → Nat → List Byte → List FoldUnit
  | 0, _, _ => []
  | _, _, [] => []
  | fuel + 1, va, bytes =>
    let o := va % 8
    let part := bytes.take (8 - o)
    { va := va - o, mask := BitVec.ofNat 8 ((2 ^ part.length - 1) * 2 ^ o),
      data := BitVec.ofNat 64 (bytesToNat part * 2 ^ (8 * o)) } :: unitsOf fuel (va + (8 - o)) (bytes.drop (8 - o))

/-- The units of a run of bytes. -/
def foldUnits (va : Nat) (bytes : List Byte) : List FoldUnit := unitsOf (bytes.length + 1) va bytes

/-- The status block with the resolved folds at the front of its fold order applied (R107). -/
def StatusBlock.applyFolds (b : StatusBlock) : List FoldSlot → StatusBlock
  | [] => { b with folds := [] }
  | f :: fs =>
    match f.units with
    | none => { b with folds := f :: fs }
    | some us =>
      let d := us.foldl (fun d u => digestStep d u.1 u.2) (b.dl, b.dh)
      StatusBlock.applyFolds { b with dl := d.1, dh := d.2, folded := b.folded || !us.isEmpty } fs

/-- A place in the strand's fold order for an operation whose bytes are not known yet (R92, R107). -/
def StatusBlock.place (b : StatusBlock) (id : Nat) : StatusBlock := { b with folds := b.folds ++ [{ id := id, units := none }] }

/-- Folds at the end of the fold order (R107). -/
def StatusBlock.fold (b : StatusBlock) (us : List (W64 × W64)) : StatusBlock :=
  b.applyFolds (b.folds ++ [{ id := 0, units := some us }])

/-- The bytes of the operation that holds a place are known (R107). -/
def StatusBlock.settle (b : StatusBlock) (id : Nat) (us : List (W64 × W64)) : StatusBlock :=
  b.applyFolds (b.folds.map fun f => if f.id = id then { f with units := some us } else f)

/-- A status block of the job. -/
def State.statusBlock (s : State) (n : Nat) : Option StatusBlock := Sparse.get? s.hub.status n

/-- The 64 bytes of a status block (R20). -/
def StatusBlock.bytes (b : StatusBlock) : List Byte :=
  natToBytes 8 b.dl.toNat ++ natToBytes 8 b.dh.toNat ++ natToBytes 8 b.src.toNat ++ natToBytes 8 b.osn.toNat ++
    natToBytes 6 b.home.toNat ++ natToBytes 2 0 ++ natToBytes 4 b.dphase.toNat ++ natToBytes 20 0

/-- A status block stands in the status area of the launch, under slot 0 (R20, R393, R408). -/
def State.putStatus (s : State) (n : Nat) (b : StatusBlock) : State :=
  let t := s.onHub fun h => { h with status := Sparse.set h.status n b }
  match s.hub.launch with
  | some l => t.putDevice (l.statusBase + 64 * n) b.bytes
  | none => t

/-- A status block changed; the area is written where its bytes change. -/
def State.onStatus (s : State) (n : Nat) (f : StatusBlock → StatusBlock) : State :=
  match s.statusBlock n with
  | none => s
  | some b =>
    if (f b).bytes = b.bytes then s.onHub fun h => { h with status := Sparse.set h.status n (f b) }
    else s.putStatus n (f b)

/-- A status block after the seeding of its digest for a phase (R106). -/
def StatusBlock.seed (b : StatusBlock) (launch : W64) (phase mode : W32) : StatusBlock :=
  let d := digestSeed launch phase mode
  { b with dl := d.1, dh := d.2, dphase := phase, seeded := true, folded := false, folds := [] }

/-- A new status block: counters zero (R80, R145). -/
def StatusBlock.fresh (home : BitVec 48) (die : Nat) : StatusBlock :=
  { dl := 0, dh := 0, src := 0, osn := 0, home := home, homeDie := die, dphase := 0, seeded := false, folded := false,
    folds := [] }

/-- The lowest number from `n` on that a table does not hold; `fuel` bounds the search. -/
def lowestFree {α : Type} (t : List (Nat × α)) : Nat → Nat → Option Nat
  | 0, _ => none
  | fuel + 1, n => if (Sparse.get? t n).isNone then some n else lowestFree t fuel (n + 1)

end Sys2Proof.Machine
end

