-- ==== Sys2Proof/Machine/Num.lean ====
section
/-! DEFINITION. Number formats and rounding (R132 to R149). A value is an exact dyadic number, an infinity or a NaN.
Arithmetic is exact; one rounding at the end narrows it. Quotients and square roots carry a sticky bit for the part that
is not representable. -/

namespace Sys2Proof.Machine

/-- An exact value: `(-1)^neg × m × 2^e`, an infinity, or a NaN. -/
inductive Num where
  /-- A NaN; `sig` for a signalling one (R134). -/
  | nan (sig : Bool)
  /-- An infinity. -/
  | inf (neg : Bool)
  /-- A finite value. -/
  | fin (neg : Bool) (m : Nat) (e : Int)
  deriving DecidableEq, Repr

/-- XFLAGS bits (R149). -/
def flagIV : BitVec 8 := 1
/-- Division by zero. -/
def flagDZ : BitVec 8 := 2
/-- Overflow. -/
def flagOF : BitVec 8 := 4
/-- Tiny and inexact. -/
def flagUF : BitVec 8 := 8
/-- Inexact. -/
def flagIX : BitVec 8 := 16
/-- Saturated. -/
def flagST : BitVec 8 := 32
/-- Corrected by checksums. -/
def flagCC : BitVec 8 := 64
/-- Substituted data consumed. -/
def flagSB : BitVec 8 := 128

/-- What an instruction samples of MODE for its roundings, and its stochastic bits for one element (R141, R144). -/
structure Rnd where
  /-- RM. -/
  rm : Nat
  /-- SAT. -/
  sat : Bool
  /-- FZI. -/
  fzi : Bool
  /-- FZO. -/
  fzo : Bool
  /-- FIXP. -/
  fixp : Nat
  /-- srbits of the element. -/
  sr : Nat
  deriving DecidableEq, Repr

/-- Round to nearest even, nothing flushed or saturated. -/
def Rnd.nearest : Rnd := { rm := 0, sat := false, fzi := false, fzo := false, fixp := 0, sr := 0 }

/-- The roundings of a MODE word (R141), with the stochastic bits of one element. -/
def Rnd.ofMode (mode : W64) (sr : Nat) : Rnd :=
  { rm := fieldOf mode 0 3, sat := flagOf mode 5, fzi := flagOf mode 3, fzo := flagOf mode 4, fixp := fieldOf mode 18 6,
    sr := sr }

/-- The same roundings with nearest even in place of stochastic rounding (R145). -/
def Rnd.noStochastic (r : Rnd) : Rnd := if r.rm = 4 then { r with rm := 0 } else r

/-- Element widths in bits by format code (R132). -/
def elemBits (fmt : Nat) : Nat :=
  match fmt with
  | 0 => 64 | 1 => 32 | 2 => 16 | 3 => 16 | 4 => 8 | 5 => 8 | 6 => 4 | 7 => 8 | 8 => 8 | 9 => 4 | 10 => 8
  | 11 => 8 | 12 => 16 | 13 => 32 | _ => 64

/-- The block-scaled formats (R136). -/
def isMx (fmt : Nat) : Bool := fmt == 7 || fmt == 8 || fmt == 9

/-- The element format inside a block-scaled one; any other format itself (R136). -/
def elemFmt (fmt : Nat) : Nat := match fmt with | 7 => 4 | 8 => 5 | 9 => 6 | f => f

/-- The integer formats and FIX64. -/
def isInt (fmt : Nat) : Bool := 11 ≤ fmt

/-- The binary floating formats. -/
def isFloat (fmt : Nat) : Bool := fmt ≤ 6

/-- FP64, FP32, BF16 and FP16, on which FZI and FZO act (R146). -/
def isWide (fmt : Nat) : Bool := fmt ≤ 3

/-- A narrow format in the sense of R143. -/
def isNarrow (fmt : Nat) : Bool := (2 ≤ fmt && fmt ≤ 6) || fmt == 10

/-- Fraction bits of a binary floating format (R133). -/
def fracBits (fmt : Nat) : Nat := match fmt with | 0 => 52 | 1 => 23 | 2 => 7 | 3 => 10 | 4 => 3 | 5 => 2 | _ => 1

/-- Exponent of the smallest subnormal of a binary floating format (R133). -/
def minExp (fmt : Nat) : Int := match fmt with | 0 => -1074 | 1 => -149 | 2 => -133 | 3 => -24 | 4 => -9 | 5 => -16 | _ => -1

/-- Code of the largest finite magnitude (R133). -/
def maxCode (fmt : Nat) : Nat :=
  match fmt with
  | 0 => 0x7FEFFFFFFFFFFFFF | 1 => 0x7F7FFFFF | 2 => 0x7F7F | 3 => 0x7BFF | 4 => 0x7E | 5 => 0x7B | 6 => 7 | _ => 31

/-- Canonical NaN of a format (R134); E2M1 has none. -/
def canonicalNan (fmt : Nat) : Nat :=
  match fmt with
  | 0 => 0x7FF8000000000000 | 1 => 0x7FC00000 | 2 => 0x7FC0 | 3 => 0x7E00 | 4 => 0x7F | 5 => 0x7E | 10 => 0x20
  | _ => 0

/-- Code of the sign bit of a format (R133, R138). -/
def signCode (fmt : Nat) : Nat :=
  match fmt with
  | 0 => 0x8000000000000000 | 1 => 0x80000000 | 2 => 0x8000 | 3 => 0x8000 | 4 => 0x80 | 5 => 0x80 | 6 => 8 | _ => 0x20

/-- Mantissas of LOG6 (R138). -/
def log6Mantissa (f : Nat) : Nat := match f with | 0 => 0x800 | 1 => 0x984 | 2 => 0xB50 | _ => 0xD74

/-- Magnitude of the LOG6 field `m`, in units of 2^-15 (R138), continued beyond 31 by further rows. -/
def log6Mag (m : Nat) : Nat := if m = 0 then 0 else log6Mantissa (m % 4) * 2 ^ (m / 4)

/-- The exact value of an element of a floating format or LOG6 (R133, R134, R138). -/
def decodeFloat (fmt v : Nat) : Num :=
  if fmt = 10 then
    let m := v % 32
    let s := v / 32 % 2 == 1
    if m = 0 then (if s then .nan false else .fin false 0 0) else .fin s (log6Mag m) (-15)
  else
    let neg := v / signCode fmt % 2 == 1
    let code := v % signCode fmt
    let p := 2 ^ fracBits fmt
    let ex := code / p
    if fmt = 4 ∧ code = 0x7F then .nan false
    else if fmt ≠ 4 ∧ fmt ≠ 6 ∧ maxCode fmt < code then
      (if code = maxCode fmt + 1 then .inf neg else .nan (decide (code % p < p / 2)))
    else if ex = 0 then .fin neg code (minExp fmt)
    else .fin neg (code % p + p) (minExp fmt + (ex - 1 : Int))

/-- The exact value of an element of any format but the block-scaled ones; FIX64 is read with `fixp` fraction bits
(R140). -/
def decodeElem (fmt fixp v : Nat) : Num :=
  if isInt fmt then
    let i := signed (elemBits fmt) v
    .fin (decide (i < 0)) i.natAbs (if fmt = 15 then -(fixp : Int) else 0)
  else decodeFloat fmt v

/-- A finite, non-zero value below the minimum normal of its format (R146). -/
def isSubnormalCode (fmt v : Nat) : Bool :=
  isWide fmt && v % signCode fmt != 0 && v % signCode fmt < 2 ^ fracBits fmt

/-- A subnormal input read as a zero of its own sign under FZI (R146). -/
def flushIn (r : Rnd) (fmt v : Nat) : Nat :=
  if r.fzi && isSubnormalCode fmt v then v / signCode fmt % 2 * signCode fmt else v

/-- The exact value of an input element with FZI applied. -/
def readElem (r : Rnd) (fmt v : Nat) : Num := decodeElem fmt r.fixp (flushIn r fmt v)

/-- The magnitude rounds up to the upper neighbour: `neg` sign, `even` the lower neighbour's encoding is even, `rem` of
`width` the distance from the lower one, `sticky` a further part below (R142, R144). -/
def roundsUp (r : Rnd) (neg even : Bool) (rem width : Nat) (sticky : Bool) : Bool :=
  match r.rm with
  | 0 => if 2 * rem > width then true else if 2 * rem = width then sticky || !even else false
  | 1 => false
  | 2 => !neg
  | 3 => neg
  | _ =>
    if neg then
      let n := (width - rem) * 16777216
      let g := if sticky && n % width == 0 then n / width - 1 else n / width
      !(r.sr < g)
    else r.sr < rem * 16777216 / width

/-- A rounded result: its encoding and the flags raised. -/
structure Rounded where
  /-- Encoding. -/
  code : Nat
  /-- Flags. -/
  flags : BitVec 8
  deriving DecidableEq, Repr

/-- The encoding of a signed magnitude code. -/
def signedCode (fmt : Nat) (neg : Bool) (code : Nat) : Nat :=
  if fmt = 10 ∧ code = 0 then 0 else if neg then signCode fmt + code else code

/-- A candidate beyond the largest finite magnitude (R143). -/
def overflowed (r : Rnd) (fmt : Nat) (neg : Bool) : Rounded :=
  let top := signedCode fmt neg (maxCode fmt)
  if fmt = 6 then { code := top, flags := flagST ||| flagIX }
  else if r.rm = 1 ∨ (r.rm = 2 ∧ neg) ∨ (r.rm = 3 ∧ ¬neg) then { code := top, flags := flagOF ||| flagIX }
  else if r.sat && isNarrow fmt then { code := top, flags := flagST ||| flagIX }
  else if fmt = 4 ∨ fmt = 10 then { code := canonicalNan fmt, flags := flagOF ||| flagIX }
  else { code := signedCode fmt neg (maxCode fmt + 1), flags := flagOF ||| flagIX }

/-- An infinity into a format (R142, R143). -/
def roundInf (r : Rnd) (fmt : Nat) (neg : Bool) : Rounded :=
  if fmt = 6 then { code := signedCode fmt neg (maxCode fmt), flags := flagST }
  else if fmt = 4 ∨ fmt = 10 then
    (if r.sat then { code := signedCode fmt neg (maxCode fmt), flags := flagST }
     else { code := canonicalNan fmt, flags := flagIV })
  else { code := signedCode fmt neg (maxCode fmt + 1), flags := 0 }

/-- A NaN into a format (R142). -/
def roundNan (fmt : Nat) : Rounded :=
  if fmt = 6 then { code := 0, flags := flagIV } else { code := canonicalNan fmt, flags := 0 }

/-- The largest LOG6 field whose magnitude does not exceed `v` (units of 2^-15, `v` scaled by `2^k`). -/
def log6Floor (v k : Nat) : Nat → Nat
  | 0 => 0
  | m + 1 => if log6Mag (m + 1) * 2 ^ k ≤ v then m + 1 else log6Floor v k m

/-- A finite non-zero value into LOG6 (R139, R142, R146). -/
def roundLog6 (r : Rnd) (neg : Bool) (m : Nat) (e : Int) (sticky : Bool) : Rounded :=
  -- in units of 2^(-15-k)
  let k := (-15 - e).toNat
  let v := m * 2 ^ (e + 15 + k).toNat
  let lo := log6Floor v k 40
  let lov := log6Mag lo * 2 ^ k
  let exact := v = lov ∧ ¬sticky ∧ lo ≤ 31
  let tiny := v < log6Mag 1 * 2 ^ k
  if exact then { code := signedCode 10 neg lo, flags := 0 }
  else
    let up := roundsUp r neg (lo % 2 == 0) (v - lov) (log6Mag (lo + 1) * 2 ^ k - lov) sticky
    let c := if up then lo + 1 else lo
    if 31 < c then overflowed r 10 neg
    else { code := signedCode 10 neg c, flags := if tiny then flagUF ||| flagIX else flagIX }

/-- A finite non-zero value into a binary floating format (R142, R143, R146). A value that is itself a member of the extended set
beyond the largest finite magnitude is its own candidate. [DESIGN CHOICE, log 132: unsafe] -/
def roundBinary (r : Rnd) (fmt : Nat) (neg : Bool) (m : Nat) (e : Int) (sticky : Bool) : Rounded :=
  let fb := fracBits fmt
  let top : Int := (Nat.log2 m : Nat) + e
  let q : Int := max (top - (fb : Nat)) (minExp fmt)
  let tiny := top < minExp fmt + (fb : Nat)
  let base := (q - minExp fmt).toNat * 2 ^ fb
  if r.fzo && isWide fmt && tiny then { code := signedCode fmt neg 0, flags := flagUF ||| flagIX }
  else if q ≤ e ∧ ¬sticky then
    let c := base + m * 2 ^ (e - q).toNat
    if maxCode fmt < c then overflowed r fmt neg else { code := signedCode fmt neg c, flags := 0 }
  else
    let s := (q - e).toNat
    let n := m / 2 ^ s
    let rem := m % 2 ^ s
    let exact := rem == 0 && !sticky
    let up := !exact && roundsUp r neg ((base + n) % 2 == 0) rem (2 ^ s) sticky
    let c := base + n + (if up then 1 else 0)
    if maxCode fmt < c then overflowed r fmt neg
    else if exact then { code := signedCode fmt neg c, flags := 0 }
    else { code := signedCode fmt neg c, flags := if tiny then flagUF ||| flagIX else flagIX }

/-- round of R142 for a finite value with a sticky part. -/
def roundFin (r : Rnd) (fmt : Nat) (neg : Bool) (m : Nat) (e : Int) (sticky : Bool) : Rounded :=
  if m = 0 then { code := signedCode fmt neg 0, flags := 0 }
  else if fmt = 10 then roundLog6 r neg m e sticky
  else roundBinary r fmt neg m e sticky

/-- round of R142 into a floating format or LOG6. -/
def roundTo (r : Rnd) (fmt : Nat) (x : Num) : Rounded :=
  match x with
  | .nan _ => roundNan fmt
  | .inf neg => roundInf r fmt neg
  | .fin neg m e => roundFin r fmt neg m e false

/-- A value rounded to an integer under RM, and whether it was inexact (R147). -/
def roundInteger (r : Rnd) (neg : Bool) (m : Nat) (e : Int) : Int × Bool :=
  if 0 ≤ e then
    let v : Int := (m * 2 ^ e.toNat : Nat)
    (if neg then -v else v, false)
  else
    let s := (-e).toNat
    let n := m / 2 ^ s
    let rem := m % 2 ^ s
    if rem = 0 then (if neg then -(n : Int) else n, false)
    else
      let c : Int := (n + (if roundsUp r neg (n % 2 == 0) rem (2 ^ s) false then 1 else 0) : Nat)
      (if neg then -c else c, true)

/-- Conversion of a value to a two's-complement format of `w` bits with `scale` fraction bits (R147). -/
def roundToInt (r : Rnd) (w scale : Nat) (x : Num) : Rounded :=
  let low := 2 ^ (w - 1)
  match x with
  | .nan _ => if r.sat then { code := 0, flags := flagIV } else { code := low, flags := flagIV }
  | .inf neg =>
    if r.sat then { code := if neg then low else low - 1, flags := flagST } else { code := low, flags := flagIV }
  | .fin neg m e =>
    let (i, inexact) := roundInteger r neg m (e + (scale : Nat))
    if (low : Int) ≤ i then (if r.sat then { code := low - 1, flags := flagST } else { code := low, flags := flagIV })
    else if i < -(low : Int) then
      (if r.sat then { code := low, flags := flagST } else { code := low, flags := flagIV })
    else { code := wrap w i, flags := if inexact then flagIX else 0 }

/-- Any value into any format but the block-scaled ones (R142, R147). -/
def encodeElem (r : Rnd) (fmt : Nat) (x : Num) : Rounded :=
  if isInt fmt then roundToInt r (elemBits fmt) (if fmt = 15 then r.fixp else 0) x else roundTo r fmt x

/-- Conversion of an element from one format to another (R148). -/
def convert (r : Rnd) (src dst v : Nat) : Rounded :=
  if isInt src && isInt dst && src != 15 && dst != 15 then
    let i := signed (elemBits src) v
    let w := elemBits dst
    let low : Int := (2 ^ (w - 1) : Nat)
    if r.sat && decide (low ≤ i) then { code := 2 ^ (w - 1) - 1, flags := flagST }
    else if r.sat && decide (i < -low) then { code := 2 ^ (w - 1), flags := flagST }
    else { code := wrap w i, flags := 0 }
  else
    let x := readElem r src v
    let sig := match x with | .nan s => if s then flagIV else 0 | _ => 0
    let y := encodeElem r dst x
    { y with flags := y.flags ||| sig }

namespace Num

/-- A signalling NaN. -/
def signals : Num → Bool
  | .nan s => s
  | _ => false

/-- A NaN. -/
def isNan : Num → Bool
  | .nan _ => true
  | _ => false

/-- An infinity. -/
def isInf : Num → Bool
  | .inf _ => true
  | _ => false

/-- A zero. -/
def isZero : Num → Bool
  | .fin _ m _ => m == 0
  | _ => false

/-- The sign. -/
def sign : Num → Bool
  | .nan _ => false
  | .inf n => n
  | .fin n _ _ => n

/-- The negated value. -/
def neg : Num → Num
  | .nan s => .nan s
  | .inf n => .inf (!n)
  | .fin n m e => .fin (!n) m e

/-- The magnitude. -/
def abs : Num → Num
  | .nan s => .nan s
  | .inf _ => .inf false
  | .fin _ m e => .fin false m e

/-- The value as an integer multiple of `2^q`, for `q` at or below its exponent. -/
def scaled (x : Num) (q : Int) : Int :=
  match x with
  | .fin n m e =>
    let v : Int := (m * 2 ^ (e - q).toNat : Nat)
    if n then -v else v
  | _ => 0

/-- The exponent of a finite value, zero otherwise. -/
def exponent : Num → Int
  | .fin _ _ e => e
  | _ => 0

/-- An integer multiple of `2^q` as a value; `zneg` is the sign of a zero. -/
def ofScaled (i : Int) (q : Int) (zneg : Bool) : Num :=
  if i = 0 then .fin zneg 0 q else .fin (decide (i < 0)) i.natAbs q

/-- Order of finite and infinite values: `a < b`. -/
def lt (a b : Num) : Bool :=
  match a, b with
  | .nan _, _ => false
  | _, .nan _ => false
  | .inf x, .inf y => x && !y
  | .inf x, .fin _ _ _ => x
  | .fin _ _ _, .inf y => !y
  | .fin _ _ ea, .fin _ _ eb => let q := min ea eb; decide (scaled a q < scaled b q)

/-- Equal values; the two zeros are equal. -/
def eq (a b : Num) : Bool := !a.isNan && !b.isNan && !lt a b && !lt b a

/-- The exact sum under a rounding mode, and whether the operation is invalid (R135). -/
def add (r : Rnd) (a b : Num) : Num × Bool :=
  match a, b with
  | .nan s, .nan t => (.nan false, s || t)
  | .nan s, _ => (.nan false, s)
  | _, .nan t => (.nan false, t)
  | .inf x, .inf y => if x = y then (.inf x, false) else (.nan false, true)
  | .inf x, .fin _ _ _ => (.inf x, false)
  | .fin _ _ _, .inf y => (.inf y, false)
  | .fin na ma ea, .fin nb mb eb =>
    let q := min ea eb
    let i := scaled (.fin na ma ea) q + scaled (.fin nb mb eb) q
    let zneg := if ma = 0 ∧ mb = 0 ∧ na = nb then na else r.rm == 3
    (ofScaled i q zneg, false)

/-- The exact product, and whether the operation is invalid (R135). -/
def mul (a b : Num) : Num × Bool :=
  match a, b with
  | .nan s, .nan t => (.nan false, s || t)
  | .nan s, _ => (.nan false, s)
  | _, .nan t => (.nan false, t)
  | .inf x, .inf y => (.inf (x != y), false)
  | .inf x, .fin y m _ => if m = 0 then (.nan false, true) else (.inf (x != y), false)
  | .fin x m _, .inf y => if m = 0 then (.nan false, true) else (.inf (x != y), false)
  | .fin na ma ea, .fin nb mb eb => (.fin (na != nb) (ma * mb) (ea + eb), false)

end Num

/-- The flag of an invalid operation. -/
def ivIf (b : Bool) : BitVec 8 := if b then flagIV else 0

/-- A rounded sum (R135). -/
def addRounded (r : Rnd) (fmt : Nat) (a b : Num) : Rounded :=
  let (s, iv) := Num.add r a b
  let y := roundTo r fmt s
  { y with flags := y.flags ||| ivIf iv }

/-- A rounded product (R135). -/
def mulRounded (r : Rnd) (fmt : Nat) (a b : Num) : Rounded :=
  let (s, iv) := Num.mul a b
  let y := roundTo r fmt s
  { y with flags := y.flags ||| ivIf iv }

/-- A fused product and sum, rounded once (R135, R185). -/
def fmaRounded (r : Rnd) (fmt : Nat) (a b c : Num) : Rounded :=
  let (p, iv1) := Num.mul a b
  let (s, iv2) := Num.add r p c
  let y := roundTo r fmt s
  { y with flags := y.flags ||| ivIf (iv1 || iv2 || c.signals) }

/-- A rounded quotient (R135): 160 quotient bits beyond the divisor's size, the rest in the sticky part. -/
def divRounded (r : Rnd) (fmt : Nat) (a b : Num) : Rounded :=
  match a, b with
  | .nan s, .nan t => { roundNan fmt with flags := ivIf (s || t) }
  | .nan s, _ => { roundNan fmt with flags := ivIf s }
  | _, .nan t => { roundNan fmt with flags := ivIf t }
  | .inf _, .inf _ => { roundNan fmt with flags := flagIV }
  | .inf x, .fin y _ _ => roundInf r fmt (x != y)
  | .fin x _ _, .inf y => roundFin r fmt (x != y) 0 0 false
  | .fin x ma ea, .fin y mb eb =>
    if mb = 0 then
      (if ma = 0 then { roundNan fmt with flags := flagIV }
       else let z := roundInf r fmt (x != y); { z with flags := z.flags ||| flagDZ })
    else
      let n := ma * 2 ^ (160 + Nat.log2 mb)
      roundFin r fmt (x != y) (n / mb) (ea - eb - (160 + Nat.log2 mb : Nat)) (n % mb != 0)

/-- Integer square root by bits: `fuel` bits are still to be decided. -/
def isqrtLoop (n : Nat) : Nat → Nat → Nat
  | 0, acc => acc
  | fuel + 1, acc =>
    let t := acc + 2 ^ fuel
    isqrtLoop n fuel (if t * t ≤ n then t else acc)

/-- Floor of the square root. -/
def isqrt (n : Nat) : Nat := isqrtLoop n (Nat.log2 n / 2 + 1) 0

/-- A rounded square root (R135). -/
def sqrtRounded (r : Rnd) (fmt : Nat) (a : Num) : Rounded :=
  match a with
  | .nan s => { roundNan fmt with flags := ivIf s }
  | .inf neg => if neg then { roundNan fmt with flags := flagIV } else roundInf r fmt false
  | .fin neg m e =>
    if m = 0 then { code := signedCode fmt neg 0, flags := 0 }
    else if neg then { roundNan fmt with flags := flagIV }
    else
      -- an even exponent, and 200 further bits
      let (m, e) := if e % 2 = 0 then (m, e) else (2 * m, e - 1)
      let n := m * 2 ^ 400
      let q := isqrt n
      roundFin r fmt false q (e / 2 - 200) (q * q != n)

/-- Minimum or maximum of two floats as VMIN and VMAX take it (R185): `max` selects the maximum. -/
def minMaxCode (max : Bool) (r : Rnd) (fmt a b : Nat) : Rounded :=
  let a := flushIn r fmt a
  let b := flushIn r fmt b
  let x := decodeFloat fmt a
  let y := decodeFloat fmt b
  let iv := ivIf (x.signals || y.signals)
  if x.isNan || y.isNan then { code := canonicalNan fmt, flags := iv }
  else if Num.lt x y then { code := if max then b else a, flags := iv }
  else if Num.lt y x then { code := if max then a else b, flags := iv }
  else
    -- equal: of two zeros, -0 is the smaller one
    let an := x.sign
    { code := if max then (if an then b else a) else (if an then a else b), flags := iv }

/-- mxval of R136: element value with its block scale `b`; the tile scale is applied apart. -/
def mxElem (ef b v : Nat) : Num :=
  if b = 255 then .nan false
  else match decodeFloat ef v with
    | .fin n m e => .fin n m (e + (b : Int) - 127)
    | x => x

/-- emax of the element formats in mxq (R137). -/
def mxEmax (ef : Nat) : Int := match ef with | 4 => 8 | 5 => 15 | _ => 2

/-- floor(log2 |x / ts|) for finite non-zero values. -/
def floorLog2Quot (m : Nat) (e : Int) (tm : Nat) (te : Int) : Int :=
  -- m/tm lies in (2^(lm - ltm - 1), 2^(lm - ltm + 1))
  let d : Int := (Nat.log2 m : Nat) - (Nat.log2 tm : Nat)
  let ge := if 0 ≤ d then decide (tm * 2 ^ d.toNat ≤ m) else decide (tm ≤ m * 2 ^ (-d).toNat)
  (if ge then d else d - 1) + e - te

/-- The quotient of two finite values as a rounded element, with a further scale of `2^-k` (R137). -/
def quotElem (r : Rnd) (ef : Nat) (neg : Bool) (m : Nat) (e : Int) (tm : Nat) (te k : Int) : Rounded :=
  let n := m * 2 ^ (120 + Nat.log2 tm)
  let y := roundFin { r with sat := true, fzo := false } ef neg (n / tm) (e - te - (120 + Nat.log2 tm : Nat) - k)
    (n % tm != 0)
  -- beyond the largest element: clamped in every mode, with ST in place of OF
  if y.flags &&& flagOF ≠ 0 then
    { code := signedCode ef neg (maxCode ef), flags := (y.flags &&& ~~~flagOF) ||| flagST }
  else y

/-- mxq of R137: scale byte, elements with their flags, and flags of the block as a whole. `srs` are the stochastic bits
element by element. [DESIGN CHOICE, log 30: safe] -/
def mxq (r : Rnd) (ef : Nat) (ts : Num) (xs : List (Num × Nat)) : Nat × List Rounded × BitVec 8 :=
  let none32 := xs.map fun _ => ({ code := 0, flags := 0 } : Rounded)
  match ts with
  | .fin tn tm te =>
    if tm = 0 || xs.any (fun x => x.1.isNan) then (255, none32, flagIV)
    else if xs.any (fun x => x.1.isInf) then (255, none32, flagOF)
    else
      let logs := xs.filterMap fun x =>
        match x.1 with | .fin _ m e => if m = 0 then none else some (floorLog2Quot m e tm te) | _ => none
      let b : Nat := match logs with
        | [] => 0
        | l :: ls => (min (max (ls.foldl max l - mxEmax ef + 127) 0) 254).toNat
      let es := xs.map fun x =>
        match x.1 with
        | .fin n m e =>
          if m = 0 then ({ code := signedCode ef (n != tn) 0, flags := 0 } : Rounded)
          else quotElem { r with sr := x.2 } ef (n != tn) m e tm te ((b : Int) - 127)
        | _ => { code := 0, flags := 0 }
      (b, es, 0)
  | _ => (255, none32, flagIV)

end Sys2Proof.Machine
end

