-- ==== Sys2Proof/Machine/Operands.lean ====
section
/-! DEFINITION. Operands: which register a field names in which context (R48, R117, R118), register reads with their
write windows (R61), guards (R47), and the control registers as MFC reads and MTC writes them (R121 to R124). A read
inside a write window is a free value. -/

namespace Sys2Proof.Machine

/-- The control registers of the executing context (R121). -/
def Core.ctx (c : Core) : Ctx := if c.inHandler then c.hand else c.main

/-- The core with the executing context's control registers replaced. -/
def Core.setCtx (c : Core) (x : Ctx) : Core := if c.inHandler then { c with hand := x } else { c with main := x }

/-- Handler mode (R45, R118): trap-handler mode or the message-handler context. -/
def Core.handlerMode (c : Core) : Bool := c.inHandler || c.main.hmode

/-- The register that a 5-bit scalar field names (R48, R118). -/
def Core.sPort (c : Core) (n : Nat) : Port :=
  if c.inHandler then (if n < 16 then .ms n else .mh (n - 16))
  else if c.main.hmode && 16 ≤ n then .h (n - 16)
  else .s n

/-- The register that a 3-bit predicate field names. -/
def Core.pPort (c : Core) (n : Nat) : Port := if c.inHandler then .mp n else .p n

/-- The vector register of a cluster: x, or y (R46). -/
def vPort (y : Bool) (n : Nat) : Port := if y then .y n else .x n

/-- A number for each register, from which its free values are drawn. -/
def Port.code : Port → Nat
  | .s n => n
  | .h n => 32 + n
  | .p n => 48 + n
  | .x n => 64 + n
  | .y n => 96 + n
  | .k n => 128 + n
  | .ms n => 136 + n
  | .mh n => 152 + n
  | .mp n => 168 + n
  | .creg false n => 1024 + n
  | .creg true n => 4096 + n
  | .flags => 176

/-- The number under which a fault of a register's storage goes. R269 numbers s, x, y, h in both banks and the message
handler's s; those of 144 and above are the model's. [DEDUCED, log 25: unsafe] -/
def Port.number : Port → Nat
  | .s n => n
  | .x n => 32 + n
  | .y n => 64 + n
  | .h n => 96 + n
  | .ms n => 128 + n
  | .p n => 144 + n
  | .k n => 152 + n
  | .creg _ r => if r = 0x00C then 160 else if r = 0x00D then 161 else 200 + r
  | .mh n => 112 + n
  | .mp n => 162 + n
  | .flags => 199

/-- Registers written whole are rid of an uncorrectable error (R269). [DEDUCED, log 25: unsafe] -/
def Core.cleanReg (c : Core) (n : Nat) : Core := { c with badRegs := c.badRegs.filter (· != n) }

/-- Width in bits of what a register holds (R117). -/
def Port.width : Port → Nat
  | .p _ => 1
  | .mp _ => 1
  | .x _ => 512
  | .y _ => 512
  | _ => 64

/-- What a register holds, zero-extended; p0 reads one and k0 all ones (R117). -/
def Core.held_ (c : Core) : Port → Nat
  | .s n => (c.s.getD n 0).toNat
  | .h n => (c.h.getD n 0).toNat
  | .p n => if n = 0 || c.p.getD n false then 1 else 0
  | .x n => (c.x.getD n 0).toNat
  | .y n => (c.y.getD n 0).toNat
  | .k n => if n = 0 then 2 ^ 64 - 1 else (c.k.getD n 0).toNat
  | .ms n => (c.ms.getD n 0).toNat
  | .mh n => (c.mh.getD n 0).toNat
  | .mp n => if n = 0 || c.mp.getD n false then 1 else 0
  | .creg _ _ => 0
  | .flags => 0

/-- A register's write window is open at the core's cycle (R61). [DEDUCED, log 11: safe] -/
def Core.openWindow (c : Core) (port : Port) : Bool :=
  c.landings.any fun l => l.port == port && decide (l.t0 < c.cycle) && decide (c.cycle < l.due)

/-- p0 and k0 have no window, for a write to them is ignored. -/
def Port.fixed : Port → Bool
  | .p 0 => true
  | .mp 0 => true
  | .k 0 => true
  | _ => false

/-- What a read of a register gives at the core's cycle: its value, or a free value inside a write window (R61).
[DEDUCED, log 11: safe] -/
def Core.readPort (c : Core) (fresh : Nat) (port : Port) : Nat :=
  if c.openWindow port && !port.fixed then (Config.freeWord fresh (c.iss.word + 1) port.code).toNat % 2 ^ port.width
  else c.held_ port

/-- The core whose word executes. -/
def State.here (s : State) : Core := s.core s.cur

/-- The state with that core changed. -/
def State.onHere (s : State) (f : Core → Core) : State := s.onCore s.cur f

/-- The scalar register that a field names. -/
def State.reg (s : State) (n : BitVec 5) : W64 :=
  BitVec.ofNat 64 (s.here.readPort s.fresh (s.here.sPort n.toNat))

/-- The scalar register of a number, for pair fields (R48). -/
def State.regN (s : State) (n : Nat) : W64 := BitVec.ofNat 64 (s.here.readPort s.fresh (s.here.sPort n))

/-- The predicate that a field names. -/
def State.pred (s : State) (n : BitVec 3) : Bool := s.here.readPort s.fresh (s.here.pPort n.toNat) == 1

/-- The vector register that a field names in cluster x or y. -/
def State.vec (s : State) (y : Bool) (n : BitVec 5) : Vec := BitVec.ofNat 512 (s.here.readPort s.fresh (vPort y n.toNat))

/-- The k register that a field names. -/
def State.mask (s : State) (n : BitVec 3) : W64 := BitVec.ofNat 64 (s.here.readPort s.fresh (.k n.toNat))

/-- A guard with its negate bit holds (R47). -/
def State.guarded (s : State) (g : BitVec 3) (negate : Bool) : Bool := s.pred g != negate

/-- The immediate of an SI word, with the bits of a LIMM where one follows (R44, R157). -/
def State.imm (s : State) (i : BitVec 10) : W64 :=
  match s.here.iss.ext with
  | none => i.signExtend 64
  | some e => (BitVec.ofNat 37 (1024 * e.toNat + i.toNat)).signExtend 64

/-- Results held for later delivery in the threshold buffer (R67). [DEDUCED, log 21: unsafe; DEDUCED, log 26: unsafe] -/
def Core.buffered (c : Core) : Nat := (c.landings.filter (·.timed)).length

/-- STATUS as the executing context reads it (R123). [DEDUCED, log 26: unsafe] -/
def Core.status (c : Core) : Nat :=
  let x := c.ctx
  let pinned := match c.act with | .pinned _ => true | _ => false
  256 * (64 - c.buffered) + bitAt c.loop.active 7 + bitAt x.suspp 4 + bitAt x.tack 3 + bitAt pinned 2 +
    bitAt c.inHandler 1 + bitAt c.handlerMode 0

/-- XELEM as it reads (R150). Elements are compared by their full index; one of 2^15 or more shows its low 15 bits.
[DESIGN CHOICE, log 120: unsafe] -/
def Offer.word (o : Offer) : Nat :=
  2 ^ 63 + 2 ^ 60 * (o.flag % 8) + 2 ^ 45 * (o.elem % 32768) + o.osn.toNat % 2 ^ 45

/-- A cause register of a bank: 0 EPC, 1 CAUSE, 2 TVAL, 3 TBUNDLE (R262). -/
def Bank.reg (b : Bank) (i : Nat) : Nat :=
  match i with
  | 0 => b.epc.toNat
  | 1 => bitAt b.v 63 + 2 ^ 40 * b.xcode.toNat + 2 ^ 16 * b.pend.toNat + bitAt b.deferred 7 + b.code.toNat
  | 2 => b.tval.toNat
  | _ => b.tbundle.toNat

/-- A bank after a write of one of its registers (R262). -/
def Bank.write (b : Bank) (i : Nat) (v : W64) : Bank :=
  match i with
  | 0 => { b with epc := v.setWidth 32 }
  | 1 => { b with v := flagOf v 63, xcode := BitVec.ofNat 8 (fieldOf v 40 8), code := v.setWidth 5 }
  | 2 => { b with tval := v }
  | _ => { b with tbundle := v.setWidth 32 }

/-- STATE, ROLE, ERRCNT, errors since the last remapping, and mark of a physical row (R210, R222, R239). -/
def Matrix.row (m : Matrix) (n : Nat) : Nat × Nat × Nat × Nat × Bool :=
  (Sparse.get? m.rows n).getD (if n ≤ 128 then (0, n, 0, 0, false) else (1, 0xFF, 0, 0, false))

/-- A control register as MFC reads it at the core's cycle (R121 to R124). -/
def Core.cregValue (c : Core) (id time : Nat) (r : Nat) : Nat :=
  let x := c.ctx
  match r with
  | 0x000 => x.mode.toNat
  | 0x001 => x.xflags.toNat
  | 0x002 => match x.xelem with | some o => o.word | none => 0
  | 0x003 => c.status
  | 0x004 => if c.inHandler then 0 else x.lidx.toNat
  | 0x005 => c.cycle % 2 ^ 64
  | 0x006 => c.frozen.toNat
  | 0x007 => c.frzbank.toNat
  | 0x008 => c.frzfull.toNat
  | 0x009 => time % 2 ^ 64
  | 0x00A => id
  | 0x00C => (c.lc.getD 0 0).toNat
  | 0x00D => (c.lc.getD 1 0).toNat
  | 0x018 => x.tvec.toNat
  | 0x019 => x.hstk.toNat
  | 0x01A => c.wdPeriod.toNat + 2 ^ 32 * c.wdSave.toNat
  | 0x050 => c.trace.ctl.toNat
  | 0x051 => c.trace.stat.toNat
  | 0x052 => c.trace.triga.toNat
  | 0x053 => c.trace.trigb.toNat
  | 0x054 => c.trace.mask.toNat
  | 0x055 => c.trace.idx.toNat
  | 0x056 => c.trace.ts.toNat
  | 0x057 => c.trace.cnt.toNat
  | 0x060 => c.mat.drainctl.toNat
  | 0x061 => c.mat.tolt.toNat
  | r =>
    if 0x010 ≤ r ∧ r ≤ 0x013 then x.bank1.reg (r - 0x010)
    else if 0x014 ≤ r ∧ r ≤ 0x017 then x.bank2.reg (r - 0x014)
    else if 0x020 ≤ r ∧ r ≤ 0x02F then (c.bfmt.getD (r - 0x020) 0).toNat
    else if 0x040 ≤ r ∧ r ≤ 0x04F then
      let q := c.queues.getD ((r - 0x040) / 2) Queue.reset
      if r % 2 = 0 then q.desc.toNat else q.ptr.toNat
    else if 0x0F0 ≤ r ∧ r ≤ 0x0FF then (c.s.getD (16 + (r - 0x0F0)) 0).toNat
    else if 0x100 ≤ r ∧ r ≤ 0x117 then (c.mat.shadow.getD (r - 0x100) 0).toNat
    else if 0x118 ≤ r ∧ r ≤ 0x12F then (c.mat.active.getD (r - 0x118) 0).toNat
    else if 0x200 ≤ r ∧ r ≤ 0x283 then
      let row := c.mat.row (r - 0x200)
      2 ^ 62 * row.1 + 2 ^ 48 * row.2.1 + row.2.2.1
    else 0

/-- The executing context and mode may read the register by MFC (R118, R121). -/
def Core.mayRead (c : Core) (r : Nat) : Bool :=
  if 0x0F0 ≤ r ∧ r ≤ 0x0FF then !c.inHandler && c.main.hmode else true

/-- Registers that MTC can not write (R121). -/
def Creg.readOnly (r : Nat) : Bool :=
  (0x003 ≤ r && r ≤ 0x00A) || r == 0x051 || (0x118 ≤ r && r ≤ 0x12F) || (0x200 ≤ r && r ≤ 0x283)

/-- The executing context and mode may write the register by MTC (R118, R121). -/
def Core.mayWrite (c : Core) (r : Nat) : Bool :=
  let shd := decide (0x0F0 ≤ r ∧ r ≤ 0x0FF)
  let cause := decide (0x010 ≤ r ∧ r ≤ 0x017)
  let mainOnly := r == 0x00C || r == 0x00D || decide (0x020 ≤ r ∧ r ≤ 0x02F) || r == 0x060 || r == 0x061 ||
    decide (0x100 ≤ r ∧ r ≤ 0x117)
  !Creg.readOnly r && (!shd || (!c.inHandler && c.main.hmode)) && (!cause || c.handlerMode) &&
    (!mainOnly || !c.inHandler)

/-- The bits of a control register that an MTC writes (R12, R162). -/
def Creg.writable (r : Nat) : Nat :=
  match r with
  | 0x000 => 0x00FCFF3F
  | 0x001 => 0xFF
  | 0x00C => 0xFFFFFFFF
  | 0x00D => 0xFFFFFFFF
  | 0x018 => 0xFFFFFFFF
  | 0x019 => 0x7FFFFF
  | 0x01A => 0xFFFFFFFFFFFF
  | 0x050 => 0xFFFF000B
  | 0x052 => 0x8F000001FFFFFFFF
  | 0x055 => 0x3FF
  | 0x060 => 0xFFFFFFFF0FFFFF03
  | 0x061 => 0x0000FFFFFFFFFFFF
  | r =>
    if 0x020 ≤ r ∧ r ≤ 0x02F then 0x8F
    else if 0x040 ≤ r ∧ r ≤ 0x04F then (if r % 2 = 0 then 0xFFFFFFFF801FFFFF else 0x0000FFFFFFFFFFFF)
    else if r = 0x100 then 0xC000000000FFFFFF
    else if 0x100 ≤ r ∧ r ≤ 0x117 ∧ r % 4 = 0 then 0x0000000000FFFFFF
    else 0xFFFFFFFFFFFFFFFF

/-- MODE after a write: DET stays, an RM of 5 to 7 is stored as 0 (R141). -/
def Mode.write (old v : W64) : W64 :=
  let n := v.toNat
  let rm := if n % 8 ≤ 4 then n % 8 else 0
  BitVec.ofNat 64 (2 ^ 31 * fieldOf old 31 1 + (n &&& 0x00FCFF38) + rm)

/-- The control registers of a context after a write of one of its own. -/
def Ctx.write (x : Ctx) (r : Nat) (v : W64) : Ctx :=
  match r with
  | 0x000 => { x with mode := Mode.write x.mode v }
  | 0x001 => { x with xflags := v.setWidth 8 }
  | 0x002 => { x with xelem := none }
  | 0x018 => { x with tvec := v.setWidth 32 }
  | 0x019 => { x with hstk := v.setWidth 23 }
  | r =>
    if 0x010 ≤ r ∧ r ≤ 0x013 then { x with bank1 := x.bank1.write (r - 0x010) v }
    else if 0x014 ≤ r ∧ r ≤ 0x017 then { x with bank2 := x.bank2.write (r - 0x014) v }
    else x

/-- The trace registers after a write (R277). -/
def Trace.write (t : Trace) (r : Nat) (v : W64) : Trace :=
  match r with
  | 0x050 =>
    let post := min (fieldOf v 16 16) 1023
    { t with ctl := BitVec.ofNat 64 (65536 * post + (v.toNat &&& 0xB)) }
  | 0x052 => { t with triga := v &&& 0x8F000001FFFFFFFF#64 }
  | 0x053 => { t with trigb := v }
  | 0x054 => { t with mask := v }
  | 0x055 => { t with idx := v.setWidth 10 }
  | 0x056 => { t with ts := v }
  | 0x057 => { t with cnt := v }
  | _ => t

/-- A queue's registers after a write (R304). -/
def Queue.write (q : Queue) (ptr : Bool) (v : W64) : Queue :=
  if ptr then { q with ptr := lowBits v 48 }
  else
    let n := v.toNat &&& 0xFFFFFFFF801FFFFF
    { q with desc := BitVec.ofNat 64 (if bits n 17 4 = 15 then n - 2 ^ 17 else n) }

/-- A control register after the write of an MTC has landed (R64, R162); `handler` names the copy, `time` the time base,
for a write of WDOG restarts the watchdog (R270). -/
def Core.writeCreg (c : Core) (time : Nat) (handler : Bool) (r : Nat) (v : W64) : Core :=
  if r ≤ 0x002 ∨ (0x010 ≤ r ∧ r ≤ 0x019) then
    (if handler then { c with hand := c.hand.write r v } else { c with main := c.main.write r v })
  else if r = 0x00C then { c with lc := c.lc.set 0 (v.setWidth 32) }
  else if r = 0x00D then { c with lc := c.lc.set 1 (v.setWidth 32) }
  else if r = 0x01A then
    let p := v.toNat % 2 ^ 32
    let t := fieldOf v 32 16
    { c with
      wdPeriod := BitVec.ofNat 32 (if p < 1000 then 1000 else p)
      wdSave := BitVec.ofNat 16 (if t = 0 then 1000 else t)
      wdStart := time
      wdHeld := false }
  else if 0x020 ≤ r ∧ r ≤ 0x02F then { c with bfmt := c.bfmt.set (r - 0x020) (BitVec.ofNat 8 (v.toNat &&& 0x8F)) }
  else if 0x040 ≤ r ∧ r ≤ 0x04F then
    let n := (r - 0x040) / 2
    { c with queues := c.queues.set n ((c.queues.getD n Queue.reset).write (r % 2 == 1) v) }
  else if 0x050 ≤ r ∧ r ≤ 0x057 then { c with trace := c.trace.write r v }
  else if r = 0x060 then { c with mat := { c.mat with drainctl := BitVec.ofNat 64 (v.toNat &&& 0xFFFFFFFF0FFFFF03) } }
  else if r = 0x061 then { c with mat := { c.mat with tolt := lowBits v 48 } }
  else if 0x0F0 ≤ r ∧ r ≤ 0x0FF then { c with s := c.s.set (16 + (r - 0x0F0)) v }
  else if 0x100 ≤ r ∧ r ≤ 0x117 then
    { c with mat := { c.mat with shadow := c.mat.shadow.set (r - 0x100) (BitVec.ofNat 64 (v.toNat &&& Creg.writable r)) } }
  else c

/-- A register after a result lands in it; p0 and k0 keep their value (R117). -/
def Core.writePort (c : Core) (time : Nat) (port : Port) (v : Vec) : Core :=
  let c := c.cleanReg port.number
  match port with
  | .s n => { c with s := c.s.set n (v.setWidth 64) }
  | .h n => { c with h := c.h.set n (v.setWidth 64) }
  | .p n => if n = 0 then c else { c with p := c.p.set n (v.getLsbD 0) }
  | .x n => { c with x := c.x.set n v }
  | .y n => { c with y := c.y.set n v }
  | .k n => if n = 0 then c else { c with k := c.k.set n (v.setWidth 64) }
  | .ms n => { c with ms := c.ms.set n (v.setWidth 64) }
  | .mh n => { c with mh := c.mh.set n (v.setWidth 64) }
  | .mp n => if n = 0 then c else { c with mp := c.mp.set n (v.getLsbD 0) }
  | .creg h n => c.writeCreg time h n (v.setWidth 64)
  | .flags => c

/-- The control register under whose write window the core's cycle lies: an MTC issued in the cycle before (R64). -/
def Core.cregOpen (c : Core) (handler : Bool) (r : Nat) : Bool := c.openWindow (.creg handler r)

/-- The fields of a control register, lowest bit and width, for which R64 leaves open whether a word issued one cycle
after an MTC sees the old or the new value. -/
def Creg.fields (r : Nat) : List (Nat × Nat) :=
  match r with
  | 0x000 => [(0, 3), (3, 1), (4, 1), (5, 1), (8, 8), (18, 6)]
  | 0x01A => [(0, 32), (32, 16)]
  | 0x050 => [(0, 1), (1, 1), (3, 1), (16, 16)]
  | 0x060 => [(0, 1), (1, 1), (8, 8), (16, 8), (24, 4), (32, 32)]
  | 0x061 => (List.range 12).map fun i => (4 * i, 4)
  | r =>
    if 0x020 ≤ r ∧ r ≤ 0x02F then [(0, 4), (7, 1)]
    else if 0x040 ≤ r ∧ r ≤ 0x04F then
      (if r % 2 = 0 then [(0, 17), (17, 4), (31, 1), (32, 32)] else [(0, 16), (16, 16), (32, 16)])
    else if 0x100 ≤ r ∧ r ≤ 0x117 ∧ r % 4 = 0 then [(0, 24), (62, 1), (63, 1)]
    else [(0, 64)]

/-- Old and new value of a register, field by field as the bits of a free value choose (R64). [DEDUCED, log 11: safe] -/
def Creg.mix (r : Nat) (free : Nat) (old new : W64) : W64 :=
  ((Creg.fields r).zipIdx.foldl
    (fun w f => if free.testBit f.2 then
        BitVec.ofNat 64 (w.toNat - 2 ^ f.1.1 * bits w.toNat f.1.1 f.1.2 + 2 ^ f.1.1 * fieldOf new f.1.1 f.1.2)
      else w) old)

/-- The write of an MTC issued in the cycle before, which has not landed (R64). -/
def Core.freshWrite (c : Core) (handler : Bool) (r : Nat) : Option Landing :=
  c.landings.find? fun l => l.port == .creg handler r && decide (l.t0 < c.cycle) && decide (c.cycle < l.due)

/-- MODE as a word samples it (R141, R64). -/
def Core.modeAt (c : Core) (fresh : Nat) : W64 :=
  let x := c.ctx
  match c.freshWrite c.inHandler 0 with
  | none => x.mode
  | some l =>
    Creg.mix 0 (Config.freeWord fresh (c.iss.word + 1) 2000).toNat x.mode (Mode.write x.mode (l.val.setWidth 64))

/-- MODE for the word in hand. -/
def State.mode (s : State) : W64 := s.here.modeAt s.fresh

/-- Control registers shared by the contexts as a word samples them that issues one cycle after an MTC of one of them: the
old or the new value, field by field (R64). -/
def Core.early (c : Core) (fresh time : Nat) (rs : List Nat) : Core :=
  rs.foldl (fun d r => match c.freshWrite false r with
    | none => d
    | some l =>
      let old := BitVec.ofNat 64 (c.cregValue 0 time r)
      let new := BitVec.ofNat 64 ((c.writeCreg time false r (l.val.setWidth 64)).cregValue 0 time r)
      d.writeCreg time false r (Creg.mix r (Config.freeWord fresh (c.iss.word + 1) (2001 + r)).toNat old new)) c

/-- The trace registers that a recording depends on (R277). -/
def traceRegs : List Nat := [0x050, 0x052, 0x053, 0x054, 0x055, 0x057]

/-- The write of QDESC or QPTR by an MTC one cycle before a queue word: the trap arbiter takes it before the word or after it, and
applies it once (R64, R304). -/
def Core.takeWrite (fresh time : Nat) (c : Core) (r : Nat) : Core :=
  match c.freshWrite false r with
  | none => c
  | some l =>
    if l.applied || !(Config.freeWord fresh (c.iss.word + 1) (2001 + r)).getLsbD 0 then c
    else
      { c.writeCreg time false r (l.val.setWidth 64) with
        landings := c.landings.map fun m => if m = l then { m with applied := true } else m }

/-- Queue `n` of the core in hand as its word finds it: an MTC of its registers one cycle before comes first or second (R304). -/
def State.sampleQueue (s : State) (n : Nat) : State :=
  s.onHere fun c => [0x040 + 2 * (n % 8), 0x041 + 2 * (n % 8)].foldl (Core.takeWrite s.fresh s.time) c

/-- A control register of the main context that a word other than MFC depends on (R64). -/
def State.cregAt (s : State) (r : Nat) : W64 :=
  let c := s.here
  let old := BitVec.ofNat 64 (c.cregValue s.cur s.time r)
  match c.freshWrite false r with
  | none => old
  | some l =>
    Creg.mix r (Config.freeWord s.fresh (c.iss.word + 1) (2001 + r)).toNat old
      (BitVec.ofNat 64 ((c.writeCreg s.time false r (l.val.setWidth 64)).cregValue s.cur s.time r))

end Sys2Proof.Machine
end

