-- ==== Sys2Proof/Machine/Flags.lean ====
section
/-! DEFINITION. XFLAGS and XELEM (R149, R150): flags accumulate by OR, one faulting element is kept by the lowest
identifiers, and an enabled flag requests its trap. -/

namespace Sys2Proof.Machine

/-- The order of offers within one logical index: sequence number, element, flag (R150). -/
def Offer.before (a b : Offer) : Bool :=
  if a.osn = b.osn then
    (if a.elem = b.elem then decide (a.flag < b.flag) else decide (a.elem < b.elem))
  else decide (a.osn < b.osn)

/-- The recorded element after an offer (R150). -/
def Offer.keep (old new : Option Offer) : Option Offer :=
  match old, new with
  | none, x => x
  | x, none => x
  | some a, some b => if b.before a then some b else some a

/-- The lowest flag number other than IX among the flags, if there is one (R150). -/
def lowestFlag (flags : BitVec 8) : Option Nat := [0, 1, 2, 3, 5, 6, 7].find? (fun n => flags.getLsbD n)

/-- What an element with its flags offers (R150). -/
def Offer.ofElem (osn : W64) (elem : Nat) (flags : BitVec 8) : Option Offer :=
  (lowestFlag flags).map fun n => { osn := osn, elem := elem, flag := n }

/-- The OR of the flags of the elements. -/
def flagsOf (es : List (Nat × BitVec 8)) : BitVec 8 := es.foldl (fun f e => f ||| e.2) 0

/-- The offer of an operation whose elements raised flags. -/
def offerOf (osn : W64) (es : List (Nat × BitVec 8)) : Option Offer :=
  es.foldl (fun o e => Offer.keep o (Offer.ofElem osn e.1 e.2)) none

/-- MODE.TEN as a mask over XFLAGS (R141). -/
def Mode.enabled (mode : W64) : BitVec 8 := BitVec.ofNat 8 (fieldOf mode 8 8)

/-- The level of a request that comes from the executing context (R263, R266). -/
def Core.level (c : Core) : Nat := if c.inHandler then 2 else if c.main.hmode then 1 else 0

/-- Flags land in a context (R149, R150): they join XFLAGS, offer their element, join what the phase has not merged yet,
and request the trap of code 12 where MODE enables one of them. -/
def Core.landFlags (c : Core) (handler : Bool) (level pc : Nat) (flags : BitVec 8) (offer : Option Offer) : Core :=
  if flags = 0 then c
  else
    let x := if handler then c.hand else c.main
    let y := { x with xflags := x.xflags ||| flags, xelem := Offer.keep x.xelem offer }
    let on := flags &&& Mode.enabled x.mode
    let c1 := if handler then { c with hand := y }
      else { c with
        main := y, unmerged := c.unmerged ||| flags
        unmergedOffer := Offer.keep c.unmergedOffer offer }
    if on = 0 then c1
    else { c1 with requests := c1.requests ++
      [{ code := 12, tval := on.setWidth 64, tbundle := pc, xcode := 0, deferred := true, epc := none, level := level }] }

end Sys2Proof.Machine
end

