-- ==== Sys2Proof/Machine/Rings.lean ====
section
/-! DEFINITION. The rings of the message queues (R304 to R308): counts, room, delivery into the ring with its sequence
number, the overflow area, and the starts of the message-handler context that deliveries request. -/

namespace Sys2Proof.Machine

namespace Queue

/-- QDESC.EN. -/
def open? (q : Queue) : Bool := flagOf q.desc 31

/-- Ring size 2^LSIZE. -/
def size (q : Queue) : Nat := 2 ^ fieldOf q.desc 17 4

/-- Ring base offset. -/
def base (q : Queue) : Nat := 64 * fieldOf q.desc 0 17

/-- Count of the oldest entry not yet released. -/
def freeCount (q : Queue) : Nat := fieldOf q.ptr 32 16

/-- Count of the next entry that QGET takes. -/
def head (q : Queue) : Nat := fieldOf q.ptr 16 16

/-- Count of the next entry that an arrival writes. -/
def tail (q : Queue) : Nat := fieldOf q.ptr 0 16

/-- QPTR from its three counts, modulo 2^16. -/
def ptrOf (free head tail : Nat) : W64 := BitVec.ofNat 64 (2 ^ 32 * (free % 65536) + 2 ^ 16 * (head % 65536) + tail % 65536)

/-- Unread entries of the ring (R304). -/
def unread (q : Queue) : Nat := (q.tail + 65536 - q.head) % 65536

/-- Entries of the ring in use. -/
def used (q : Queue) : Nat := (q.tail + 65536 - q.freeCount) % 65536

/-- Offset of entry count `n` (R304). -/
def entryOffset (q : Queue) (n : Nat) : Nat := q.base + 64 * (n % q.size)

/-- Entries from TAIL on, of some that are free by the counts, up to the first one that is kept for a rollback (R315). -/
def clear (q : Queue) (free : Nat) : Nat :=
  ((List.range (min free q.size)).find? fun i => q.kept.contains (q.entryOffset (q.tail + i) / 64)).getD free

/-- Free entries of the ring, modulo 2^16 (R304, R315); a ring beyond the scratchpad has none. -/
def room (q : Queue) : Nat :=
  if 8388608 < q.base + 64 * q.size then 0 else q.clear ((q.size + 65536 - q.used) % 65536)

end Queue

/-- The header word of a message entry. -/
def headerOf (entry : List Byte) : Nat := bytesToNat (entry.take 8)

/-- LEN of a message header (R305). -/
def headerLen (h : Nat) : Nat := bits h 8 9

/-- A message with SEQ and OVF in its header (R305). -/
def sealMessage (entries : List (List Byte)) (seq : Nat) (ovf : Bool) : List (List Byte) :=
  match entries with
  | [] => []
  | e :: es =>
    let h := headerOf e
    let h := h - bits h 0 8 - 2 ^ 17 * bits h 17 1 + seq % 256 + bitAt ovf 17
    (natToBytes 8 h ++ e.drop 8) :: es

/-- Entries written into a ring from count `n` on, one line each. -/
def writeEntries (m : Memory) (q : Queue) : Nat → List (List Byte) → Memory
  | _, [] => m
  | n, e :: es => writeEntries (Memory.write m (q.entryOffset n) e) q (n + 1) es

/-- Queue `n` of a core. -/
def Core.queue (c : Core) (n : Nat) : Queue := c.queues.getD n Queue.reset

/-- The core with queue `n` replaced. -/
def Core.setQueue (c : Core) (n : Nat) (q : Queue) : Core := { c with queues := c.queues.set n q }

/-- The core has been saved and not resumed. -/
def Core.isSaved (c : Core) : Bool := match c.act with | .saved _ => true | _ => false

/-- Lines of a scratchpad that are written after its core has been saved are newer than the save area (R274). -/
def Core.touch (c : Core) (ls : List Nat) : Core :=
  if c.isSaved then { c with newer := c.newer ++ ls.filter fun l => !c.newer.contains l } else c

/-- The lines that `k` entries from count `n` on stand in. -/
def Queue.lines (q : Queue) (n k : Nat) : List Nat := (List.range k).map fun i => q.entryOffset (n + i) / 64

/-- A message delivered into the ring (R305, R306 step 2): entries, then TAIL; a handler message requests a start
(R308). Whole lines are written, so they are what every agent sees. -/
def Core.deliverMessage (c : Core) (n : Nat) (entries : List (List Byte)) (ovf : Bool) : Core :=
  let q := c.queue n
  let sealed_ := sealMessage entries q.count.toNat ovf
  let h := headerOf (sealed_.headD [])
  let ls := q.lines q.tail entries.length
  let c1 := { c with
    scratch := writeEntries c.scratch q q.tail sealed_
    oldLines := c.oldLines.filter fun o => o.cluster || !ls.contains o.line
    badLines := c.badLines.filter fun l => !ls.contains l }
  let c2 := (c1.touch ls).setQueue n { q with
    ptr := Queue.ptrOf q.freeCount q.head (q.tail + entries.length), count := q.count + 1, news := true }
  if bits h 18 1 = 1 then { c2 with starts := c2.starts ++ [(n, BitVec.ofNat 64 h)] } else c2

/-- The message at the front of the overflow area, where it can move into the ring (R306 steps 3 and 4). -/
def Queue.front (q : Queue) : Option (List (List Byte)) :=
  q.spilled.head?.filter fun m => q.open? && decide (m.length ≤ q.room) && decide (m.length ≤ q.size)

/-- The message at the front of the overflow area moves into the ring (R306 step 3). One that was read with an uncorrectable error
is delivered with its payload lines bad, all of it where it is a single entry (R316). -/
def Core.moveFront (c : Core) (n : Nat) : Core :=
  let q := c.queue n
  match q.front with
  | none => c
  | some m =>
    let d := (c.setQueue n { q with spilled := q.spilled.drop 1, spoiled := false }).deliverMessage n m true
    let head := min 1 (m.length - 1)
    { d with badLines := d.badLines ++ if q.spoiled then q.lines (q.tail + head) (m.length - head) else [] }

/-- How an arrival ended (R306, R307). -/
inductive Arrival where
  /-- Delivered into the ring. -/
  | delivered
  /-- Appended to the overflow area. -/
  | appended
  /-- Refused: the overflow area is full. -/
  | refused
  deriving DecidableEq, Repr

/-- Bytes that the overflow area of a queue holds. -/
def Queue.overBytes (q : Queue) : Nat := 64 * (q.spilled.map List.length).foldl (· + ·) 0

/-- A message arrives at queue `n` (R306); `area` is the size of its overflow area. -/
def Core.arrive (c : Core) (n area : Nat) (entries : List (List Byte)) : Core × Arrival :=
  let q := c.queue n
  if !q.open? || !q.spilled.isEmpty || decide (q.room < entries.length) then
    if area < q.overBytes + 64 * entries.length then (c, .refused)
    else (c.setQueue n { q with spilled := q.spilled ++ [entries] }, .appended)
  else (c.deliverMessage n entries false, .delivered)

end Sys2Proof.Machine
end

