-- ==== Sys2Proof/Machine/Sequence.lean ====
section
/-! DEFINITION. The order in which the macro-sequencer of a core runs its queue (R223, R224, R230): what it does next and at
which cycle. -/

namespace Sys2Proof.Machine

/-- Set `n` of a core's array. -/
def Matrix.set_ (m : Matrix) (n : Nat) : AccSet := m.sets.getD n AccSet.reset

namespace Matrix

/-- What follows a drain that has written, or the last step of a pass that is not drained: the operation has run, or the
nest goes on (R230, R236). -/
def drainDone (m : Matrix) (passes : Option Nat) : Matrix :=
  match passes with
  | none => { m with fin := true, stage := 0 }
  | some n => { m with npass := m.npass + 1, pass := m.pass + 1, inner := 0, stage := 0, fin := decide (n ≤ m.pass + 1) }

/-- The queue without an operation that has run. -/
def waiting (m : Matrix) : List MatEntry := if m.fin then m.queue.drop 1 else m.queue

/-- Operations queued or running at a cycle (R223). -/
def queued (m : Matrix) (cycle : Nat) : List MatEntry := if decide (m.lastEnd < cycle) then m.waiting else m.queue

/-- The array once the operation that has run leaves the queue. -/
def popped (m : Matrix) : Matrix :=
  if m.fin then { m with queue := m.queue.drop 1, fin := false, stage := 0, pass := 0, inner := 0 } else m

/-- The first cycle of the operation or part that starts now. -/
def startOf (m : Matrix) (q : MatEntry) : Nat := max (q.t0 + 1) (m.lastEnd + 1)

/-- The event that runs next for an operation at the front of the queue, and its cycle: a step or a load at its start, a
drain at its check. -/
def eventOf (m : Matrix) (core : Nat) (q : MatEntry) : Nat × Instr :=
  let start := m.startOf q
  let check (set : Nat) : Nat := max (start - 1) (m.set_ set).ready + 60
  match q.op with
  | .step _ _ _ => (start, .matrixStep core)
  | .latch _ _ _ => (start, .latchLoad core)
  | .clear _ => (start, .matrixClear core)
  | .row _ => (start, .matrixClear core)
  | .drain set _ _ _ => (check set, .drain core)
  | .nest _ set _ _ _ _ _ _ _ =>
    if m.stage = 0 then (start, .nestPass core)
    else if m.stage = 1 then (start, .matrixStep core)
    else (check set, .drain core)

/-- A part of an operation ends at `lastEnd`: operands that are read, a drain that writes, or an operation that has run. -/
def ending (m : Matrix) : Bool := m.job.isSome || m.stage == 4 || m.fin

/-- The event of the sequencer that starts next. -/
def nextEvent (m : Matrix) (core : Nat) : Option (Nat × Instr) := if m.ending then none else m.queue.head?.map (m.eventOf core)

/-- The earliest flags on their way. [DESIGN CHOICE, log 38: unsafe] -/
def firstFlags : List MatFlags → Option MatFlags
  | [] => none
  | f :: fs => match firstFlags fs with
    | none => some f
    | some g => if g.due < f.due then some g else some f

/-- The cycle of what the array does next: a part in hand ends, another one starts, or flags land. -/
def due (m : Matrix) : Option Nat :=
  let next := if m.ending then some (m.lastEnd + 1) else (m.nextEvent 0).map (·.1)
  match (firstFlags m.results).map (·.due), next with
  | some a, some b => some (min a b)
  | some a, none => some a
  | none, b => b

end Matrix

end Sys2Proof.Machine
end

