-- ==== Sys2Proof/Machine/Ops.lean ====
section
/-! DEFINITION. The named operations over a core: results that land (R61, R62, R66 to R68), trace entries (R276 to R278),
taking a trap (R260, R261, R264) and returning from one (R177, R264), and how a word of a bundle ends. Every word's
meaning is built from these. -/

namespace Sys2Proof.Machine

/-! Trace. -/

/-- A trace entry (R276). [DESIGN CHOICE, log 18: safe] -/
def traceEntry (kind : Nat) (mh hm : Bool) (time pc data : Nat) : BitVec 128 :=
  BitVec.ofNat 128 (data % 2 ^ 64 + 2 ^ 64 * (pc % 2 ^ 32) + 2 ^ 96 * (time % 2 ^ 26) + bitAt hm 122 + bitAt mh 123 +
    2 ^ 124 * kind)

/-- Whether an entry matches the trigger registers (R277, R278). -/
def Trace.hits (t : Trace) (kind pc data : Nat) : Bool :=
  flagOf t.triga 63 && fieldOf t.triga 56 4 == kind && (!flagOf t.triga 32 || fieldOf t.triga 0 32 == pc % 2 ^ 32) &&
    (t.trigb == 0 || (BitVec.ofNat 64 data &&& t.mask) == (t.trigb &&& t.mask))

/-- One entry written (R276 to R278): nothing once frozen; without WRAP the buffer freezes when it is full; POST entries
after the trigger it freezes. An entry that can not be written in its cycle is dropped, and only counts. -/
def Trace.put (t : Trace) (time : Nat) (e : BitVec 128) (drop : Bool) : Trace :=
  if t.stat.getLsbD 0 then t
  else if drop then { t with cnt := t.cnt + 1 }
  else
    let last := t.idx.toNat == 1023
    let after := if t.stat.getLsbD 1 then t.after + 1 else t.after
    let full := last && !flagOf t.ctl 1
    let done := t.stat.getLsbD 1 && decide (fieldOf t.ctl 16 16 ≤ after)
    { t with
      entries := Sparse.set t.entries t.idx.toNat e, idx := t.idx + 1, ts := BitVec.ofNat 64 time, cnt := t.cnt + 1
      after := after
      stat := t.stat ||| (if full || done then 1 else 0) ||| (if last && !full then 4 else 0) }

/-- Whether the next entry of the buffer is dropped: how many entries of a cycle can be written is left open (R278).
[DESIGN CHOICE, log 124: safe] -/
def Trace.drops (t : Trace) (fresh : Nat) : Bool := Config.choice fresh (2 ^ 64 + t.cnt.toNat) % 2 == 1

/-- The trigger fires: a KIND 11 entry, TRIGGERED, and the freeze at once where POST is zero (R278). -/
def Trace.fire (t : Trace) (fresh time : Nat) (mh hm : Bool) (pc : Nat) : Trace :=
  let t1 := t.put time (traceEntry 11 mh hm time pc 0) (t.drops fresh)
  { t1 with after := 0, stat := t1.stat ||| 2 ||| (if fieldOf t.ctl 16 16 = 0 then 1 else 0) }

/-- Recording is on for the executing context and mode (R277). -/
def Core.tracing (c : Core) : Bool := flagOf c.trace.ctl 0 && !(flagOf c.trace.ctl 3 && c.handlerMode)

/-- The core with a trace entry of a kind, where it records; the first matching entry fires the trigger (R278). -/
def Core.record (c : Core) (fresh time kind pc data : Nat) : Core :=
  if c.tracing then
    let t := c.trace.put time (traceEntry kind c.inHandler c.handlerMode time pc data) (c.trace.drops fresh)
    let t := if !c.trace.stat.getLsbD 1 && !c.trace.stat.getLsbD 0 && c.trace.hits kind pc data then
        t.fire fresh time c.inHandler c.handlerMode pc
      else t
    { c with trace := t }
  else c

/-! Results in flight. -/

/-- A result in flight to a register, landing `lat` cycles after the core's cycle. Two results on their way to one
register make both of them unspecified (R62); a result for p0 or k0 is dropped (R117). -/
def Core.send (c : Core) (port : Port) (lat : Nat) (l : Landing) : Core :=
  if port.fixed then c
  else
    let clash := port != .flags && c.landings.any (fun o => o.port == port)
    let old := if clash then c.landings.map (fun o => if o.port == port then { o with clash := true } else o)
      else c.landings
    { c with landings := old ++
      [{ l with port := port, t0 := c.cycle, due := c.cycle + lat, clash := clash, handler := c.inHandler,
                pc := c.iss.start }] }

/-- A landing of a value with nothing else to it; its place and time are set by `Core.send`. -/
def Landing.of (v : Nat) : Landing :=
  { port := .flags, t0 := 0, due := 0, val := BitVec.ofNat 512 v, timed := false, arrived := true, clash := false,
    flags := 0, offer := none, handler := false, pc := 0, id := 0, err := none, wants := [], ext := 0,
    ready := 0, residue := false, applied := false }

/-- A value lands in a register. -/
def Core.land (c : Core) (port : Port) (lat : Nat) (v : Nat) : Core := c.send port lat (Landing.of v)

/-- A value lands together with flags and their element (R149). -/
def Core.landFlagged (c : Core) (port : Port) (lat v : Nat) (flags : BitVec 8) (offer : Option Offer) : Core :=
  -- a write to p0 or k0 is ignored, its flags land
  c.send (if port.fixed then .flags else port) lat { Landing.of v with flags := flags, offer := offer }

/-- The value that a landing writes: a free value where two results met (R62). [DEDUCED, log 11: safe] -/
def Landing.value (l : Landing) (fresh : Nat) : Vec :=
  if l.clash then Config.freeWord fresh (l.t0 + 1) (5000 + l.port.code) else l.val

/-- A machine check of the core's own structures at the bundle that would issue next, for what a level of the core asked
for (R125, R263, R269). [DESIGN CHOICE, log 15: safe; DESIGN CHOICE, log 37: unsafe] -/
def Core.levelCheck (c : Core) (level : Nat) (tval : W64) : Core :=
  let pc := (if level = 2 then c.hand else c.main).pc
  { c with requests := c.requests ++
    [{ code := 1, tval := tval, tbundle := pc, xcode := 1, deferred := false, epc := none, level := level }] }

/-- The level of what a context does now: the strand, its trap handler, or the message handler (R263). -/
def Core.levelOf (c : Core) (handler : Bool) : Nat := if handler then 2 else if c.main.hmode then 1 else 0

/-- A machine check of a delivery to a context (R125, R269). -/
def Core.ownCheck (c : Core) (handler : Bool) (tval : W64) : Core := c.levelCheck (c.levelOf handler) tval

/-- The machine check of a residue mismatch, requested at the landing (R269). -/
def Core.residueCheck (c : Core) (l : Landing) : Core :=
  if l.residue then
    { c with requests := c.requests ++
      [{ code := 1, tval := BitVec.ofNat 64 l.pc, tbundle := l.pc, xcode := 2, deferred := true, epc := none
         level := c.levelOf l.handler }] }
  else c

/-- The register that a landing writes; none where the trap arbiter has applied its write already (R304). -/
def Landing.target (l : Landing) : Port := if l.applied then .flags else l.port

/-- One result lands: the register first, then its flags (R124, R149). A result with an uncorrectable error leaves a free
value and raises its machine check (R269). [DESIGN CHOICE, log 15: safe] -/
def Core.deliver (c : Core) (time fresh : Nat) (l : Landing) : Core :=
  match l.err with
  | none =>
    ((c.writePort time l.target (l.value fresh)).landFlags l.handler (c.levelOf l.handler) l.pc l.flags l.offer).residueCheck l
  | some tval =>
    (c.writePort time l.port (Config.freeWord fresh (l.t0 + 1) (7000 + l.port.code))).ownCheck l.handler tval

/-- Of two results the one that lands first; a control register before the others of its cycle (R124). -/
def Landing.sooner (a b : Landing) : Bool :=
  let k : Port → Nat := fun p => match p with | .creg _ _ => 0 | _ => 1
  decide (a.due < b.due) || (a.due == b.due && decide (k a.port < k b.port))

/-- The result that lands next. -/
def firstLanding : List Landing → Option Landing
  | [] => none
  | l :: ls => match firstLanding ls with
    | none => some l
    | some m => if m.sooner l then some m else some l

/-- Results land up to a cycle. A result whose data has not arrived freezes the clock domain at its cycle (R68): the core
stays there. `fuel` bounds the results in flight. -/
def Core.advanceLoop (c : Core) (time fresh t : Nat) : Nat → Core
  | 0 => { c with cycle := max c.cycle t }
  | fuel + 1 =>
    match firstLanding c.landings with
    | none => { c with cycle := max c.cycle t }
    | some l =>
      if t < l.due then { c with cycle := max c.cycle t }
      else if !l.arrived then { c with cycle := max c.cycle l.due }
      else
        Core.advanceLoop (({ c with cycle := max c.cycle l.due, landings := c.landings.erase l }).deliver time fresh l)
          time fresh t fuel

/-- The core at a later cycle, or frozen before it. -/
def Core.advance (c : Core) (time fresh t : Nat) : Core := c.advanceLoop time fresh t (c.landings.length + 1)

/-- The cycle of the last result in flight. -/
def Core.lastDue (c : Core) : Nat := maxOf (c.landings.map (·.due))

/-- The clock domain is frozen: a result is due whose data has not arrived, or the array lacks operand lines (R68, R224).
[DEDUCED, log 21: unsafe] -/
def Core.stuck (c : Core) : Bool := c.mat.late || c.landings.any fun l => !l.arrived && decide (l.due ≤ c.cycle)

/-- The clock period that the core's cycle falls in: every period is a cycle or frozen (R4, R124). -/
def Core.period (c : Core) : Nat := c.cycle + c.frozen.toNat

/-- The first cycle at which a result whose data has not arrived is due: nothing of the clock domain goes on at it or after
it before the data is there (R68). -/
def Core.frozenFrom (c : Core) : Option Nat :=
  (c.landings.filter (!·.arrived)).foldl (fun m l => some (min (m.getD l.due) l.due)) none

/-- A result that has not arrived is due by the cycle at which the next bundle would issue. -/
def Core.waitsForData (c : Core) : Bool := c.landings.any fun l => !l.arrived && decide (l.due ≤ c.issueAt)

/-- The answer to an operation has come (R66, R68): a timed one waits in the threshold buffer, or, where the core is frozen
for it, its arrival ends the freeze by an event of its own. -/
def State.answer (s : State) (core id : Nat) (v : Vec) : State :=
  let c := s.core core
  let late := c.landings.any fun l => l.id == id && l.timed && decide (l.due ≤ c.cycle)
  let c := { c with landings := c.landings.map fun l =>
    if l.id = id then { l with val := v, id := 0, arrived := !l.timed || decide (c.cycle < l.due) } else l }
  let s := s.setCore core c
  if late then s.push (.lateDataArrival core (Config.periods s.fresh) false) else s

/-! Traps. -/

/-- A bundle boundary of this context may take the request (R263, R266). [DEDUCED, log 17: unsafe] -/
def Core.mayTake (c : Core) (r : Request) : Bool :=
  if r.code == 2 && c.iss.mark == .stalled then false
  else if c.inHandler then r.level == 2 else if c.main.hmode then r.level == 1 else decide (r.level ≤ 1)

/-- The requests among which the arbiter chooses. -/
def Core.candidates (c : Core) : List Request := c.held.toList ++ c.requests.filter c.mayTake

/-- Of several requests the one of highest priority, the earliest one among equals (R259). [DEDUCED, log 13: unsafe] -/
def bestRequest : List Request → Option Request
  | [] => none
  | r :: rs => match bestRequest rs with
    | none => some r
    | some q => if q.code < r.code then some q else some r

/-- PEND: the codes of the requests that stay pending (R262). -/
def Core.pendingCodes (c : Core) (rs : List Request) : BitVec 16 :=
  let codes := rs.map (·.code) ++ (if c.preempt then [16] else [])
  codes.foldl (fun p n => p ||| BitVec.ofNat 16 (2 ^ (n - 1))) 0

/-- The contents of a cause bank at the entry of a request (R261). -/
def Request.bank (r : Request) (epc : Nat) (pend : BitVec 16) : Bank :=
  { epc := BitVec.ofNat 32 epc, v := true, xcode := BitVec.ofNat 8 r.xcode, pend := pend, deferred := r.deferred,
    code := BitVec.ofNat 5 r.code, tval := r.tval, tbundle := BitVec.ofNat 32 r.tbundle }

/-- The trap may enter, and in which bank: the first bank from outside handler mode, the second one after TRAPACK
(R261, R264, R266). None: the core halts. A second bank that is valid is level 2, whatever the first one holds (R262). -/
def Core.entryBank (c : Core) : Option Bool :=
  let x := c.ctx
  let fresh := if c.inHandler then !x.bank1.v && !x.bank2.v else !x.hmode
  if fresh then some x.bank1.v
  else if x.bank2.v then none
  else if x.tack then some true
  else none

/-- The core's strand is on its way out, or waits for the answer that decides it (R25, R86). [DEDUCED, log 16: unsafe] -/
def Core.suspending (c : Core) : Bool :=
  match c.act with
  | .leaving _ => true
  | .asking _ => true
  | _ => false

/-- A machine check is entered in the transom record of the die (R269, R356), whether its trap enters or halts the core. -/
def State.noteCheck (s : State) (core : Nat) (r : Request) (bank : Bank) : State :=
  if r.code = 1 then
    s.dieEvent (dieOfCore core) 0x01 core (bank.cause.toNat + 2 ^ 64 * bank.tval.toNat + 2 ^ 128 * bank.epc.toNat)
  else s

/-- enter of R261: the cause registers are saved, handler mode is set, and control goes to TVEC; the first handler bundle
issues three cycles after the last landing. Where the double-fault rule forbids the entry, the core halts with the cause in
its second bank (R264, R265). Every result has landed before. [DEDUCED, log 13: unsafe] -/
def State.enter (s : State) (core : Nat) (r : Request) : State :=
  let c := s.core core
  let x := c.ctx
  let epc := r.epc.getD x.pc
  let left := c.requests.erase r
  let bank := r.bank epc (c.pendingCodes left)
  match c.entryBank with
  | none =>
    let c := c.setCtx { x with bank2 := bank }
    ((s.setCore core { c with requests := left, held := none }).noteCheck core r bank).haltCore core
  | some second =>
    let y := if second then { x with bank2 := bank } else { x with bank1 := bank }
    let y := { y with
      hmode := true, tack := false, pc := x.tvec.toNat, origin := 3, from_ := r.tbundle
      suspp := x.suspp || (!c.inHandler && c.suspending) }
    let c := (c.setCtx y).record s.fresh s.time 2 r.tbundle (bank.cause.toNat % 2 ^ 32 + 2 ^ 32 * (r.tval.toNat % 2 ^ 32))
    let s := s.setCore core
      { c with requests := left, held := none, walkMiss := [], issueAt := c.cycle + 3, wdHeld := c.wdHeld && r.code != 2 }
    s.noteCheck core r bank

/-- The cycle of the boundary at which a request meets the core, once the last result has landed (R260). -/
def Core.entryCycle (c : Core) : Nat := max (if c.held.isSome then c.cycle else min c.issueAt (c.cycle + 1)) c.lastDue

/-- Where a request meets a bundle boundary (R260): every result lands, then the request of highest priority enters. A
result that has not arrived freezes the core; the entry follows once it has. The array goes on, and what it does by the
cycle of the last landing comes first. [DEDUCED, log 13: unsafe] -/
def State.tryEntry (s : State) (core : Nat) : State :=
  let c := s.core core
  let last := c.entryCycle
  let first := c.mat.due.any fun t => decide (t ≤ last)
  let c := c.advance s.time s.fresh (match c.mat.due with | some t => min t last | none => last)
  let s := s.setCore core c
  if c.landings.isEmpty && !first then
    match bestRequest c.candidates with
    | none => s
    | some r => s.enter core r
  else s

/-- A precise fault that names its own EPC and TBUNDLE (R259, R260, R268): no word of the bundle in hand executes, and the
trap is taken. -/
def State.faultAt (s : State) (code : Nat) (tval : W64) (xcode epc tbundle : Nat) : State :=
  let s := s.onHere fun c =>
    { c with
      held := some { code := code, tval := tval, tbundle := tbundle, xcode := xcode, deferred := false,
                     epc := some epc, level := c.level }
      iss := { c.iss with mark := .trapped code } }
  s.tryEntry s.cur

/-- The bundle in hand raises a precise fault (R259). -/
def State.fault (s : State) (code : Nat) (tval : W64) (xcode : Nat) : State :=
  s.faultAt code tval xcode s.here.iss.start s.here.iss.start

/-- An illegal-instruction trap that names the word (R58, R259). -/
def State.illegal (s : State) : State := s.fault 4 (s.here.iss.raw.setWidth 64) 0

/-- An illegal-instruction trap with a value that its description gives. -/
def State.illegalWith (s : State) (tval : W64) : State := s.fault 4 tval 0

/-- An alignment trap (R116). -/
def State.misaligned (s : State) (tval : W64) : State := s.fault 10 tval 0

/-- A request of a core that stays until a boundary takes it (R259, kinds D and A). -/
def Core.request (c : Core) (r : Request) : Core := { c with requests := c.requests ++ [r] }

/-- The bundle in hand can not issue yet; cycles pass (R223, R244 and others). -/
def State.stall (s : State) : State := s.onHere fun c => { c with iss := { c.iss with mark := .stalled } }

/-- The bundle in hand can not issue and the clock domain freezes (R67). -/
def State.freezeFull (s : State) : State := s.onHere fun c => { c with iss := { c.iss with mark := .frozen } }

/-- A word that is not legal in the message-handler context (R118, R178). [DEDUCED, log 24: safe] -/
def State.mainOnly (s : State) (t : State) : State := if s.here.inHandler then s.illegal else t

/-! Where a word stands. -/

/-- Sequence number of the word in hand (R20). -/
def State.osn (s : State) : W64 := s.here.ctx.osn + BitVec.ofNat 64 s.here.iss.slot

/-- Logical index of the executing context; zero for the message handler (R121). -/
def State.lidx (s : State) : W64 := if s.here.inHandler then 0 else s.here.main.lidx

/-- JKEY of the launch (R392). -/
def State.jkey (s : State) : W64 := match s.hub.launch with | some l => l.jkey | none => 0

/-- The stochastic-rounding value of the word in hand: the counter advanced by what the bundle has taken (R145). -/
def State.srValue (s : State) : W64 := s.here.ctx.src + BitVec.ofNat 64 s.here.iss.srUsed

/-- The word in hand consumes a stochastic-rounding value where its mode rounds stochastically (R145).
[DEDUCED, log 24: safe] -/
def State.takeSr (s : State) (uses : Bool) : State :=
  if uses && fieldOf s.mode 0 3 == 4 then
    s.onHere fun c => { c with iss := { c.iss with srUsed := c.iss.srUsed + 1 } }
  else s

/-- The roundings of the word in hand for result element `e` (R141, R144). -/
def State.rnd (s : State) (mode : W64) (e : Nat) : Rnd :=
  Rnd.ofMode mode (if fieldOf mode 0 3 = 4 then srbits s.jkey s.lidx s.srValue e else 0)

/-- The issuer of an operation that leaves the core (R94, R367). -/
def State.issuer (s : State) : Issuer :=
  let c := s.here
  { core := s.cur, handler := c.inHandler, lidx := s.lidx, osn := s.osn, mode := s.mode, src := s.srValue,
    pc := c.iss.start
    dslot := if c.inHandler then 0 else match c.strand with | some r => r.dslot | none => 0
    phase := match s.hub.launch with | some l => BitVec.ofNat 32 l.phase | none => 0
    launch := match s.hub.launch with | some l => l.ident | none => 0 }

/-- The latency of a timed word: its delay adds nothing in handler mode, whose pipes interlock (R66, R178). -/
def Core.timedLatency (c : Core) (minimum delay : Nat) : Nat := if c.handlerMode then minimum else minimum + delay

/-- A timed result whose value is known at issue is on its way. [DEDUCED, log 26: unsafe] -/
def State.timedNow (s : State) (port : Port) (minimum delay v : Nat) : State :=
  s.onHere fun c => c.send port (c.timedLatency minimum delay) { Landing.of v with timed := true }

/-- A timed result whose value is known at issue: it takes an entry of the threshold buffer, without which the bundle
does not issue (R67). -/
def State.timed (s : State) (port : Port) (minimum delay v : Nat) : State :=
  if 64 ≤ s.here.buffered then s.freezeFull else s.timedNow port minimum delay v

/-- An operation leaves the core, and its timed result awaits the answer (R68). -/
def State.askNow (s : State) (port : Port) (minimum delay : Nat) (op : Op) : State :=
  (s.addOp s.issuer op).onHere fun c =>
    c.send port (c.timedLatency minimum delay) { Landing.of 0 with timed := true, arrived := false, id := s.nextId }

/-- A timed result that an arbiter will form, with an entry of the threshold buffer (R67). -/
def State.timedOp (s : State) (port : Port) (minimum delay : Nat) (op : Op) : State :=
  if 64 ≤ s.here.buffered then s.freezeFull else s.askNow port minimum delay op

/-! Control. -/

/-- The latency of the bundle is at least `n` cycles. -/
def State.takes (s : State) (n : Nat) : State :=
  s.onHere fun c => { c with iss := { c.iss with lat := max c.iss.lat n } }

/-- A taken branch to a word offset (R70, R172): the target issues `n` cycles later, and the loop buffer is released; in
handler mode the loop belongs to the code that was left, and stays (R120, R173). -/
def State.branch (s : State) (target : Nat) (n : Nat) : State :=
  s.onHere fun c =>
    { c with
      iss := { c.iss with npc := target, taken := true, origin := 1, lat := max c.iss.lat n }
      loop := if c.handlerMode then c.loop else { c.loop with active := false, body := [] } }

/-- The drain bit (R71). -/
def State.drainBit (s : State) (r : BitVec 1) : State :=
  if r = 1 then s.onHere fun c => { c with iss := { c.iss with drain := true } } else s

/-- Number of words of the code range (R69); zero while no code entry is held. -/
def Core.codeWords (c : Core) : Nat :=
  match c.codeEntry with | some d => (d.vlimit - d.vbase) / 4 | none => 0

/-- Word offset of the first word of the packet `d` packets from the one that holds the word (R69). -/
def packetTarget (word : Nat) (d : Int) : Nat := (w64 (3 * ((word / 3 : Nat) + d))).toNat

/-- Control leaves trap-handler mode or its second level (R177, R264). At level 1 the main context resumes at EPC, or the
pending suspension completes; at level 2 the handler resumes at EPC2 with TRAPACK in force. The watchdog restarts.
[DEDUCED, log 16: unsafe] -/
def State.returnFromTrap (s : State) : State :=
  s.onHere fun c =>
    let x := c.main
    let c := { c with wdStart := s.time, wdHeld := false }
    if x.bank2.v then
      let y := { x with bank2 := { x.bank2 with v := false }, tack := true }
      { c with main := y, iss := { c.iss with npc := x.bank2.epc.toNat, taken := true, origin := 2, lat := 3 } }
    else
      let y := { x with bank1 := { x.bank1 with v := false }, tack := false, hmode := false }
      { c with main := y, iss := { c.iss with npc := x.bank1.epc.toNat, taken := true, origin := 2, lat := 3 } }

/-- The message-handler run ends (R177, R120, R266): the main context issues in the next cycle. -/
def State.endHandler (s : State) : State :=
  s.onHere fun c =>
    let x := c.hand
    { c with
      inHandler := false
      hand := { x with bank1 := { x.bank1 with v := false }, bank2 := { x.bank2 with v := false }, hmode := false }
      wdStart := s.time
      wdHeld := false }

end Sys2Proof.Machine
end

