-- ==== Sys2Proof/Machine/Translate.lean ====
section
/-! DEFINITION. Translation at issue (R244 to R247): the core's range table, the walker's answers, the checks of an
access with their traps, the counts of accesses in flight, and bindings. -/

namespace Sys2Proof.Machine

/-- Accesses need these permission bits (R240, R246). -/
def permR : BitVec 9 := 1
/-- Write. -/
def permW : BitVec 9 := 2
/-- Synchronisation. -/
def permS : BitVec 9 := 8
/-- Meet. -/
def permM : BitVec 9 := 16

/-- The range set through which the executing context translates (R243, R244). -/
def State.wantedSet (s : State) : Nat :=
  let launchSet := match s.hub.launch with | some l => l.rset | none => 0
  if s.here.inHandler then launchSet
  else match s.here.strand with | some r => r.rset.toNat | none => launchSet

/-- The range table holds the wanted set: a handler word that finds another one invalidates the table and records its own
(R244). -/
def State.useSet (s : State) : State :=
  let want := s.wantedSet
  s.onHere fun c =>
    if c.tableSet = some want then c
    else { c with table := [], tableSet := some want, savedSet := if c.inHandler then c.tableSet else c.savedSet }

/-- The descriptor of a table or set that holds an address. -/
def descAt (ds : List Desc) (va : Nat) : Option Desc := ds.find? fun d => decide (d.vbase ≤ va) && decide (va < d.vlimit)

/-- A descriptor at the front of the table, the least recently used one lost beyond 32 entries (R244). -/
def tableWith (ds : List Desc) (d : Desc) : List Desc := (d :: ds.filter (fun e => e.rid != d.rid)).take 32

/-- What a lookup gives. -/
inductive Lookup where
  /-- A descriptor. -/
  | hit (s : State) (d : Desc)
  /-- The walker has answered that no range holds the address. -/
  | miss (s : State)
  /-- The bundle waits for the walker. -/
  | wait (s : State)

/-- A range instruction of the core in hand waits for its first step (R249). -/
def State.rangeAsked (s : State) : Bool :=
  s.ops.any fun p => p.by_.core == s.cur && (match p.op with | .rangeAsk _ _ _ => true | _ => false)

/-- A lookup in the range table of the core (R244): on a miss a walk is asked for and the bundle waits. It also waits for
the first step of the core's earlier range instructions (R249). -/
def State.lookup (s : State) (va : Nat) : Lookup :=
  let s := s.useSet
  if s.rangeAsked then .wait s.stall
  else match descAt s.here.table va with
  | some d => .hit (s.onHere fun c => { c with table := tableWith c.table d }) d
  | none =>
    if s.here.walkMiss.contains (s.wantedSet, va) then .miss s
    else
      let e := Instr.rangeWalk s.cur false va
      .wait (if s.agenda.contains e then s else s.push e).stall

/-- The physical address of a virtual one inside a descriptor (R240). -/
def Desc.physical (d : Desc) (va : Nat) : Nat := d.poff + (va - d.vbase)

/-- The first failing check of an access of `len` bytes (R247): trap code and TVAL. `plain` accesses may not touch a sync
range (R246). -/
def Desc.check (d : Desc) (va len : Nat) (need : BitVec 9) (plain : Bool) : Option (Nat × Nat) :=
  if d.vlimit < va + len then some (8, d.vlimit)
  else if (d.perm &&& need) ≠ need ∨ (plain ∧ d.perm.getLsbD 3) then some (7, va)
  else if len = 0 then none
  else if va < d.rbase then some (9, va)
  else if d.rlimit < va + len then some (9, max va d.rlimit)
  else none

/-- The binding of an access (R247). -/
def Desc.bind (d : Desc) (va : Nat) : Bound :=
  { rid := d.rid, version := d.version, va := va, pa := d.physical va, key := d.key, perm := d.perm,
    woff := va - d.rbase }

/-- An access in flight is counted in the cluster of the core in hand (R245). -/
def State.acquire (s : State) (b : Bound) : State :=
  s.onCluster (clusterOf s.cur) fun c => c.setCount (b.rid, b.version) (c.count (b.rid, b.version) + 1)

/-- The accesses of a word are counted in flight, if the cluster's count table of 64 entries has room (R245). -/
def State.acquireAll (s : State) (bs : List Bound) : Option State :=
  let t := bs.foldl State.acquire s
  if 64 < (t.cluster (clusterOf s.cur)).counts.length then none else some t

/-- Outcome of translating an access. -/
inductive Trans where
  /-- Bound. -/
  | ok (s : State) (b : Bound)
  /-- A trap has been taken, or the bundle waits. -/
  | stop (s : State)

/-- An access is translated, checked and bound (R246, R247). [DEDUCED, log 12: unsafe] -/
def State.translate (s : State) (va len : Nat) (need : BitVec 9) (plain : Bool) : Trans :=
  match s.lookup va with
  | .wait s => .stop s
  | .miss s => .stop (s.fault 8 (BitVec.ofNat 64 va) 0)
  | .hit s d =>
    match d.check va len need plain with
    | some (code, tval) => .stop (s.fault code (BitVec.ofNat 64 tval) 0)
    | none => .ok s (d.bind va)

/-- An effect of a word whose accesses are bound: they are counted in flight, or the bundle waits (R245). -/
def State.counted (s : State) (bs : List Bound) (f : State → State) : State :=
  match s.acquireAll bs with
  | some t => f t
  | none => s.stall

/-- A synchronisation object or cell: die and object number of a binding into the sync region (R242, R342). -/
def Bound.object (b : Bound) : Nat × Nat := (b.pa / 2 ^ 40 % 8, b.pa % 2 ^ 40 / 64)

/-- Updates between their second and their fourth step (R248). -/
def State.updates (s : State) : List RangeUpd :=
  s.ops.filterMap fun p => match p.op with | .range u => some u | _ => none

/-- A descriptor of this RID is locked by an update (R248). -/
def State.lockedRid (s : State) (rid : Nat) : Bool :=
  s.updates.any fun u => u.made.contains rid || u.old.any fun d => d.rid == rid

/-- A descriptor of a set that holds an address is locked by an update. [DEDUCED, log 39: unsafe] -/
def State.lockedAt (s : State) (set va : Nat) : Bool :=
  s.updates.any fun u => u.set == set && (descAt u.old va).isSome

/-- The bundle that TBUNDLE names for a fetch fault: for XCODE 1, and for XCODE 4 at a bundle that a branch has reached, the branch's;
else the bundle that was to be fetched (R268). [DESIGN CHOICE, log 136: unsafe] -/
def Ctx.fetchBundle (x : Ctx) (xcode : Nat) : Nat :=
  if x.origin = 1 ∧ (xcode = 1 ∨ xcode = 4) then x.from_ else x.pc

/-- RANGE_WALK (R244): the walker's answer to a range-table miss, or the load of the code entry by its RID. A descriptor
locked by an update is waited for. -/
def execRangeWalk (core : Nat) (code : Bool) (va : Nat) (s : State) : Host.Outcome State Fault Refusal :=
  let c := s.core core
  if code then
    match s.hub.launch with
    | none => .next s
    | some l =>
      let all := s.hub.dir.flatMap (·.2)
      if s.lockedRid l.coderid then .next (s.push (.rangeWalk core code va))
      else match all.find? (fun d => d.rid == l.coderid) with
      | some d => .next (s.setCore core { c with codeEntry := some d, codeLaunch := some l.num })
      | none =>
        -- no range of that RID: the fetch that asked for it fails by R247
        let x := c.ctx
        let s := { s with cur := core }
        let s := s.onHere fun c => { c with iss := { Issue.reset with start := x.pc, word := x.pc } }
        let xcode := if x.origin = 3 then 3 else 4
        .next (s.faultAt 3 (BitVec.ofNat 64 (l.codeBase + 4 * x.pc)) xcode x.pc (x.fetchBundle xcode))
  else
    match c.tableSet with
    | none => .next s
    | some set =>
      if s.lockedAt set va then .next (s.push (.rangeWalk core code va))
      else match descAt ((Sparse.get? s.hub.dir set).getD []) va with
      | some d => .next (s.setCore core { c with table := tableWith c.table d })
      | none => .next (s.setCore core { c with walkMiss := c.walkMiss ++ [(set, va)] })

end Sys2Proof.Machine
end

