-- ==== Sys2Proof/Machine/Global.lean ====
section
/-! DEFINITION. Reads and writes of global memory under phase consistency (R94 to R102): shadows of versioned ranges, the
precedence of R95, plain ranges with their races, and reduction stores. -/

namespace Sys2Proof.Machine

/-- The POST chain from a strand up to an ancestor: the sequence number of the ancestor's POST (R95). `fuel` bounds the
chain. -/
def postBy (posts : List Ancestor) (a : W64) : Nat → W64 → Option W64
  | 0, _ => none
  | fuel + 1, b =>
    match posts.find? (fun p => p.child == b) with
    | none => none
    | some p => if p.parent = a then some p.osn else postBy posts a fuel p.parent

/-- An access by strand `a` at a sequence number precedes one by strand `b` (R82, R95). A word that stands before the POST in
its own bundle precedes it, too. [DESIGN CHOICE, log 122: unsafe] -/
def precedes (posts : List Ancestor) (a aosn b bosn : W64) : Bool :=
  if a = b then decide (aosn < bosn)
  else match postBy posts a (posts.length + 1) b with
    | some osn => decide (aosn < osn)
    | none => false

/-- The order of two writes of one chain; units of one operation by their order in it. -/
def ShadowWrite.before (posts : List Ancestor) (v w : ShadowWrite) : Bool :=
  if v.lidx = w.lidx ∧ v.osn = w.osn then decide (v.sub < w.sub) else precedes posts v.lidx v.osn w.lidx w.osn

/-- A write put into its place among ordered ones. -/
def insertWrite (posts : List Ancestor) (w : ShadowWrite) : List ShadowWrite → List ShadowWrite
  | [] => [w]
  | v :: vs => if w.before posts v then w :: v :: vs else v :: insertWrite posts w vs

/-- Writes in their order. -/
def orderWrites (posts : List Ancestor) (ws : List ShadowWrite) : List ShadowWrite :=
  ws.foldl (fun l w => insertWrite posts w l) []

/-- The mask of the bits of the bytes that a byte mask names. -/
def byteMask (m : BitVec 8) : W64 := BitVec.ofNat 64 (((List.range 8).map fun i => if m.getLsbD i then 255 * 256 ^ i else 0).foldl (· + ·) 0)

/-- A unit after one write (R96, R99). [DEDUCED, log 80: unsafe] -/
def ShadowWrite.apply (v : W64) (w : ShadowWrite) : W64 :=
  if w.kind = 0 then (v &&& ~~~byteMask w.mask) ||| (w.data &&& byteMask w.mask) else v + w.data

/-- The writes of the open phase to a unit. -/
def State.shadowsAt (s : State) (pa : Nat) : List ShadowWrite :=
  match s.hub.launch with
  | some l => l.writes.filter fun w => w.pa == pa
  | none => []

/-- The POSTs of the open phase. -/
def State.posts (s : State) : List Ancestor := match s.hub.launch with | some l => l.posts | none => []

/-- A unit of HBM as memory holds it. -/
def State.unit (s : State) (key pa : Nat) : W64 := BitVec.ofNat 64 (bytesToNat (s.hbmBytes key pa 8))

/-- A unit of a versioned range as an access sees it (R96, R102): the writes that precede it over the snapshot. `pa` names
the unit, `at_` is where its snapshot stands while the range moves. -/
def State.versionedUnit (s : State) (by_ : Issuer) (key pa at_ : Nat) : W64 :=
  if by_.handler then s.unit key at_
  else
    let ws := (s.shadowsAt pa).filter fun w => precedes s.posts w.lidx w.osn by_.lidx by_.osn
    (orderWrites s.posts ws).foldl ShadowWrite.apply (s.unit key at_)

/-- The number of a writer in the list of plain writes: a strand's logical index; a message handler is no strand
(R102). -/
def Issuer.writer (i : Issuer) : Nat := if i.handler then 2 ^ 64 + i.core else i.lidx.toNat

/-- Values of a unit before writes of other strands in the phase, since the reader's own last write to it (R101).
[DESIGN CHOICE, log 112: unsafe] -/
def olderValues (ws : List PlainWrite) (me pa : Nat) : List W64 :=
  ws.foldl (fun l w => if w.pa = pa then (if w.writer = me then [] else l ++ [w.old]) else l) []

/-- A unit of a plain range as an access sees it: where another strand wrote it in the phase, the value before or after
that write, unspecified which (R101). [DESIGN CHOICE, log 112: unsafe] -/
def State.plainUnit (s : State) (by_ : Issuer) (key pa : Nat) : W64 :=
  let now := s.unit key pa
  match s.hub.launch with
  | none => now
  | some l =>
    match olderValues l.pwrites by_.writer pa with
    | [] => now
    | vs => (choose s.fresh (7000 + pa) (now :: vs)).getD now

/-- V attribute of a binding. -/
def Bound.versioned (b : Bound) : Bool := b.perm.getLsbD 5

/-- A byte of global memory as an access sees it. -/
def State.globalByte (s : State) (by_ : Issuer) (b : Bound) (offset : Nat) : Byte :=
  let pa := s.redirect b offset
  let u := pa / 8 * 8
  let key := s.keyNo b.key
  let v := if b.versioned then s.versionedUnit by_ key ((b.pa + offset) / 8 * 8) u else s.plainUnit by_ key u
  BitVec.ofNat 8 (fieldOf v (8 * (pa % 8)) 8)

/-- `n` bytes of global memory from an offset of a binding on. -/
def State.globalRead (s : State) (by_ : Issuer) (b : Bound) : Nat → Nat → List Byte
  | _, 0 => []
  | offset, n + 1 => s.globalByte by_ b offset :: State.globalRead s by_ b (offset + 1) n

/-- How a global write ended. -/
inductive Wrote where
  /-- Stored. -/
  | ok
  /-- A poisoned block refused a partial write (R406). -/
  | refused
  /-- No shadow granule was free (R97). -/
  | dropped
  deriving DecidableEq, Repr

/-- The worse of two ends. -/
def Wrote.worse : Wrote → Wrote → Wrote
  | .ok, w => w
  | w, .ok => w
  | .dropped, _ => .dropped
  | .refused, w => w

/-- Shadow records in use: one for each writer and granule of 128 bytes (R97, R411). -/
def shadowRecords (ws : List ShadowWrite) : List (W64 × Nat) := (ws.map fun w => (w.lidx, w.pa / 128)).eraseDups

/-- The launch with one more write to a versioned range, if its shadow area has room (R97, R411). -/
def Launch.shadowed (l : Launch) (w : ShadowWrite) : Launch × Wrote :=
  let used := shadowRecords l.writes
  if used.contains (w.lidx, w.pa / 128) || decide (used.length < l.shadow / 512) then
    ({ l with writes := l.writes ++ [w] }, .ok)
  else ({ l with dropped := true }, .dropped)

/-- The set whose descriptor has a RID, be it one that an update is about to replace or to remove; RIDs are unique across the
job (R243). -/
def State.setOf (s : State) (rid : Nat) : Nat :=
  match s.hub.dir.find? fun x => x.2.any fun d => d.rid == rid with
  | some x => x.1
  | none => match s.updates.find? fun u => u.old.any fun d => d.rid == rid with
    | some u => u.set
    | none => 0

/-- A unit written to a versioned range (R97, R395). -/
def State.shadowUnit (s : State) (by_ : Issuer) (b : Bound) (pa sub kind : Nat) (u : FoldUnit) : State × Wrote :=
  match s.hub.launch with
  | none => (s, .ok)
  | some l =>
    -- what a launch that has ended still writes to a versioned range is discarded with its shadows (R395)
    if l.ident ≠ by_.launch then (s, .ok) else
    let r := l.shadowed { lidx := by_.lidx, osn := by_.osn, sub := sub, set := s.setOf b.rid, va := u.va, pa := pa, key := b.key,
                          kind := kind, mask := u.mask, data := u.data }
    (s.onLaunch fun _ => r.1, r.2)

/-- The plain writes with one more; further bytes that one turn stores to a unit are part of one write (R101). -/
def addPlain (ws : List PlainWrite) (w : PlainWrite) : List PlainWrite :=
  match ws.reverse.find? fun v => v.pa == w.pa with
  | some v => if v.writer = w.writer ∧ v.turn = w.turn then ws else ws ++ [w]
  | none => ws ++ [w]

/-- A write to a plain range is remembered with the unit's value before it, and the phase can not be re-executed (R101,
R113). -/
def State.notePlain (s : State) (by_ : Issuer) (pa : Nat) (old : W64) : State :=
  s.onLaunch fun l =>
    { l with pwrites := addPlain l.pwrites { writer := by_.writer, turn := s.fresh, pa := pa, old := old }, marked := true }

/-- The bytes of a unit that its mask names, from the first one on. -/
def FoldUnit.bytes (u : FoldUnit) : Nat × List Byte :=
  let first := trailingZeros (u.mask.setWidth 64) 64
  (first, (natToBytes 8 u.data.toNat).drop first |>.take (onesBelow u.mask 8))

/-- The units of a write to a versioned range, one by one; `base` is the virtual address of the binding. -/
def State.storeUnits (s : State) (by_ : Issuer) (b : Bound) (base sub : Nat) : List FoldUnit → Wrote → State × Wrote
  | [], w => (s, w)
  | u :: us, w =>
    -- offset of the first byte of the unit in the binding, which may begin inside it
    let first := u.bytes.1
    let offset := u.va + first - base
    let r := s.shadowUnit by_ b ((b.pa + offset) / 8 * 8) sub 0 u
    State.storeUnits r.1 by_ b base sub us (w.worse r.2)

/-- Whole aligned blocks of a plain range are stored at once, so that they clear poison (R406). -/
def State.storeBlocks (s : State) (by_ : Issuer) (b : Bound) : Nat → Nat → List Byte → Wrote → State × Wrote
  | 0, _, _, w => (s, w)
  | _, _, [], w => (s, w)
  | fuel + 1, offset, bytes, w =>
    let n := 64 - (b.pa + offset) % 64
    let part := bytes.take n
    let pa := s.redirect b offset
    let key := s.keyNo b.key
    let us := foldUnits (b.va + offset) part
    let s1 := us.foldl (fun s u => s.notePlain by_ ((pa + (u.va + u.bytes.1 - (b.va + offset))) / 8 * 8)
      (s.unit key ((pa + (u.va + u.bytes.1 - (b.va + offset))) / 8 * 8))) s
    let t := s1.hbmWrite key pa part
    State.storeBlocks t.1 by_ b fuel (offset + n) (bytes.drop n) (w.worse (if t.2 then .refused else .ok))

/-- Bytes stored through a binding as plain writes (R94, R97, R101). -/
def State.globalWrite (s : State) (by_ : Issuer) (b : Bound) (offset : Nat) (bytes : List Byte) : State × Wrote :=
  if b.versioned then s.storeUnits by_ b b.va 0 (foldUnits (b.va + offset) bytes) .ok
  else s.storeBlocks by_ b (bytes.length + 1) offset bytes .ok

/-- A reduction store of a delta to a unit (R94, R99, R101): `kind` 1 INT64, 2 FIX64. -/
def State.globalReduce (s : State) (by_ : Issuer) (b : Bound) (offset kind : Nat) (delta : W64) : State × Wrote :=
  let pa := s.redirect b offset
  if b.versioned then s.shadowUnit by_ b (b.pa + offset) 0 kind { va := b.va + offset, mask := 0xFF, data := delta }
  else
    let key := s.keyNo b.key
    let old := s.unit key pa
    let s1 := s.notePlain by_ pa old
    let t := s1.hbmWrite key pa (natToBytes 8 (old + delta).toNat)
    (t.1, if t.2 then .refused else .ok)

/-- The folds of a strand's operation at the end of its fold order, or at the place it holds; the message handler folds
nothing (R102, R107). -/
def State.foldAt (s : State) (by_ : Issuer) (id : Nat) (us : List (W64 × W64)) : State :=
  if by_.handler then s else s.onStatus by_.dslot.toNat fun b => b.settle id us

/-- A place in the strand's fold order (R107). -/
def State.foldPlace (s : State) (by_ : Issuer) (id : Nat) : State :=
  if by_.handler then s else s.onStatus by_.dslot.toNat fun b => b.place id

end Sys2Proof.Machine
end

