-- ==== Sys2Proof/WellFormed.lean ====
section
/-! DEFINITION. Which instructions are well formed: the operand values that the spec's encodings admit (R48, R51, R54,
R58, R121, R199, R200, R203, R227, R279, R352, R373), and, for the device's own steps, numbers of units that exist
(R5, R6). A word whose operands are not admitted is an illegal instruction whatever the state, so the decoder refuses
it. -/

namespace Sys2Proof

/-- The control register numbers that R121 assigns. -/
def Creg.assigned (r : Nat) : Bool :=
  r ≤ 0x00A || r == 0x00C || r == 0x00D || (0x010 ≤ r && r ≤ 0x01A) || (0x020 ≤ r && r ≤ 0x02F) ||
  (0x040 ≤ r && r ≤ 0x057) || r == 0x060 || r == 0x061 || (0x0F0 ≤ r && r ≤ 0x0FF) ||
  (0x100 ≤ r && r ≤ 0x12F) || (0x200 ≤ r && r ≤ 0x283)

/-- The format codes that VCVT takes in either position: all but the three block-scaled ones (R49, R54). -/
def Format.elementary (f : Nat) : Bool := !(f == 7 || f == 8 || f == 9)

/-- The lane number of VEXT and VINS lies below the lane count of the width (R203). -/
def laneInRange (h n w : Nat) : Bool := 32 * h + n < 64 / 2 ^ w

/-- The operands are ones that the spec's encoding admits. -/
def Instr.wellFormed : Instr → Bool
  | .nop => true
  | .br _ _ _ _ => true
  | .jmp _ _ _ _ => true
  | .callDisp _ _ _ _ => true
  | .callReg _ _ _ _ => true
  | .ret _ _ _ _ => true
  | .brvAll _ _ _ => true
  | .brvNone _ _ _ => true
  | .loop _ _ _ => true
  | .loopBack core => core < 640
  | .bsel _ _ _ => true
  | .fenceL => true
  | .mfc _ r => Creg.assigned r.toNat
  | .mtc _ r => Creg.assigned r.toNat
  | .trap _ => true
  | .bkpt _ => true
  | .rett => true
  | .reth => true
  | .trapack => true
  | .post _ _ _ _ => true
  | .postn _ _ _ _ => true
  | .susp => true
  | .pinM => true
  | .pinQ _ => true
  | .pinB _ _ => true
  | .pinT _ => true
  | .endStrand => true
  | .gnew _ _ _ => true
  | .gjoin _ _ _ => true
  | .gleave _ _ _ => true
  | .gfree _ _ _ => true
  | .ginfo _ _ _ => true
  | .dgst _ _ _ => true
  | .traceW _ => true
  | .traceR d _ => d.toNat != 31
  | .trigFire => true
  | .trigRearm => true
  | .addSr _ _ _ _ => true
  | .addSi _ _ _ => true
  | .subSr _ _ _ _ => true
  | .subSi _ _ _ => true
  | .andSr _ _ _ _ => true
  | .andSi _ _ _ => true
  | .orSr _ _ _ _ => true
  | .orSi _ _ _ => true
  | .xorSr _ _ _ _ => true
  | .xorSi _ _ _ => true
  | .andnSr _ _ _ _ => true
  | .andnSi _ _ _ => true
  | .shlSr _ _ _ _ => true
  | .shlSi _ _ _ => true
  | .shrSr _ _ _ _ => true
  | .shrSi _ _ _ => true
  | .sarSr _ _ _ _ => true
  | .sarSi _ _ _ => true
  | .rotSr _ _ _ _ => true
  | .rotSi _ _ _ => true
  | .minSr _ _ _ _ => true
  | .minSi _ _ _ => true
  | .maxSr _ _ _ _ => true
  | .maxSi _ _ _ => true
  | .minuSr _ _ _ _ => true
  | .minuSi _ _ _ => true
  | .maxuSr _ _ _ _ => true
  | .maxuSi _ _ _ => true
  | .mulSr _ _ _ _ => true
  | .mulSi _ _ _ => true
  | .mulh _ _ _ _ => true
  | .mulhu _ _ _ _ => true
  | .div _ _ _ _ => true
  | .divu _ _ _ _ => true
  | .rem _ _ _ _ => true
  | .remu _ _ _ _ => true
  | .clz _ _ _ => true
  | .ctz _ _ _ => true
  | .popc _ _ _ => true
  | .brev _ _ _ => true
  | .extB _ _ _ => true
  | .extBu _ _ _ => true
  | .extH _ _ _ => true
  | .extHu _ _ _ => true
  | .extW _ _ _ => true
  | .extWu _ _ _ => true
  | .bfx _ _ _ _ => true
  | .bfi _ _ _ _ => true
  | .addsh1 _ _ _ _ => true
  | .addsh2 _ _ _ _ => true
  | .addsh3 _ _ _ _ => true
  | .addsh4 _ _ _ _ => true
  | .sel _ _ _ _ => true
  | .cmpEqSr _ _ _ _ => true
  | .cmpEqSi _ _ _ => true
  | .cmpNeSr _ _ _ _ => true
  | .cmpNeSi _ _ _ => true
  | .cmpLtSr _ _ _ _ => true
  | .cmpLtSi _ _ _ => true
  | .cmpGeSr _ _ _ _ => true
  | .cmpGeSi _ _ _ => true
  | .cmpLtuSr _ _ _ _ => true
  | .cmpLtuSi _ _ _ => true
  | .cmpGeuSr _ _ _ _ => true
  | .cmpGeuSi _ _ _ => true
  | .plogAnd _ _ _ _ => true
  | .plogOr _ _ _ _ => true
  | .plogXor _ _ _ _ => true
  | .plogAndn _ _ _ _ => true
  | .movi _ _ => true
  | .limm _ => true
  | .vadd _ _ _ _ _ _ _ => true
  | .vsub _ _ _ _ _ _ _ => true
  | .vmul _ _ _ _ _ _ _ => true
  | .vfma _ _ _ _ _ _ _ => true
  | .vfms _ _ _ _ _ _ _ => true
  | .vfnma _ _ _ _ _ _ _ => true
  | .vmin _ _ _ _ _ _ _ => true
  | .vmax _ _ _ _ _ _ _ => true
  | .vabs _ _ _ _ _ _ => true
  | .vneg _ _ _ _ _ _ => true
  | .vdiv _ _ _ _ _ _ _ => true
  | .vsqrt _ _ _ _ _ _ => true
  | .vcmpEqFloat _ _ _ _ _ _ _ => true
  | .vcmpLtFloat _ _ _ _ _ _ _ => true
  | .vcmpLeFloat _ _ _ _ _ _ _ => true
  | .vcmpUnFloat _ _ _ _ _ _ _ => true
  | .viadd _ _ _ _ _ _ _ => true
  | .visub _ _ _ _ _ _ _ => true
  | .vimul _ _ _ _ _ _ _ => true
  | .vimulh _ _ _ _ _ _ _ => true
  | .vimin _ _ _ _ _ _ _ => true
  | .vimax _ _ _ _ _ _ _ => true
  | .vand _ _ _ _ _ _ => true
  | .vor _ _ _ _ _ _ => true
  | .vxor _ _ _ _ _ _ => true
  | .vandn _ _ _ _ _ _ => true
  | .vshl _ _ _ _ _ _ _ => true
  | .vshr _ _ _ _ _ _ _ => true
  | .vsar _ _ _ _ _ _ _ => true
  | .vfxmulFix64 _ _ _ _ _ _ => true
  | .vfxaddFix64 _ _ _ _ _ _ => true
  | .vdot16Bf16 _ _ _ _ _ _ => true
  | .vdot16F16 _ _ _ _ _ _ => true
  | .vdot16E4m3 _ _ _ _ _ _ => true
  | .vdot16E5m2 _ _ _ _ _ _ => true
  | .vdot16I8 _ _ _ _ _ _ => true
  | .vdot16Log6 _ _ _ _ _ _ => true
  | .vdot16E2m1 _ _ _ _ _ _ => true
  | .vcmpEqInt _ _ _ _ _ _ _ => true
  | .vcmpLtInt _ _ _ _ _ _ _ => true
  | .vcmpLtuInt _ _ _ _ _ _ _ => true
  | .vcmpLeInt _ _ _ _ _ _ _ => true
  | .vcvt _ f _ _ s _ _ => Format.elementary f.toNat && Format.elementary s.toNat
  | .vmxq _ _ a _ e => a.toNat != 31 && e.toNat < 3
  | .vmxd _ d _ _ e => d.toNat != 31 && e.toNat < 3
  | .vrcpeF32 _ _ _ _ _ => true
  | .vrsqeF32 _ _ _ _ _ => true
  | .vfexpF32 _ _ _ _ _ => true
  | .vscalebF32 _ _ _ _ _ _ => true
  | .vgetexpF32 _ _ _ _ _ => true
  | .vrndiF32 _ _ _ _ _ => true
  | .vrndiIF32 _ _ _ _ _ => true
  | .vclassF32 _ _ _ _ _ => true
  | .vrcpeF64 _ _ _ _ _ => true
  | .vrsqeF64 _ _ _ _ _ => true
  | .vfexpF64 _ _ _ _ _ => true
  | .vscalebF64 _ _ _ _ _ _ => true
  | .vgetexpF64 _ _ _ _ _ => true
  | .vrndiF64 _ _ _ _ _ => true
  | .vrndiIF64 _ _ _ _ _ => true
  | .vclassF64 _ _ _ _ _ => true
  | .vsel _ _ _ _ _ => true
  | .vmov _ _ _ _ _ => true
  | .vxmov _ _ _ _ _ => true
  | .vbcast _ _ _ _ _ _ => true
  | .vext _ _ _ n h w e => laneInRange h.toNat n.toNat w.toNat && !(w.toNat == 3 && e.toNat == 1)
  | .vins _ _ _ n h w => laneInRange h.toNat n.toNat w.toNat
  | .vperm _ _ _ _ _ _ => true
  | .vshuf _ _ _ _ _ _ => true
  | .vredAddF32 _ _ _ _ _ => true
  | .vredAddF64 _ _ _ _ _ => true
  | .vredMinF32 _ _ _ _ _ => true
  | .vredMaxF32 _ _ _ _ _ => true
  | .vredAddI32 _ _ _ _ _ => true
  | .vredAddI64 _ _ _ _ _ => true
  | .vredMinI32 _ _ _ _ _ => true
  | .vredMaxI32 _ _ _ _ _ => true
  | .kand _ _ _ _ => true
  | .kor _ _ _ _ => true
  | .kxor _ _ _ _ => true
  | .knot _ _ _ => true
  | .kmov _ _ _ => true
  | .kmovFromS _ _ _ => true
  | .kmovToS _ _ _ => true
  | .kpop _ _ _ => true
  | .kuni _ _ _ _ => true
  | .tmma _ _ a b _ => a.toNat != 31 && b.toNat != 31
  | .tmmaLatch _ _ _ b _ => b.toNat != 31
  | .tlatch _ _ a => a.toNat != 31
  | .tgo _ _ a b p => a.toNat != 31 && b.toNat != 31 && p.toNat != 31
  | .tdrain _ a => a.toNat != 31
  | .twait _ _ => true
  | .tstat _ _ => true
  | .tclr _ => true
  | .trow _ => true
  | .ldB _ _ _ _ => true
  | .ldBu _ _ _ _ => true
  | .ldH _ _ _ _ => true
  | .ldHu _ _ _ _ => true
  | .ldW _ _ _ _ => true
  | .ldWu _ _ _ _ => true
  | .ldD _ _ _ _ => true
  | .stB _ _ _ => true
  | .stH _ _ _ => true
  | .stW _ _ _ => true
  | .stD _ _ _ => true
  | .vld _ _ _ _ _ => true
  | .vst _ _ _ _ => true
  | .vgather _ _ _ _ _ _ => true
  | .vscatter _ _ _ _ _ => true
  | .kldW _ _ _ _ => true
  | .kldWu _ _ _ _ => true
  | .kldD _ _ _ _ => true
  | .kstW _ _ _ => true
  | .kstD _ _ _ => true
  | .kvld _ _ _ _ _ => true
  | .kvst _ _ _ _ => true
  | .klook _ _ _ => true
  | .ktag _ _ _ => true
  | .kuntag _ _ _ => true
  | .qput _ _ _ => true
  | .qget _ _ _ => true
  | .qstat _ _ _ => true
  | .qcfgRel _ _ => true
  | .qcfgOpen _ _ => true
  | .qcfgClose _ => true
  | .xfer _ _ _ => true
  | .xwait _ _ _ => true
  | .xstat _ _ _ => true
  | .xcancel _ => true
  | .xcancelAll => true
  | .binit _ _ => true
  | .barrive _ => true
  | .bwait _ _ _ => true
  | .bexpect _ _ => true
  | .binv _ => true
  | .aadd _ _ _ _ => true
  | .acas _ _ b _ => b.toNat != 31
  | .amin _ _ _ _ => true
  | .amax _ _ _ _ => true
  | .aor _ _ _ _ => true
  | .afix _ _ _ _ => true
  | .aread _ _ _ => true
  | .mtaga _ _ => true
  | .mtagf _ _ _ => true
  | .meet _ _ _ _ o => o.toNat < 10
  | .meetT _ _ _ o => o.toNat < 10
  | .mstat _ _ _ => true
  | .rlook _ _ _ _ => true
  | .rsplit _ _ _ _ => true
  | .rmerge _ _ _ _ => true
  | .rinv _ => true
  | .rresSet _ _ _ => true
  | .rresGrow _ _ _ => true
  | .rprotAll _ _ => true
  | .rprotPerm _ _ => true
  | .rprotKey _ _ => true
  | .rfence _ _ => true
  | .rmove _ _ => true
  | .fput _ => true
  | .fget _ => true
  | .fbar _ _ _ => true
  | .fstat _ _ _ => true
  | .cpost _ => true
  | .timedLanding core => core < 640
  | .lateDataArrival core _ _ => core < 640
  | .pickup core => core < 640
  | .idleRetry core => core < 640
  | .suspension core => core < 640
  | .pinWake core => core < 640
  | .trapEntry core => core < 640
  | .messageHandlerStart core => core < 640
  | .watchdogExpiry core => core < 640
  | .preemptionService core => core < 640
  | .coreResume core => core < 640
  | .saveTimerExpiry core => core < 640
  | .rangeWalk core _ _ => core < 640
  | .matrixStep core => core < 640
  | .stepResultsComplete core => core < 640
  | .latchLoad core => core < 640
  | .nestPass core => core < 640
  | .drain core => core < 640
  | .matrixClear core => core < 640
  | .postPlacement core _ => core < 640
  | .tagArbiterApply core _ => core < 640
  | .messageArrival core _ => core < 640
  | .sendAcknowledgement core _ => core < 640
  | .sendHoldExpiry core _ => core < 640
  | .chunkAdmission cluster _ => cluster < 160
  | .blockComplete cluster _ => cluster < 160
  | .tileVerification cluster _ => cluster < 160
  | .transferComplete cluster _ => cluster < 160
  | .engineFault cluster _ => cluster < 160
  | .syncOperation core _ => core < 640
  | .barrierDecrement _ => true
  | .objectFetch die _ => die < 8
  | .waitScan die => die < 8
  | .meetArrival _ => true
  | .orphanScan node => node < 160
  | .resultReoffer node => node < 160
  | .rangeUpdate core _ => core < 640
  | .compactionBlock => true
  | .doorbell _ => true
  | .launch => true
  | .collectiveEntry => true
  | .jobStart => true
  | .jobEnd => true
  | .unknownEntry => true
  | .phaseCommit => true
  | .preempt => true
  | .preemptAcknowledgement _ => true
  | .preemptionTimeout _ => true
  | .resume => true
  | .cancel => true
  | .continueCmd => true
  | .freeze => true
  | .unfreeze => true
  | .hcmdInvalid _ => true
  | .hstatRead => true
  | .eyectlWrite stack _ => stack < 16
  | .hostRegisterWrite _ _ => true
  | .windowRead _ _ => true
  | .windowWrite _ _ => true
  | .attestationRequest nonce => decide (nonce.length ≤ 64)
  | .boot => true
  | .patrolScrub stack => stack < 16
  | .scrubWriteback stack => stack < 16
  | .eyeThresholdCrossed stack _ => stack < 16
  | .retrainingSlot stack => stack < 16
  | .droop die => die < 8
  | .powerLoop _ => true
  | .thermalLoop die r => die < 8 && r.junction < 4
  | .railPoll die _ => die < 8
  | .regulatorTimeout die => die < 8
  | .flitReplay r => r.port < 12
  | .portRetrain port => port < 12
  | .packageDeath package => package < 2048
  | .packetArrival _ => true
  | .packetTimeout _ => true
  | .fabricCompletion _ _ _ => true
  | .fabricBarrierArrival _ _ => true
  | .fabricBarrierRelease _ => true
  | .roundBreak _ => true
  | .collectiveJoin peer _ => peer < 2048
  | .joinTimeout peer => peer < 2048
  | .collectiveChunk _ => true
  | .reset level _ => level < 4
  | .singleFault _ => true
  | .portRetrainingEnd port _ => port < 12
  | .engineResumeReport _ => true
  | .getResponseArrival _ _ => true

end Sys2Proof
end

