-- ==== Sys2Proof/Decode.lean ====
section
/-! DEFINITION. The decoder and, after it, an encoder, both from the encoding tables of the spec (R46 to R58). A word
is read by its major opcode, then by its op value, then by the fields that are fixed for the instruction; every value
that the tables do not assign is refused under one of four names, and each of them is an illegal instruction (R58).
The chain bit [31] takes no part (R40). -/

namespace Sys2Proof

-- Lean's compiler takes no more than 245 constructors with fields; the decoder builds more, so it has no compiled code.
-- The kernel evaluates it all the same.
noncomputable section

/-- Why the decoder refuses a word. Each of them raises the illegal-instruction trap of R58. -/
inductive Reject where
  /-- Major opcodes 0xD to 0xF (R42). -/
  | reservedMajor
  /-- An op value that the opcode maps do not assign (R50 to R57). -/
  | reservedOp
  /-- A reserved field that is not zero, or a reserved variant value (R12, R58). -/
  | reservedField
  /-- A field value that the instruction's description excludes (R48, R51, R54, R203, R227 and others). -/
  | badOperand
  /-- Fewer bytes than a word holds. -/
  | truncated
  deriving DecidableEq, Repr

/-- The field of `w` bits whose lowest bit is `lo`. -/
def fld (n lo w : Nat) : BitVec w := BitVec.ofNat w (n / 2 ^ lo)

/-- An instruction whose fixed fields agree is accepted if its operands are admitted. -/
def accept (i : Instr) : Except Reject Instr :=
  if i.wellFormed then .ok i else .error .badOperand

/-- The control words, major 0x0 (R50). -/
def decodeControl (n : Nat) : Except Reject Instr :=
  match n / 2097152 % 64 with
  | 0 =>
    if n % 2097152 = 0 then accept (.nop) else .error .reservedField
  | 1 =>
    accept (.br (fld n 20 1) (fld n 17 3) (fld n 16 1) (fld n 0 16))
  | 2 =>
    if n / 32 % 2048 = 0 then accept (.jmp (fld n 20 1) (fld n 17 3) (fld n 16 1) (fld n 0 5)) else .error .reservedField
  | 3 =>
    accept (.callDisp (fld n 20 1) (fld n 17 3) (fld n 16 1) (fld n 0 16))
  | 4 =>
    if n / 32 % 2048 = 0 then accept (.callReg (fld n 20 1) (fld n 17 3) (fld n 16 1) (fld n 0 5)) else .error .reservedField
  | 5 =>
    if n / 32 % 2048 = 0 then accept (.ret (fld n 20 1) (fld n 17 3) (fld n 16 1) (fld n 0 5)) else .error .reservedField
  | 6 =>
    match n / 65536 % 2 with
    | 0 =>
      accept (.brvAll (fld n 20 1) (fld n 17 3) (fld n 0 16))
    | 1 =>
      accept (.brvNone (fld n 20 1) (fld n 17 3) (fld n 0 16))
    | _ => .error .reservedField
  | 7 =>
    if n / 65536 % 32 = 0 ∧ n / 32 % 4 = 0 then accept (.loop (fld n 8 8) (fld n 7 1) (fld n 0 5)) else .error .reservedField
  | 8 =>
    if n / 65536 % 16 = 0 then accept (.bsel (fld n 20 1) (fld n 11 5) (fld n 0 11)) else .error .reservedField
  | 9 =>
    if n % 2097152 = 0 then accept (.fenceL) else .error .reservedField
  | _ => .error .reservedOp

/-- The system, strand, group, trap and trace words, major 0x1 (R51). -/
def decodeSystem (n : Nat) : Except Reject Instr :=
  match n / 2097152 % 64 with
  | 0 =>
    if n / 2048 % 32 = 0 then accept (.mfc (fld n 16 5) (fld n 0 11)) else .error .reservedField
  | 1 =>
    if n / 65536 % 32 = 0 then accept (.mtc (fld n 11 5) (fld n 0 11)) else .error .reservedField
  | 4 =>
    if n / 2048 % 1024 = 0 then accept (.trap (fld n 0 11)) else .error .reservedField
  | 5 =>
    if n / 2048 % 1024 = 0 then accept (.bkpt (fld n 0 11)) else .error .reservedField
  | 6 =>
    if n % 2097152 = 0 then accept (.rett) else .error .reservedField
  | 7 =>
    if n % 2097152 = 0 then accept (.reth) else .error .reservedField
  | 8 =>
    if n % 2097152 = 0 then accept (.trapack) else .error .reservedField
  | 16 =>
    if n % 2 = 0 then accept (.post (fld n 16 5) (fld n 11 5) (fld n 6 5) (fld n 1 5)) else .error .reservedField
  | 17 =>
    if n % 2 = 0 then accept (.postn (fld n 16 5) (fld n 11 5) (fld n 6 5) (fld n 1 5)) else .error .reservedField
  | 18 =>
    if n % 2097152 = 0 then accept (.susp) else .error .reservedField
  | 19 =>
    match n % 2048 with
    | 0 =>
      if n / 2048 % 1024 = 0 then accept (.pinM) else .error .reservedField
    | 1 =>
      if n / 65536 % 32 = 0 then accept (.pinQ (fld n 11 5)) else .error .reservedField
    | 2 =>
      accept (.pinB (fld n 16 5) (fld n 11 5))
    | 3 =>
      if n / 65536 % 32 = 0 then accept (.pinT (fld n 11 5)) else .error .reservedField
    | _ => .error .reservedField
  | 20 =>
    if n % 2097152 = 0 then accept (.endStrand) else .error .reservedField
  | 24 =>
    if n / 64 % 32 = 0 ∧ n % 2 = 0 then accept (.gnew (fld n 16 5) (fld n 11 5) (fld n 1 5)) else .error .reservedField
  | 25 =>
    if n / 64 % 32 = 0 ∧ n % 2 = 0 then accept (.gjoin (fld n 16 5) (fld n 11 5) (fld n 1 5)) else .error .reservedField
  | 26 =>
    if n / 64 % 32 = 0 ∧ n % 2 = 0 then accept (.gleave (fld n 16 5) (fld n 11 5) (fld n 1 5)) else .error .reservedField
  | 27 =>
    if n / 64 % 32 = 0 ∧ n % 2 = 0 then accept (.gfree (fld n 16 5) (fld n 11 5) (fld n 1 5)) else .error .reservedField
  | 28 =>
    if n / 64 % 32 = 0 ∧ n % 2 = 0 then accept (.ginfo (fld n 16 5) (fld n 11 5) (fld n 1 5)) else .error .reservedField
  | 29 =>
    if n / 64 % 32 = 0 ∧ n % 2 = 0 then accept (.dgst (fld n 16 5) (fld n 11 5) (fld n 1 5)) else .error .reservedField
  | 32 =>
    match n % 2048 with
    | 0 =>
      if n / 65536 % 32 = 0 then accept (.traceW (fld n 11 5)) else .error .reservedField
    | 1 =>
      accept (.traceR (fld n 16 5) (fld n 11 5))
    | _ => .error .reservedField
  | 33 =>
    match n % 2097152 with
    | 0 =>
      accept (.trigFire)
    | 1 =>
      accept (.trigRearm)
    | _ => .error .reservedOp
  | _ => .error .reservedOp

/-- The scalar register words, major 0x2 (R52). -/
def decodeScalarReg (n : Nat) : Except Reject Instr :=
  match n / 1048576 % 128 with
  | 0 =>
    if n % 4 = 0 then accept (.addSr (fld n 15 5) (fld n 10 5) (fld n 5 5) (fld n 2 3)) else .error .reservedField
  | 1 =>
    if n % 4 = 0 then accept (.subSr (fld n 15 5) (fld n 10 5) (fld n 5 5) (fld n 2 3)) else .error .reservedField
  | 2 =>
    if n % 4 = 0 then accept (.andSr (fld n 15 5) (fld n 10 5) (fld n 5 5) (fld n 2 3)) else .error .reservedField
  | 3 =>
    if n % 4 = 0 then accept (.orSr (fld n 15 5) (fld n 10 5) (fld n 5 5) (fld n 2 3)) else .error .reservedField
  | 4 =>
    if n % 4 = 0 then accept (.xorSr (fld n 15 5) (fld n 10 5) (fld n 5 5) (fld n 2 3)) else .error .reservedField
  | 5 =>
    if n % 4 = 0 then accept (.andnSr (fld n 15 5) (fld n 10 5) (fld n 5 5) (fld n 2 3)) else .error .reservedField
  | 6 =>
    if n % 4 = 0 then accept (.shlSr (fld n 15 5) (fld n 10 5) (fld n 5 5) (fld n 2 3)) else .error .reservedField
  | 7 =>
    if n % 4 = 0 then accept (.shrSr (fld n 15 5) (fld n 10 5) (fld n 5 5) (fld n 2 3)) else .error .reservedField
  | 8 =>
    if n % 4 = 0 then accept (.sarSr (fld n 15 5) (fld n 10 5) (fld n 5 5) (fld n 2 3)) else .error .reservedField
  | 9 =>
    if n % 4 = 0 then accept (.rotSr (fld n 15 5) (fld n 10 5) (fld n 5 5) (fld n 2 3)) else .error .reservedField
  | 10 =>
    if n % 4 = 0 then accept (.minSr (fld n 15 5) (fld n 10 5) (fld n 5 5) (fld n 2 3)) else .error .reservedField
  | 11 =>
    if n % 4 = 0 then accept (.maxSr (fld n 15 5) (fld n 10 5) (fld n 5 5) (fld n 2 3)) else .error .reservedField
  | 12 =>
    if n % 4 = 0 then accept (.minuSr (fld n 15 5) (fld n 10 5) (fld n 5 5) (fld n 2 3)) else .error .reservedField
  | 13 =>
    if n % 4 = 0 then accept (.maxuSr (fld n 15 5) (fld n 10 5) (fld n 5 5) (fld n 2 3)) else .error .reservedField
  | 16 =>
    if n % 4 = 0 then accept (.mulSr (fld n 15 5) (fld n 10 5) (fld n 5 5) (fld n 2 3)) else .error .reservedField
  | 17 =>
    if n % 4 = 0 then accept (.mulh (fld n 15 5) (fld n 10 5) (fld n 5 5) (fld n 2 3)) else .error .reservedField
  | 18 =>
    if n % 4 = 0 then accept (.mulhu (fld n 15 5) (fld n 10 5) (fld n 5 5) (fld n 2 3)) else .error .reservedField
  | 20 =>
    if n % 4 = 0 then accept (.div (fld n 15 5) (fld n 10 5) (fld n 5 5) (fld n 2 3)) else .error .reservedField
  | 21 =>
    if n % 4 = 0 then accept (.divu (fld n 15 5) (fld n 10 5) (fld n 5 5) (fld n 2 3)) else .error .reservedField
  | 22 =>
    if n % 4 = 0 then accept (.rem (fld n 15 5) (fld n 10 5) (fld n 5 5) (fld n 2 3)) else .error .reservedField
  | 23 =>
    if n % 4 = 0 then accept (.remu (fld n 15 5) (fld n 10 5) (fld n 5 5) (fld n 2 3)) else .error .reservedField
  | 24 =>
    if n / 32 % 32 = 0 ∧ n % 4 = 0 then accept (.clz (fld n 15 5) (fld n 10 5) (fld n 2 3)) else .error .reservedField
  | 25 =>
    if n / 32 % 32 = 0 ∧ n % 4 = 0 then accept (.ctz (fld n 15 5) (fld n 10 5) (fld n 2 3)) else .error .reservedField
  | 26 =>
    if n / 32 % 32 = 0 ∧ n % 4 = 0 then accept (.popc (fld n 15 5) (fld n 10 5) (fld n 2 3)) else .error .reservedField
  | 27 =>
    if n / 32 % 32 = 0 ∧ n % 4 = 0 then accept (.brev (fld n 15 5) (fld n 10 5) (fld n 2 3)) else .error .reservedField
  | 32 =>
    if n / 32 % 32 = 0 ∧ n % 4 = 0 then accept (.extB (fld n 15 5) (fld n 10 5) (fld n 2 3)) else .error .reservedField
  | 33 =>
    if n / 32 % 32 = 0 ∧ n % 4 = 0 then accept (.extBu (fld n 15 5) (fld n 10 5) (fld n 2 3)) else .error .reservedField
  | 34 =>
    if n / 32 % 32 = 0 ∧ n % 4 = 0 then accept (.extH (fld n 15 5) (fld n 10 5) (fld n 2 3)) else .error .reservedField
  | 35 =>
    if n / 32 % 32 = 0 ∧ n % 4 = 0 then accept (.extHu (fld n 15 5) (fld n 10 5) (fld n 2 3)) else .error .reservedField
  | 36 =>
    if n / 32 % 32 = 0 ∧ n % 4 = 0 then accept (.extW (fld n 15 5) (fld n 10 5) (fld n 2 3)) else .error .reservedField
  | 37 =>
    if n / 32 % 32 = 0 ∧ n % 4 = 0 then accept (.extWu (fld n 15 5) (fld n 10 5) (fld n 2 3)) else .error .reservedField
  | 40 =>
    if n % 4 = 0 then accept (.bfx (fld n 15 5) (fld n 10 5) (fld n 5 5) (fld n 2 3)) else .error .reservedField
  | 41 =>
    if n % 4 = 0 then accept (.bfi (fld n 15 5) (fld n 10 5) (fld n 5 5) (fld n 2 3)) else .error .reservedField
  | 44 =>
    if n % 4 = 0 then accept (.addsh1 (fld n 15 5) (fld n 10 5) (fld n 5 5) (fld n 2 3)) else .error .reservedField
  | 45 =>
    if n % 4 = 0 then accept (.addsh2 (fld n 15 5) (fld n 10 5) (fld n 5 5) (fld n 2 3)) else .error .reservedField
  | 46 =>
    if n % 4 = 0 then accept (.addsh3 (fld n 15 5) (fld n 10 5) (fld n 5 5) (fld n 2 3)) else .error .reservedField
  | 47 =>
    if n % 4 = 0 then accept (.addsh4 (fld n 15 5) (fld n 10 5) (fld n 5 5) (fld n 2 3)) else .error .reservedField
  | 48 =>
    if n % 4 = 0 then accept (.sel (fld n 15 5) (fld n 10 5) (fld n 5 5) (fld n 2 3)) else .error .reservedField
  | 56 =>
    if n / 262144 % 4 = 0 ∧ n % 4 = 0 then accept (.cmpEqSr (fld n 15 3) (fld n 10 5) (fld n 5 5) (fld n 2 3)) else .error .reservedField
  | 57 =>
    if n / 262144 % 4 = 0 ∧ n % 4 = 0 then accept (.cmpNeSr (fld n 15 3) (fld n 10 5) (fld n 5 5) (fld n 2 3)) else .error .reservedField
  | 58 =>
    if n / 262144 % 4 = 0 ∧ n % 4 = 0 then accept (.cmpLtSr (fld n 15 3) (fld n 10 5) (fld n 5 5) (fld n 2 3)) else .error .reservedField
  | 59 =>
    if n / 262144 % 4 = 0 ∧ n % 4 = 0 then accept (.cmpGeSr (fld n 15 3) (fld n 10 5) (fld n 5 5) (fld n 2 3)) else .error .reservedField
  | 60 =>
    if n / 262144 % 4 = 0 ∧ n % 4 = 0 then accept (.cmpLtuSr (fld n 15 3) (fld n 10 5) (fld n 5 5) (fld n 2 3)) else .error .reservedField
  | 61 =>
    if n / 262144 % 4 = 0 ∧ n % 4 = 0 then accept (.cmpGeuSr (fld n 15 3) (fld n 10 5) (fld n 5 5) (fld n 2 3)) else .error .reservedField
  | 64 =>
    if n / 262144 % 4 = 0 ∧ n / 8192 % 4 = 0 ∧ n / 256 % 4 = 0 ∧ n % 4 = 0 then accept (.plogAnd (fld n 15 3) (fld n 10 3) (fld n 5 3) (fld n 2 3)) else .error .reservedField
  | 65 =>
    if n / 262144 % 4 = 0 ∧ n / 8192 % 4 = 0 ∧ n / 256 % 4 = 0 ∧ n % 4 = 0 then accept (.plogOr (fld n 15 3) (fld n 10 3) (fld n 5 3) (fld n 2 3)) else .error .reservedField
  | 66 =>
    if n / 262144 % 4 = 0 ∧ n / 8192 % 4 = 0 ∧ n / 256 % 4 = 0 ∧ n % 4 = 0 then accept (.plogXor (fld n 15 3) (fld n 10 3) (fld n 5 3) (fld n 2 3)) else .error .reservedField
  | 67 =>
    if n / 262144 % 4 = 0 ∧ n / 8192 % 4 = 0 ∧ n / 256 % 4 = 0 ∧ n % 4 = 0 then accept (.plogAndn (fld n 15 3) (fld n 10 3) (fld n 5 3) (fld n 2 3)) else .error .reservedField
  | _ => .error .reservedOp

/-- The scalar immediate words, major 0x3 (R52). -/
def decodeScalarImm (n : Nat) : Except Reject Instr :=
  match n / 1048576 % 128 with
  | 0 =>
    accept (.addSi (fld n 15 5) (fld n 10 5) (fld n 0 10))
  | 1 =>
    accept (.subSi (fld n 15 5) (fld n 10 5) (fld n 0 10))
  | 2 =>
    accept (.andSi (fld n 15 5) (fld n 10 5) (fld n 0 10))
  | 3 =>
    accept (.orSi (fld n 15 5) (fld n 10 5) (fld n 0 10))
  | 4 =>
    accept (.xorSi (fld n 15 5) (fld n 10 5) (fld n 0 10))
  | 5 =>
    accept (.andnSi (fld n 15 5) (fld n 10 5) (fld n 0 10))
  | 6 =>
    accept (.shlSi (fld n 15 5) (fld n 10 5) (fld n 0 10))
  | 7 =>
    accept (.shrSi (fld n 15 5) (fld n 10 5) (fld n 0 10))
  | 8 =>
    accept (.sarSi (fld n 15 5) (fld n 10 5) (fld n 0 10))
  | 9 =>
    accept (.rotSi (fld n 15 5) (fld n 10 5) (fld n 0 10))
  | 10 =>
    accept (.minSi (fld n 15 5) (fld n 10 5) (fld n 0 10))
  | 11 =>
    accept (.maxSi (fld n 15 5) (fld n 10 5) (fld n 0 10))
  | 12 =>
    accept (.minuSi (fld n 15 5) (fld n 10 5) (fld n 0 10))
  | 13 =>
    accept (.maxuSi (fld n 15 5) (fld n 10 5) (fld n 0 10))
  | 16 =>
    accept (.mulSi (fld n 15 5) (fld n 10 5) (fld n 0 10))
  | 56 =>
    if n / 262144 % 4 = 0 then accept (.cmpEqSi (fld n 15 3) (fld n 10 5) (fld n 0 10)) else .error .reservedField
  | 57 =>
    if n / 262144 % 4 = 0 then accept (.cmpNeSi (fld n 15 3) (fld n 10 5) (fld n 0 10)) else .error .reservedField
  | 58 =>
    if n / 262144 % 4 = 0 then accept (.cmpLtSi (fld n 15 3) (fld n 10 5) (fld n 0 10)) else .error .reservedField
  | 59 =>
    if n / 262144 % 4 = 0 then accept (.cmpGeSi (fld n 15 3) (fld n 10 5) (fld n 0 10)) else .error .reservedField
  | 60 =>
    if n / 262144 % 4 = 0 then accept (.cmpLtuSi (fld n 15 3) (fld n 10 5) (fld n 0 10)) else .error .reservedField
  | 61 =>
    if n / 262144 % 4 = 0 then accept (.cmpGeuSi (fld n 15 3) (fld n 10 5) (fld n 0 10)) else .error .reservedField
  | 80 =>
    if n / 1024 % 32 = 0 then accept (.movi (fld n 15 5) (fld n 0 10)) else .error .reservedField
  | _ => .error .reservedOp

/-- The LIMM, major 0x4 (R44). -/
def decodeLimm (n : Nat) : Except Reject Instr :=
  accept (.limm (fld n 0 27))

/-- The vector arithmetic words, major 0x5 (R53). -/
def decodeVectorArith (n : Nat) : Except Reject Instr :=
  match n / 2097152 % 32 with
  | 0 =>
    accept (.vadd (fld n 26 1) (fld n 19 2) (fld n 14 5) (fld n 9 5) (fld n 4 5) (fld n 1 3) (fld n 0 1))
  | 1 =>
    accept (.vsub (fld n 26 1) (fld n 19 2) (fld n 14 5) (fld n 9 5) (fld n 4 5) (fld n 1 3) (fld n 0 1))
  | 2 =>
    accept (.vmul (fld n 26 1) (fld n 19 2) (fld n 14 5) (fld n 9 5) (fld n 4 5) (fld n 1 3) (fld n 0 1))
  | 3 =>
    accept (.vfma (fld n 26 1) (fld n 19 2) (fld n 14 5) (fld n 9 5) (fld n 4 5) (fld n 1 3) (fld n 0 1))
  | 4 =>
    accept (.vfms (fld n 26 1) (fld n 19 2) (fld n 14 5) (fld n 9 5) (fld n 4 5) (fld n 1 3) (fld n 0 1))
  | 5 =>
    accept (.vfnma (fld n 26 1) (fld n 19 2) (fld n 14 5) (fld n 9 5) (fld n 4 5) (fld n 1 3) (fld n 0 1))
  | 6 =>
    accept (.vmin (fld n 26 1) (fld n 19 2) (fld n 14 5) (fld n 9 5) (fld n 4 5) (fld n 1 3) (fld n 0 1))
  | 7 =>
    accept (.vmax (fld n 26 1) (fld n 19 2) (fld n 14 5) (fld n 9 5) (fld n 4 5) (fld n 1 3) (fld n 0 1))
  | 8 =>
    if n / 16 % 32 = 0 then accept (.vabs (fld n 26 1) (fld n 19 2) (fld n 14 5) (fld n 9 5) (fld n 1 3) (fld n 0 1)) else .error .reservedField
  | 9 =>
    if n / 16 % 32 = 0 then accept (.vneg (fld n 26 1) (fld n 19 2) (fld n 14 5) (fld n 9 5) (fld n 1 3) (fld n 0 1)) else .error .reservedField
  | 10 =>
    accept (.vdiv (fld n 26 1) (fld n 19 2) (fld n 14 5) (fld n 9 5) (fld n 4 5) (fld n 1 3) (fld n 0 1))
  | 11 =>
    if n / 16 % 32 = 0 then accept (.vsqrt (fld n 26 1) (fld n 19 2) (fld n 14 5) (fld n 9 5) (fld n 1 3) (fld n 0 1)) else .error .reservedField
  | 12 =>
    if n / 131072 % 4 = 0 then accept (.vcmpEqFloat (fld n 26 1) (fld n 19 2) (fld n 14 3) (fld n 9 5) (fld n 4 5) (fld n 1 3) (fld n 0 1)) else .error .reservedField
  | 13 =>
    if n / 131072 % 4 = 0 then accept (.vcmpLtFloat (fld n 26 1) (fld n 19 2) (fld n 14 3) (fld n 9 5) (fld n 4 5) (fld n 1 3) (fld n 0 1)) else .error .reservedField
  | 14 =>
    if n / 131072 % 4 = 0 then accept (.vcmpLeFloat (fld n 26 1) (fld n 19 2) (fld n 14 3) (fld n 9 5) (fld n 4 5) (fld n 1 3) (fld n 0 1)) else .error .reservedField
  | 15 =>
    if n / 131072 % 4 = 0 then accept (.vcmpUnFloat (fld n 26 1) (fld n 19 2) (fld n 14 3) (fld n 9 5) (fld n 4 5) (fld n 1 3) (fld n 0 1)) else .error .reservedField
  | 16 =>
    accept (.viadd (fld n 26 1) (fld n 19 2) (fld n 14 5) (fld n 9 5) (fld n 4 5) (fld n 1 3) (fld n 0 1))
  | 17 =>
    accept (.visub (fld n 26 1) (fld n 19 2) (fld n 14 5) (fld n 9 5) (fld n 4 5) (fld n 1 3) (fld n 0 1))
  | 18 =>
    accept (.vimul (fld n 26 1) (fld n 19 2) (fld n 14 5) (fld n 9 5) (fld n 4 5) (fld n 1 3) (fld n 0 1))
  | 19 =>
    accept (.vimulh (fld n 26 1) (fld n 19 2) (fld n 14 5) (fld n 9 5) (fld n 4 5) (fld n 1 3) (fld n 0 1))
  | 20 =>
    accept (.vimin (fld n 26 1) (fld n 19 2) (fld n 14 5) (fld n 9 5) (fld n 4 5) (fld n 1 3) (fld n 0 1))
  | 21 =>
    accept (.vimax (fld n 26 1) (fld n 19 2) (fld n 14 5) (fld n 9 5) (fld n 4 5) (fld n 1 3) (fld n 0 1))
  | 22 =>
    match n / 524288 % 4 with
    | 0 =>
      accept (.vand (fld n 26 1) (fld n 14 5) (fld n 9 5) (fld n 4 5) (fld n 1 3) (fld n 0 1))
    | 1 =>
      accept (.vor (fld n 26 1) (fld n 14 5) (fld n 9 5) (fld n 4 5) (fld n 1 3) (fld n 0 1))
    | 2 =>
      accept (.vxor (fld n 26 1) (fld n 14 5) (fld n 9 5) (fld n 4 5) (fld n 1 3) (fld n 0 1))
    | 3 =>
      accept (.vandn (fld n 26 1) (fld n 14 5) (fld n 9 5) (fld n 4 5) (fld n 1 3) (fld n 0 1))
    | _ => .error .reservedField
  | 23 =>
    match n / 1048576 % 2 with
    | 0 =>
      accept (.vshl (fld n 26 1) (fld n 19 1) (fld n 14 5) (fld n 9 5) (fld n 4 5) (fld n 1 3) (fld n 0 1))
    | 1 =>
      accept (.vshr (fld n 26 1) (fld n 19 1) (fld n 14 5) (fld n 9 5) (fld n 4 5) (fld n 1 3) (fld n 0 1))
    | _ => .error .reservedField
  | 24 =>
    match n / 1048576 % 2 with
    | 0 =>
      accept (.vsar (fld n 26 1) (fld n 19 1) (fld n 14 5) (fld n 9 5) (fld n 4 5) (fld n 1 3) (fld n 0 1))
    | 1 =>
      match n / 524288 % 2 with
      | 0 =>
        accept (.vfxmulFix64 (fld n 26 1) (fld n 14 5) (fld n 9 5) (fld n 4 5) (fld n 1 3) (fld n 0 1))
      | 1 =>
        accept (.vfxaddFix64 (fld n 26 1) (fld n 14 5) (fld n 9 5) (fld n 4 5) (fld n 1 3) (fld n 0 1))
      | _ => .error .reservedField
    | _ => .error .reservedField
  | 25 =>
    match n / 524288 % 4 with
    | 0 =>
      accept (.vdot16Bf16 (fld n 26 1) (fld n 14 5) (fld n 9 5) (fld n 4 5) (fld n 1 3) (fld n 0 1))
    | 1 =>
      accept (.vdot16F16 (fld n 26 1) (fld n 14 5) (fld n 9 5) (fld n 4 5) (fld n 1 3) (fld n 0 1))
    | 2 =>
      accept (.vdot16E4m3 (fld n 26 1) (fld n 14 5) (fld n 9 5) (fld n 4 5) (fld n 1 3) (fld n 0 1))
    | 3 =>
      accept (.vdot16E5m2 (fld n 26 1) (fld n 14 5) (fld n 9 5) (fld n 4 5) (fld n 1 3) (fld n 0 1))
    | _ => .error .reservedField
  | 26 =>
    match n / 524288 % 4 with
    | 0 =>
      accept (.vdot16I8 (fld n 26 1) (fld n 14 5) (fld n 9 5) (fld n 4 5) (fld n 1 3) (fld n 0 1))
    | 1 =>
      accept (.vdot16Log6 (fld n 26 1) (fld n 14 5) (fld n 9 5) (fld n 4 5) (fld n 1 3) (fld n 0 1))
    | 2 =>
      accept (.vdot16E2m1 (fld n 26 1) (fld n 14 5) (fld n 9 5) (fld n 4 5) (fld n 1 3) (fld n 0 1))
    | _ => .error .reservedField
  | 28 =>
    match n / 1048576 % 2 with
    | 0 =>
      if n / 131072 % 4 = 0 then accept (.vcmpEqInt (fld n 26 1) (fld n 19 1) (fld n 14 3) (fld n 9 5) (fld n 4 5) (fld n 1 3) (fld n 0 1)) else .error .reservedField
    | 1 =>
      if n / 131072 % 4 = 0 then accept (.vcmpLtInt (fld n 26 1) (fld n 19 1) (fld n 14 3) (fld n 9 5) (fld n 4 5) (fld n 1 3) (fld n 0 1)) else .error .reservedField
    | _ => .error .reservedField
  | 29 =>
    match n / 1048576 % 2 with
    | 0 =>
      if n / 131072 % 4 = 0 then accept (.vcmpLtuInt (fld n 26 1) (fld n 19 1) (fld n 14 3) (fld n 9 5) (fld n 4 5) (fld n 1 3) (fld n 0 1)) else .error .reservedField
    | 1 =>
      if n / 131072 % 4 = 0 then accept (.vcmpLeInt (fld n 26 1) (fld n 19 1) (fld n 14 3) (fld n 9 5) (fld n 4 5) (fld n 1 3) (fld n 0 1)) else .error .reservedField
    | _ => .error .reservedField
  | _ => .error .reservedOp

/-- The vector conversion, mask and movement words, major 0x6 (R54). -/
def decodeVectorMove (n : Nat) : Except Reject Instr :=
  match n / 8388608 % 8 with
  | 0 =>
    if n / 16 % 2 = 0 then accept (.vcvt (fld n 26 1) (fld n 19 4) (fld n 14 5) (fld n 9 5) (fld n 5 4) (fld n 1 3) (fld n 0 1)) else .error .reservedField
  | 1 =>
    match n / 524288 % 16 with
    | 0 =>
      if n % 2 = 0 then accept (.vmxq (fld n 26 1) (fld n 14 5) (fld n 9 5) (fld n 4 5) (fld n 1 3)) else .error .reservedField
    | 1 =>
      if n % 2 = 0 then accept (.vmxd (fld n 26 1) (fld n 14 5) (fld n 9 5) (fld n 4 5) (fld n 1 3)) else .error .reservedField
    | 8 =>
      if n / 16 % 32 = 0 then accept (.vrcpeF32 (fld n 26 1) (fld n 14 5) (fld n 9 5) (fld n 1 3) (fld n 0 1)) else .error .reservedField
    | 9 =>
      if n / 16 % 32 = 0 then accept (.vrsqeF32 (fld n 26 1) (fld n 14 5) (fld n 9 5) (fld n 1 3) (fld n 0 1)) else .error .reservedField
    | 10 =>
      if n / 16 % 32 = 0 then accept (.vfexpF32 (fld n 26 1) (fld n 14 5) (fld n 9 5) (fld n 1 3) (fld n 0 1)) else .error .reservedField
    | 11 =>
      accept (.vscalebF32 (fld n 26 1) (fld n 14 5) (fld n 9 5) (fld n 4 5) (fld n 1 3) (fld n 0 1))
    | 12 =>
      if n / 16 % 32 = 0 then accept (.vgetexpF32 (fld n 26 1) (fld n 14 5) (fld n 9 5) (fld n 1 3) (fld n 0 1)) else .error .reservedField
    | 13 =>
      match n / 16 % 32 with
      | 0 =>
        accept (.vrndiF32 (fld n 26 1) (fld n 14 5) (fld n 9 5) (fld n 1 3) (fld n 0 1))
      | 1 =>
        accept (.vrndiIF32 (fld n 26 1) (fld n 14 5) (fld n 9 5) (fld n 1 3) (fld n 0 1))
      | _ => .error .reservedField
    | 14 =>
      if n / 16 % 32 = 0 then accept (.vclassF32 (fld n 26 1) (fld n 14 5) (fld n 9 5) (fld n 1 3) (fld n 0 1)) else .error .reservedField
    | _ => .error .reservedOp
  | 2 =>
    match n / 524288 % 16 with
    | 0 =>
      if n / 16 % 32 = 0 then accept (.vrcpeF64 (fld n 26 1) (fld n 14 5) (fld n 9 5) (fld n 1 3) (fld n 0 1)) else .error .reservedField
    | 1 =>
      if n / 16 % 32 = 0 then accept (.vrsqeF64 (fld n 26 1) (fld n 14 5) (fld n 9 5) (fld n 1 3) (fld n 0 1)) else .error .reservedField
    | 2 =>
      if n / 16 % 32 = 0 then accept (.vfexpF64 (fld n 26 1) (fld n 14 5) (fld n 9 5) (fld n 1 3) (fld n 0 1)) else .error .reservedField
    | 3 =>
      accept (.vscalebF64 (fld n 26 1) (fld n 14 5) (fld n 9 5) (fld n 4 5) (fld n 1 3) (fld n 0 1))
    | 4 =>
      if n / 16 % 32 = 0 then accept (.vgetexpF64 (fld n 26 1) (fld n 14 5) (fld n 9 5) (fld n 1 3) (fld n 0 1)) else .error .reservedField
    | 5 =>
      match n / 16 % 32 with
      | 0 =>
        accept (.vrndiF64 (fld n 26 1) (fld n 14 5) (fld n 9 5) (fld n 1 3) (fld n 0 1))
      | 1 =>
        accept (.vrndiIF64 (fld n 26 1) (fld n 14 5) (fld n 9 5) (fld n 1 3) (fld n 0 1))
      | _ => .error .reservedField
    | 6 =>
      if n / 16 % 32 = 0 then accept (.vclassF64 (fld n 26 1) (fld n 14 5) (fld n 9 5) (fld n 1 3) (fld n 0 1)) else .error .reservedField
    | 8 =>
      if n % 2 = 0 then accept (.vsel (fld n 26 1) (fld n 14 5) (fld n 9 5) (fld n 4 5) (fld n 1 3)) else .error .reservedField
    | 9 =>
      if n / 16 % 32 = 0 then accept (.vmov (fld n 26 1) (fld n 14 5) (fld n 9 5) (fld n 1 3) (fld n 0 1)) else .error .reservedField
    | 10 =>
      if n / 16 % 32 = 0 then accept (.vxmov (fld n 26 1) (fld n 14 5) (fld n 9 5) (fld n 1 3) (fld n 0 1)) else .error .reservedField
    | 11 =>
      if n / 64 % 8 = 0 then accept (.vbcast (fld n 26 1) (fld n 14 5) (fld n 9 5) (fld n 4 2) (fld n 1 3) (fld n 0 1)) else .error .reservedField
    | 12 =>
      accept (.vext (fld n 26 1) (fld n 14 5) (fld n 9 5) (fld n 4 5) (fld n 3 1) (fld n 1 2) (fld n 0 1))
    | 13 =>
      if n % 2 = 0 then accept (.vins (fld n 26 1) (fld n 14 5) (fld n 9 5) (fld n 4 5) (fld n 3 1) (fld n 1 2)) else .error .reservedField
    | 14 =>
      accept (.vperm (fld n 26 1) (fld n 14 5) (fld n 9 5) (fld n 4 5) (fld n 1 3) (fld n 0 1))
    | 15 =>
      accept (.vshuf (fld n 26 1) (fld n 14 5) (fld n 9 5) (fld n 4 5) (fld n 1 3) (fld n 0 1))
    | _ => .error .reservedOp
  | 3 =>
    match n / 524288 % 16 with
    | 0 =>
      if n % 2 = 0 then accept (.vredAddF32 (fld n 26 1) (fld n 14 5) (fld n 9 5) (fld n 4 5) (fld n 1 3)) else .error .reservedField
    | 1 =>
      if n % 2 = 0 then accept (.vredAddF64 (fld n 26 1) (fld n 14 5) (fld n 9 5) (fld n 4 5) (fld n 1 3)) else .error .reservedField
    | 2 =>
      if n % 2 = 0 then accept (.vredMinF32 (fld n 26 1) (fld n 14 5) (fld n 9 5) (fld n 4 5) (fld n 1 3)) else .error .reservedField
    | 3 =>
      if n % 2 = 0 then accept (.vredMaxF32 (fld n 26 1) (fld n 14 5) (fld n 9 5) (fld n 4 5) (fld n 1 3)) else .error .reservedField
    | 4 =>
      if n % 2 = 0 then accept (.vredAddI32 (fld n 26 1) (fld n 14 5) (fld n 9 5) (fld n 4 5) (fld n 1 3)) else .error .reservedField
    | 5 =>
      if n % 2 = 0 then accept (.vredAddI64 (fld n 26 1) (fld n 14 5) (fld n 9 5) (fld n 4 5) (fld n 1 3)) else .error .reservedField
    | 6 =>
      if n % 2 = 0 then accept (.vredMinI32 (fld n 26 1) (fld n 14 5) (fld n 9 5) (fld n 4 5) (fld n 1 3)) else .error .reservedField
    | 7 =>
      if n % 2 = 0 then accept (.vredMaxI32 (fld n 26 1) (fld n 14 5) (fld n 9 5) (fld n 4 5) (fld n 1 3)) else .error .reservedField
    | 8 =>
      if n / 131072 % 4 = 0 ∧ n / 4096 % 4 = 0 ∧ n / 128 % 4 = 0 ∧ n % 16 = 0 then accept (.kand (fld n 26 1) (fld n 14 3) (fld n 9 3) (fld n 4 3)) else .error .reservedField
    | 9 =>
      if n / 131072 % 4 = 0 ∧ n / 4096 % 4 = 0 ∧ n / 128 % 4 = 0 ∧ n % 16 = 0 then accept (.kor (fld n 26 1) (fld n 14 3) (fld n 9 3) (fld n 4 3)) else .error .reservedField
    | 10 =>
      if n / 131072 % 4 = 0 ∧ n / 4096 % 4 = 0 ∧ n / 128 % 4 = 0 ∧ n % 16 = 0 then accept (.kxor (fld n 26 1) (fld n 14 3) (fld n 9 3) (fld n 4 3)) else .error .reservedField
    | 11 =>
      if n / 131072 % 4 = 0 ∧ n / 4096 % 4 = 0 ∧ n % 512 = 0 then accept (.knot (fld n 26 1) (fld n 14 3) (fld n 9 3)) else .error .reservedField
    | 12 =>
      match n % 512 with
      | 0 =>
        if n / 131072 % 4 = 0 ∧ n / 4096 % 4 = 0 then accept (.kmov (fld n 26 1) (fld n 14 3) (fld n 9 3)) else .error .reservedField
      | 16 =>
        if n / 131072 % 4 = 0 then accept (.kmovFromS (fld n 26 1) (fld n 14 3) (fld n 9 5)) else .error .reservedField
      | 32 =>
        if n / 4096 % 4 = 0 then accept (.kmovToS (fld n 26 1) (fld n 14 5) (fld n 9 3)) else .error .reservedField
      | _ => .error .reservedField
    | 13 =>
      if n / 4096 % 4 = 0 ∧ n % 512 = 0 then accept (.kpop (fld n 26 1) (fld n 14 5) (fld n 9 3)) else .error .reservedField
    | 14 =>
      if n / 131072 % 4 = 0 ∧ n / 4096 % 4 = 0 ∧ n / 64 % 8 = 0 ∧ n % 16 = 0 then accept (.kuni (fld n 26 1) (fld n 14 3) (fld n 9 3) (fld n 4 2)) else .error .reservedField
    | _ => .error .reservedOp
  | _ => .error .reservedOp

/-- The matrix words, major 0x7 (R56). -/
def decodeMatrix (n : Nat) : Except Reject Instr :=
  match n / 4194304 % 32 with
  | 0 =>
    match n % 2 with
    | 0 =>
      if n / 32768 % 4 = 0 ∧ n / 4 % 8 = 0 then accept (.tmma (fld n 19 3) (fld n 17 2) (fld n 10 5) (fld n 5 5) (fld n 1 1)) else .error .reservedField
    | 1 =>
      if n / 1024 % 32 = 0 ∧ n / 4 % 8 = 0 then accept (.tmmaLatch (fld n 19 3) (fld n 17 2) (fld n 15 2) (fld n 5 5) (fld n 1 1)) else .error .reservedField
    | _ => .error .reservedField
  | 1 =>
    if n / 131072 % 4 = 0 ∧ n % 1024 = 0 then accept (.tlatch (fld n 19 3) (fld n 15 2) (fld n 10 5)) else .error .reservedField
  | 2 =>
    if n / 32768 % 4 = 0 then accept (.tgo (fld n 19 3) (fld n 17 2) (fld n 10 5) (fld n 5 5) (fld n 0 5)) else .error .reservedField
  | 3 =>
    if n / 524288 % 8 = 0 ∧ n / 32768 % 4 = 0 ∧ n % 1024 = 0 then accept (.tdrain (fld n 17 2) (fld n 10 5)) else .error .reservedField
  | 4 =>
    if n / 32768 % 128 = 0 ∧ n / 32 % 32 = 0 then accept (.twait (fld n 10 5) (fld n 0 5)) else .error .reservedField
  | 5 =>
    if n / 32768 % 128 = 0 ∧ n / 32 % 32 = 0 then accept (.tstat (fld n 10 5) (fld n 0 5)) else .error .reservedField
  | 6 =>
    if n / 524288 % 8 = 0 ∧ n % 131072 = 0 then accept (.tclr (fld n 17 2)) else .error .reservedField
  | 7 =>
    if n / 32768 % 128 = 0 ∧ n % 1024 = 0 then accept (.trow (fld n 10 5)) else .error .reservedField
  | _ => .error .reservedOp

/-- The core scratchpad words, major 0x8 (R55). -/
def decodeCore (n : Nat) : Except Reject Instr :=
  match n / 8388608 % 16 with
  | 0 =>
    match n / 2097152 % 4 with
    | 0 =>
      accept (.ldB (fld n 16 5) (fld n 11 5) (fld n 6 5) (fld n 0 6))
    | 1 =>
      accept (.ldBu (fld n 16 5) (fld n 11 5) (fld n 6 5) (fld n 0 6))
    | 2 =>
      accept (.ldH (fld n 16 5) (fld n 11 5) (fld n 6 5) (fld n 0 6))
    | 3 =>
      accept (.ldHu (fld n 16 5) (fld n 11 5) (fld n 6 5) (fld n 0 6))
    | _ => .error .reservedField
  | 1 =>
    match n / 2097152 % 4 with
    | 0 =>
      accept (.ldW (fld n 16 5) (fld n 11 5) (fld n 6 5) (fld n 0 6))
    | 1 =>
      accept (.ldWu (fld n 16 5) (fld n 11 5) (fld n 6 5) (fld n 0 6))
    | 2 =>
      accept (.ldD (fld n 16 5) (fld n 11 5) (fld n 6 5) (fld n 0 6))
    | _ => .error .reservedField
  | 2 =>
    match n / 2097152 % 4 with
    | 0 =>
      if n / 64 % 32 = 0 then accept (.stB (fld n 16 5) (fld n 11 5) (fld n 0 6)) else .error .reservedField
    | 1 =>
      if n / 64 % 32 = 0 then accept (.stH (fld n 16 5) (fld n 11 5) (fld n 0 6)) else .error .reservedField
    | 2 =>
      if n / 64 % 32 = 0 then accept (.stW (fld n 16 5) (fld n 11 5) (fld n 0 6)) else .error .reservedField
    | 3 =>
      if n / 64 % 32 = 0 then accept (.stD (fld n 16 5) (fld n 11 5) (fld n 0 6)) else .error .reservedField
    | _ => .error .reservedField
  | 4 =>
    match n / 4194304 % 2 with
    | 0 =>
      accept (.vld (fld n 21 1) (fld n 16 5) (fld n 11 5) (fld n 6 5) (fld n 0 6))
    | 1 =>
      if n / 64 % 32 = 0 then accept (.vst (fld n 21 1) (fld n 16 5) (fld n 11 5) (fld n 0 6)) else .error .reservedField
    | _ => .error .reservedField
  | 14 =>
    accept (.vgather (fld n 22 1) (fld n 17 5) (fld n 12 5) (fld n 8 4) (fld n 5 3) (fld n 0 5))
  | 15 =>
    if n % 32 = 0 then accept (.vscatter (fld n 22 1) (fld n 17 5) (fld n 12 5) (fld n 8 4) (fld n 5 3)) else .error .reservedField
  | _ => .error .reservedOp

/-- The cluster scratchpad words, major 0x9 (R55). -/
def decodeCluster (n : Nat) : Except Reject Instr :=
  match n / 4194304 % 32 with
  | 2 =>
    match n / 2097152 % 2 with
    | 0 =>
      accept (.kldW (fld n 16 5) (fld n 11 5) (fld n 6 5) (fld n 0 6))
    | 1 =>
      accept (.kldWu (fld n 16 5) (fld n 11 5) (fld n 6 5) (fld n 0 6))
    | _ => .error .reservedField
  | 3 =>
    if n / 2097152 % 2 = 0 then accept (.kldD (fld n 16 5) (fld n 11 5) (fld n 6 5) (fld n 0 6)) else .error .reservedField
  | 5 =>
    match n / 2097152 % 2 with
    | 0 =>
      if n / 64 % 32 = 0 then accept (.kstW (fld n 16 5) (fld n 11 5) (fld n 0 6)) else .error .reservedField
    | 1 =>
      if n / 64 % 32 = 0 then accept (.kstD (fld n 16 5) (fld n 11 5) (fld n 0 6)) else .error .reservedField
    | _ => .error .reservedField
  | 8 =>
    accept (.kvld (fld n 21 1) (fld n 16 5) (fld n 11 5) (fld n 6 5) (fld n 0 6))
  | 9 =>
    if n / 64 % 32 = 0 then accept (.kvst (fld n 21 1) (fld n 16 5) (fld n 11 5) (fld n 0 6)) else .error .reservedField
  | 16 =>
    match n / 2097152 % 2 with
    | 0 =>
      if n % 64 = 0 then accept (.klook (fld n 16 5) (fld n 11 5) (fld n 6 5)) else .error .reservedField
    | 1 =>
      if n % 64 = 0 then accept (.ktag (fld n 16 5) (fld n 11 5) (fld n 6 5)) else .error .reservedField
    | _ => .error .reservedField
  | 17 =>
    if n / 2097152 % 2 = 0 ∧ n % 64 = 0 then accept (.kuntag (fld n 16 5) (fld n 11 5) (fld n 6 5)) else .error .reservedField
  | _ => .error .reservedOp

/-- The queue and transfer words, major 0xA (R57). -/
def decodeQueueXfer (n : Nat) : Except Reject Instr :=
  match n / 2097152 % 64 with
  | 0 =>
    if n % 64 = 0 then accept (.qput (fld n 16 5) (fld n 11 5) (fld n 6 5)) else .error .reservedField
  | 1 =>
    if n / 64 % 32 = 0 ∧ n % 2 = 0 then accept (.qget (fld n 16 5) (fld n 11 5) (fld n 1 5)) else .error .reservedField
  | 2 =>
    if n / 64 % 32 = 0 ∧ n % 2 = 0 then accept (.qstat (fld n 16 5) (fld n 11 5) (fld n 1 5)) else .error .reservedField
  | 3 =>
    match n % 64 with
    | 0 =>
      if n / 65536 % 32 = 0 then accept (.qcfgRel (fld n 11 5) (fld n 6 5)) else .error .reservedField
    | 1 =>
      if n / 65536 % 32 = 0 then accept (.qcfgOpen (fld n 11 5) (fld n 6 5)) else .error .reservedField
    | 2 =>
      if n / 65536 % 32 = 0 ∧ n / 64 % 32 = 0 then accept (.qcfgClose (fld n 11 5)) else .error .reservedField
    | _ => .error .reservedField
  | 8 =>
    if n / 64 % 32 = 0 ∧ n % 2 = 0 then accept (.xfer (fld n 16 5) (fld n 11 5) (fld n 1 5)) else .error .reservedField
  | 9 =>
    if n / 64 % 32 = 0 ∧ n % 2 = 0 then accept (.xwait (fld n 16 5) (fld n 11 5) (fld n 1 5)) else .error .reservedField
  | 10 =>
    if n / 64 % 32 = 0 ∧ n % 2 = 0 then accept (.xstat (fld n 16 5) (fld n 11 5) (fld n 1 5)) else .error .reservedField
  | 11 =>
    match n % 2048 with
    | 0 =>
      if n / 65536 % 32 = 0 then accept (.xcancel (fld n 11 5)) else .error .reservedField
    | 1 =>
      if n / 2048 % 1024 = 0 then accept (.xcancelAll) else .error .reservedField
    | _ => .error .reservedField
  | _ => .error .reservedOp

/-- The synchronisation and meet words, major 0xB (R57). -/
def decodeSyncMeet (n : Nat) : Except Reject Instr :=
  match n / 2097152 % 64 with
  | 0 =>
    if n / 65536 % 32 = 0 ∧ n % 64 = 0 then accept (.binit (fld n 11 5) (fld n 6 5)) else .error .reservedField
  | 1 =>
    if n / 65536 % 32 = 0 ∧ n % 2048 = 0 then accept (.barrive (fld n 11 5)) else .error .reservedField
  | 2 =>
    if n / 524288 % 4 = 0 ∧ n % 64 = 0 then accept (.bwait (fld n 16 3) (fld n 11 5) (fld n 6 5)) else .error .reservedField
  | 3 =>
    if n / 65536 % 32 = 0 ∧ n % 64 = 0 then accept (.bexpect (fld n 11 5) (fld n 6 5)) else .error .reservedField
  | 4 =>
    if n / 65536 % 32 = 0 ∧ n % 2048 = 0 then accept (.binv (fld n 11 5)) else .error .reservedField
  | 8 =>
    if n % 2 = 0 then accept (.aadd (fld n 16 5) (fld n 11 5) (fld n 6 5) (fld n 1 5)) else .error .reservedField
  | 9 =>
    if n % 2 = 0 then accept (.acas (fld n 16 5) (fld n 11 5) (fld n 6 5) (fld n 1 5)) else .error .reservedField
  | 10 =>
    if n % 2 = 0 then accept (.amin (fld n 16 5) (fld n 11 5) (fld n 6 5) (fld n 1 5)) else .error .reservedField
  | 11 =>
    if n % 2 = 0 then accept (.amax (fld n 16 5) (fld n 11 5) (fld n 6 5) (fld n 1 5)) else .error .reservedField
  | 12 =>
    if n % 2 = 0 then accept (.aor (fld n 16 5) (fld n 11 5) (fld n 6 5) (fld n 1 5)) else .error .reservedField
  | 13 =>
    if n % 2 = 0 then accept (.afix (fld n 16 5) (fld n 11 5) (fld n 6 5) (fld n 1 5)) else .error .reservedField
  | 14 =>
    if n / 64 % 32 = 0 ∧ n % 2 = 0 then accept (.aread (fld n 16 5) (fld n 11 5) (fld n 1 5)) else .error .reservedField
  | 16 =>
    if n / 64 % 1024 = 0 ∧ n % 2 = 0 then accept (.mtaga (fld n 16 5) (fld n 1 5)) else .error .reservedField
  | 17 =>
    if n / 64 % 32 = 0 ∧ n % 2 = 0 then accept (.mtagf (fld n 16 5) (fld n 11 5) (fld n 1 5)) else .error .reservedField
  | 18 =>
    match n / 32 % 2 with
    | 0 =>
      accept (.meet (fld n 16 5) (fld n 11 5) (fld n 6 5) (fld n 4 1) (fld n 0 4))
    | 1 =>
      if n / 16 % 2 = 0 then accept (.meetT (fld n 16 5) (fld n 11 5) (fld n 6 5) (fld n 0 4)) else .error .reservedField
    | _ => .error .reservedField
  | 19 =>
    if n / 64 % 32 = 0 ∧ n % 2 = 0 then accept (.mstat (fld n 16 5) (fld n 11 5) (fld n 1 5)) else .error .reservedField
  | _ => .error .reservedOp

/-- The range and fabric words, major 0xC (R57). -/
def decodeRangeFabric (n : Nat) : Except Reject Instr :=
  match n / 2097152 % 64 with
  | 0 =>
    if n % 2 = 0 then accept (.rlook (fld n 16 5) (fld n 11 5) (fld n 6 5) (fld n 1 5)) else .error .reservedField
  | 1 =>
    if n % 2 = 0 then accept (.rsplit (fld n 16 5) (fld n 11 5) (fld n 6 5) (fld n 1 5)) else .error .reservedField
  | 2 =>
    if n % 2 = 0 then accept (.rmerge (fld n 16 5) (fld n 11 5) (fld n 6 5) (fld n 1 5)) else .error .reservedField
  | 3 =>
    if n / 65536 % 32 = 0 ∧ n % 2048 = 0 then accept (.rinv (fld n 11 5)) else .error .reservedField
  | 4 =>
    match n % 64 with
    | 0 =>
      accept (.rresSet (fld n 16 5) (fld n 11 5) (fld n 6 5))
    | 1 =>
      accept (.rresGrow (fld n 16 5) (fld n 11 5) (fld n 6 5))
    | _ => .error .reservedField
  | 5 =>
    match n % 64 with
    | 0 =>
      if n / 65536 % 32 = 0 then accept (.rprotAll (fld n 11 5) (fld n 6 5)) else .error .reservedField
    | 1 =>
      if n / 65536 % 32 = 0 then accept (.rprotPerm (fld n 11 5) (fld n 6 5)) else .error .reservedField
    | 2 =>
      if n / 65536 % 32 = 0 then accept (.rprotKey (fld n 11 5) (fld n 6 5)) else .error .reservedField
    | _ => .error .reservedField
  | 6 =>
    if n / 64 % 1024 = 0 ∧ n % 2 = 0 then accept (.rfence (fld n 16 5) (fld n 1 5)) else .error .reservedField
  | 7 =>
    if n / 65536 % 32 = 0 ∧ n % 64 = 0 then accept (.rmove (fld n 11 5) (fld n 6 5)) else .error .reservedField
  | 16 =>
    if n / 65536 % 32 = 0 ∧ n % 2048 = 0 then accept (.fput (fld n 11 5)) else .error .reservedField
  | 17 =>
    if n / 65536 % 32 = 0 ∧ n % 2048 = 0 then accept (.fget (fld n 11 5)) else .error .reservedField
  | 18 =>
    if n % 64 = 0 then accept (.fbar (fld n 16 5) (fld n 11 5) (fld n 6 5)) else .error .reservedField
  | 19 =>
    if n / 64 % 32 = 0 ∧ n % 2 = 0 then accept (.fstat (fld n 16 5) (fld n 11 5) (fld n 1 5)) else .error .reservedField
  | 20 =>
    if n / 65536 % 32 = 0 ∧ n % 2048 = 0 then accept (.cpost (fld n 11 5)) else .error .reservedField
  | _ => .error .reservedOp

/-- The instruction that a word holds, or the reason why it holds none (R42). -/
def decode (w : BitVec 32) : Except Reject Instr :=
  match w.toNat / 134217728 % 16 with
  | 0 => decodeControl w.toNat
  | 1 => decodeSystem w.toNat
  | 2 => decodeScalarReg w.toNat
  | 3 => decodeScalarImm w.toNat
  | 4 => decodeLimm w.toNat
  | 5 => decodeVectorArith w.toNat
  | 6 => decodeVectorMove w.toNat
  | 7 => decodeMatrix w.toNat
  | 8 => decodeCore w.toNat
  | 9 => decodeCluster w.toNat
  | 10 => decodeQueueXfer w.toNat
  | 11 => decodeSyncMeet w.toNat
  | 12 => decodeRangeFabric w.toNat
  | _ => .error .reservedMajor

/-- The chain bit: the next word in memory belongs to the same bundle (R40). -/
def chainBit (w : BitVec 32) : Bool := w.getLsbD 31

/-- The word that four bytes hold, byte 0 least significant (R10). -/
def wordOfBytes (b0 b1 b2 b3 : Byte) : BitVec 32 := b3 ++ b2 ++ b1 ++ b0

/-- The first instruction of a list of bytes, with its chain bit and the bytes after it. -/
def decodeBytes : List Byte → Except Reject (Instr × Bool × List Byte)
  | b0 :: b1 :: b2 :: b3 :: rest =>
    match decode (wordOfBytes b0 b1 b2 b3) with
    | .ok i => .ok (i, chainBit (wordOfBytes b0 b1 b2 b3), rest)
    | .error e => .error e
  | _ => .error .truncated

/-- The four bytes of a word as the memories hold them (R10). -/
def bytesOfWord (w : BitVec 32) : List Byte :=
  [w.extractLsb' 0 8, w.extractLsb' 8 8, w.extractLsb' 16 8, w.extractLsb' 24 8]

/-- The instruction that the decoder reads from a word of the opcode table's numbering: every word is 32 bits, so the
bits are the word itself. A row without bits has no encoding. -/
def decodeTableWord (nbits w : Nat) : Option Instr :=
  if nbits = 0 then none
  else
    match decodeBytes (bytesOfWord (BitVec.ofNat 32 w)) with
    | .ok (i, _, _) => some i
    | .error _ => none

/-- A word from its fixed bits and its operand fields, each with the place of its lowest bit. -/
def pack (chain : Bool) (fixed : Nat) (fields : Nat) : Option (BitVec 32) :=
  some (BitVec.ofNat 32 (2147483648 * chain.toNat + fixed + fields))

/-- The word of an instruction under a chain bit; none for the device's own steps, which have no encoding. -/
def encode (chain : Bool) : Instr → Option (BitVec 32)
  | .nop => pack chain 0x00000000 0
  | .br r g n d => pack chain 0x00200000 (1048576 * r.toNat + 131072 * g.toNat + 65536 * n.toNat + d.toNat)
  | .jmp r g n s => pack chain 0x00400000 (1048576 * r.toNat + 131072 * g.toNat + 65536 * n.toNat + s.toNat)
  | .callDisp r g n d => pack chain 0x00600000 (1048576 * r.toNat + 131072 * g.toNat + 65536 * n.toNat + d.toNat)
  | .callReg r g n s => pack chain 0x00800000 (1048576 * r.toNat + 131072 * g.toNat + 65536 * n.toNat + s.toNat)
  | .ret r g n s => pack chain 0x00A00000 (1048576 * r.toNat + 131072 * g.toNat + 65536 * n.toNat + s.toNat)
  | .brvAll r k d => pack chain 0x00C00000 (1048576 * r.toNat + 131072 * k.toNat + d.toNat)
  | .brvNone r k d => pack chain 0x00C10000 (1048576 * r.toNat + 131072 * k.toNat + d.toNat)
  | .loop n l s => pack chain 0x00E00000 (256 * n.toNat + 128 * l.toNat + s.toNat)
  | .bsel r a t => pack chain 0x01000000 (1048576 * r.toNat + 2048 * a.toNat + t.toNat)
  | .fenceL => pack chain 0x01200000 0
  | .mfc d r => pack chain 0x08000000 (65536 * d.toNat + r.toNat)
  | .mtc a r => pack chain 0x08200000 (2048 * a.toNat + r.toNat)
  | .trap k => pack chain 0x08800000 (k.toNat)
  | .bkpt k => pack chain 0x08A00000 (k.toNat)
  | .rett => pack chain 0x08C00000 0
  | .reth => pack chain 0x08E00000 0
  | .trapack => pack chain 0x09000000 0
  | .post d a b l => pack chain 0x0A000000 (65536 * d.toNat + 2048 * a.toNat + 64 * b.toNat + 2 * l.toNat)
  | .postn d a b l => pack chain 0x0A200000 (65536 * d.toNat + 2048 * a.toNat + 64 * b.toNat + 2 * l.toNat)
  | .susp => pack chain 0x0A400000 0
  | .pinM => pack chain 0x0A600000 0
  | .pinQ a => pack chain 0x0A600001 (2048 * a.toNat)
  | .pinB d a => pack chain 0x0A600002 (65536 * d.toNat + 2048 * a.toNat)
  | .pinT a => pack chain 0x0A600003 (2048 * a.toNat)
  | .endStrand => pack chain 0x0A800000 0
  | .gnew d a l => pack chain 0x0B000000 (65536 * d.toNat + 2048 * a.toNat + 2 * l.toNat)
  | .gjoin d a l => pack chain 0x0B200000 (65536 * d.toNat + 2048 * a.toNat + 2 * l.toNat)
  | .gleave d a l => pack chain 0x0B400000 (65536 * d.toNat + 2048 * a.toNat + 2 * l.toNat)
  | .gfree d a l => pack chain 0x0B600000 (65536 * d.toNat + 2048 * a.toNat + 2 * l.toNat)
  | .ginfo d a l => pack chain 0x0B800000 (65536 * d.toNat + 2048 * a.toNat + 2 * l.toNat)
  | .dgst d a l => pack chain 0x0BA00000 (65536 * d.toNat + 2048 * a.toNat + 2 * l.toNat)
  | .traceW a => pack chain 0x0C000000 (2048 * a.toNat)
  | .traceR d a => pack chain 0x0C000001 (65536 * d.toNat + 2048 * a.toNat)
  | .trigFire => pack chain 0x0C200000 0
  | .trigRearm => pack chain 0x0C200001 0
  | .addSr d a b g => pack chain 0x10000000 (32768 * d.toNat + 1024 * a.toNat + 32 * b.toNat + 4 * g.toNat)
  | .addSi d a i => pack chain 0x18000000 (32768 * d.toNat + 1024 * a.toNat + i.toNat)
  | .subSr d a b g => pack chain 0x10100000 (32768 * d.toNat + 1024 * a.toNat + 32 * b.toNat + 4 * g.toNat)
  | .subSi d a i => pack chain 0x18100000 (32768 * d.toNat + 1024 * a.toNat + i.toNat)
  | .andSr d a b g => pack chain 0x10200000 (32768 * d.toNat + 1024 * a.toNat + 32 * b.toNat + 4 * g.toNat)
  | .andSi d a i => pack chain 0x18200000 (32768 * d.toNat + 1024 * a.toNat + i.toNat)
  | .orSr d a b g => pack chain 0x10300000 (32768 * d.toNat + 1024 * a.toNat + 32 * b.toNat + 4 * g.toNat)
  | .orSi d a i => pack chain 0x18300000 (32768 * d.toNat + 1024 * a.toNat + i.toNat)
  | .xorSr d a b g => pack chain 0x10400000 (32768 * d.toNat + 1024 * a.toNat + 32 * b.toNat + 4 * g.toNat)
  | .xorSi d a i => pack chain 0x18400000 (32768 * d.toNat + 1024 * a.toNat + i.toNat)
  | .andnSr d a b g => pack chain 0x10500000 (32768 * d.toNat + 1024 * a.toNat + 32 * b.toNat + 4 * g.toNat)
  | .andnSi d a i => pack chain 0x18500000 (32768 * d.toNat + 1024 * a.toNat + i.toNat)
  | .shlSr d a b g => pack chain 0x10600000 (32768 * d.toNat + 1024 * a.toNat + 32 * b.toNat + 4 * g.toNat)
  | .shlSi d a i => pack chain 0x18600000 (32768 * d.toNat + 1024 * a.toNat + i.toNat)
  | .shrSr d a b g => pack chain 0x10700000 (32768 * d.toNat + 1024 * a.toNat + 32 * b.toNat + 4 * g.toNat)
  | .shrSi d a i => pack chain 0x18700000 (32768 * d.toNat + 1024 * a.toNat + i.toNat)
  | .sarSr d a b g => pack chain 0x10800000 (32768 * d.toNat + 1024 * a.toNat + 32 * b.toNat + 4 * g.toNat)
  | .sarSi d a i => pack chain 0x18800000 (32768 * d.toNat + 1024 * a.toNat + i.toNat)
  | .rotSr d a b g => pack chain 0x10900000 (32768 * d.toNat + 1024 * a.toNat + 32 * b.toNat + 4 * g.toNat)
  | .rotSi d a i => pack chain 0x18900000 (32768 * d.toNat + 1024 * a.toNat + i.toNat)
  | .minSr d a b g => pack chain 0x10A00000 (32768 * d.toNat + 1024 * a.toNat + 32 * b.toNat + 4 * g.toNat)
  | .minSi d a i => pack chain 0x18A00000 (32768 * d.toNat + 1024 * a.toNat + i.toNat)
  | .maxSr d a b g => pack chain 0x10B00000 (32768 * d.toNat + 1024 * a.toNat + 32 * b.toNat + 4 * g.toNat)
  | .maxSi d a i => pack chain 0x18B00000 (32768 * d.toNat + 1024 * a.toNat + i.toNat)
  | .minuSr d a b g => pack chain 0x10C00000 (32768 * d.toNat + 1024 * a.toNat + 32 * b.toNat + 4 * g.toNat)
  | .minuSi d a i => pack chain 0x18C00000 (32768 * d.toNat + 1024 * a.toNat + i.toNat)
  | .maxuSr d a b g => pack chain 0x10D00000 (32768 * d.toNat + 1024 * a.toNat + 32 * b.toNat + 4 * g.toNat)
  | .maxuSi d a i => pack chain 0x18D00000 (32768 * d.toNat + 1024 * a.toNat + i.toNat)
  | .mulSr d a b g => pack chain 0x11000000 (32768 * d.toNat + 1024 * a.toNat + 32 * b.toNat + 4 * g.toNat)
  | .mulSi d a i => pack chain 0x19000000 (32768 * d.toNat + 1024 * a.toNat + i.toNat)
  | .mulh d a b g => pack chain 0x11100000 (32768 * d.toNat + 1024 * a.toNat + 32 * b.toNat + 4 * g.toNat)
  | .mulhu d a b g => pack chain 0x11200000 (32768 * d.toNat + 1024 * a.toNat + 32 * b.toNat + 4 * g.toNat)
  | .div d a b g => pack chain 0x11400000 (32768 * d.toNat + 1024 * a.toNat + 32 * b.toNat + 4 * g.toNat)
  | .divu d a b g => pack chain 0x11500000 (32768 * d.toNat + 1024 * a.toNat + 32 * b.toNat + 4 * g.toNat)
  | .rem d a b g => pack chain 0x11600000 (32768 * d.toNat + 1024 * a.toNat + 32 * b.toNat + 4 * g.toNat)
  | .remu d a b g => pack chain 0x11700000 (32768 * d.toNat + 1024 * a.toNat + 32 * b.toNat + 4 * g.toNat)
  | .clz d a g => pack chain 0x11800000 (32768 * d.toNat + 1024 * a.toNat + 4 * g.toNat)
  | .ctz d a g => pack chain 0x11900000 (32768 * d.toNat + 1024 * a.toNat + 4 * g.toNat)
  | .popc d a g => pack chain 0x11A00000 (32768 * d.toNat + 1024 * a.toNat + 4 * g.toNat)
  | .brev d a g => pack chain 0x11B00000 (32768 * d.toNat + 1024 * a.toNat + 4 * g.toNat)
  | .extB d a g => pack chain 0x12000000 (32768 * d.toNat + 1024 * a.toNat + 4 * g.toNat)
  | .extBu d a g => pack chain 0x12100000 (32768 * d.toNat + 1024 * a.toNat + 4 * g.toNat)
  | .extH d a g => pack chain 0x12200000 (32768 * d.toNat + 1024 * a.toNat + 4 * g.toNat)
  | .extHu d a g => pack chain 0x12300000 (32768 * d.toNat + 1024 * a.toNat + 4 * g.toNat)
  | .extW d a g => pack chain 0x12400000 (32768 * d.toNat + 1024 * a.toNat + 4 * g.toNat)
  | .extWu d a g => pack chain 0x12500000 (32768 * d.toNat + 1024 * a.toNat + 4 * g.toNat)
  | .bfx d a b g => pack chain 0x12800000 (32768 * d.toNat + 1024 * a.toNat + 32 * b.toNat + 4 * g.toNat)
  | .bfi d a b g => pack chain 0x12900000 (32768 * d.toNat + 1024 * a.toNat + 32 * b.toNat + 4 * g.toNat)
  | .addsh1 d a b g => pack chain 0x12C00000 (32768 * d.toNat + 1024 * a.toNat + 32 * b.toNat + 4 * g.toNat)
  | .addsh2 d a b g => pack chain 0x12D00000 (32768 * d.toNat + 1024 * a.toNat + 32 * b.toNat + 4 * g.toNat)
  | .addsh3 d a b g => pack chain 0x12E00000 (32768 * d.toNat + 1024 * a.toNat + 32 * b.toNat + 4 * g.toNat)
  | .addsh4 d a b g => pack chain 0x12F00000 (32768 * d.toNat + 1024 * a.toNat + 32 * b.toNat + 4 * g.toNat)
  | .sel d a b p => pack chain 0x13000000 (32768 * d.toNat + 1024 * a.toNat + 32 * b.toNat + 4 * p.toNat)
  | .cmpEqSr p a b g => pack chain 0x13800000 (32768 * p.toNat + 1024 * a.toNat + 32 * b.toNat + 4 * g.toNat)
  | .cmpEqSi p a i => pack chain 0x1B800000 (32768 * p.toNat + 1024 * a.toNat + i.toNat)
  | .cmpNeSr p a b g => pack chain 0x13900000 (32768 * p.toNat + 1024 * a.toNat + 32 * b.toNat + 4 * g.toNat)
  | .cmpNeSi p a i => pack chain 0x1B900000 (32768 * p.toNat + 1024 * a.toNat + i.toNat)
  | .cmpLtSr p a b g => pack chain 0x13A00000 (32768 * p.toNat + 1024 * a.toNat + 32 * b.toNat + 4 * g.toNat)
  | .cmpLtSi p a i => pack chain 0x1BA00000 (32768 * p.toNat + 1024 * a.toNat + i.toNat)
  | .cmpGeSr p a b g => pack chain 0x13B00000 (32768 * p.toNat + 1024 * a.toNat + 32 * b.toNat + 4 * g.toNat)
  | .cmpGeSi p a i => pack chain 0x1BB00000 (32768 * p.toNat + 1024 * a.toNat + i.toNat)
  | .cmpLtuSr p a b g => pack chain 0x13C00000 (32768 * p.toNat + 1024 * a.toNat + 32 * b.toNat + 4 * g.toNat)
  | .cmpLtuSi p a i => pack chain 0x1BC00000 (32768 * p.toNat + 1024 * a.toNat + i.toNat)
  | .cmpGeuSr p a b g => pack chain 0x13D00000 (32768 * p.toNat + 1024 * a.toNat + 32 * b.toNat + 4 * g.toNat)
  | .cmpGeuSi p a i => pack chain 0x1BD00000 (32768 * p.toNat + 1024 * a.toNat + i.toNat)
  | .plogAnd d a b g => pack chain 0x14000000 (32768 * d.toNat + 1024 * a.toNat + 32 * b.toNat + 4 * g.toNat)
  | .plogOr d a b g => pack chain 0x14100000 (32768 * d.toNat + 1024 * a.toNat + 32 * b.toNat + 4 * g.toNat)
  | .plogXor d a b g => pack chain 0x14200000 (32768 * d.toNat + 1024 * a.toNat + 32 * b.toNat + 4 * g.toNat)
  | .plogAndn d a b g => pack chain 0x14300000 (32768 * d.toNat + 1024 * a.toNat + 32 * b.toNat + 4 * g.toNat)
  | .movi d i => pack chain 0x1D000000 (32768 * d.toNat + i.toNat)
  | .limm i => pack chain 0x20000000 (i.toNat)
  | .vadd x t d a b m z => pack chain 0x28000000 (67108864 * x.toNat + 524288 * t.toNat + 16384 * d.toNat + 512 * a.toNat + 16 * b.toNat + 2 * m.toNat + z.toNat)
  | .vsub x t d a b m z => pack chain 0x28200000 (67108864 * x.toNat + 524288 * t.toNat + 16384 * d.toNat + 512 * a.toNat + 16 * b.toNat + 2 * m.toNat + z.toNat)
  | .vmul x t d a b m z => pack chain 0x28400000 (67108864 * x.toNat + 524288 * t.toNat + 16384 * d.toNat + 512 * a.toNat + 16 * b.toNat + 2 * m.toNat + z.toNat)
  | .vfma x t d a b m z => pack chain 0x28600000 (67108864 * x.toNat + 524288 * t.toNat + 16384 * d.toNat + 512 * a.toNat + 16 * b.toNat + 2 * m.toNat + z.toNat)
  | .vfms x t d a b m z => pack chain 0x28800000 (67108864 * x.toNat + 524288 * t.toNat + 16384 * d.toNat + 512 * a.toNat + 16 * b.toNat + 2 * m.toNat + z.toNat)
  | .vfnma x t d a b m z => pack chain 0x28A00000 (67108864 * x.toNat + 524288 * t.toNat + 16384 * d.toNat + 512 * a.toNat + 16 * b.toNat + 2 * m.toNat + z.toNat)
  | .vmin x t d a b m z => pack chain 0x28C00000 (67108864 * x.toNat + 524288 * t.toNat + 16384 * d.toNat + 512 * a.toNat + 16 * b.toNat + 2 * m.toNat + z.toNat)
  | .vmax x t d a b m z => pack chain 0x28E00000 (67108864 * x.toNat + 524288 * t.toNat + 16384 * d.toNat + 512 * a.toNat + 16 * b.toNat + 2 * m.toNat + z.toNat)
  | .vabs x t d a m z => pack chain 0x29000000 (67108864 * x.toNat + 524288 * t.toNat + 16384 * d.toNat + 512 * a.toNat + 2 * m.toNat + z.toNat)
  | .vneg x t d a m z => pack chain 0x29200000 (67108864 * x.toNat + 524288 * t.toNat + 16384 * d.toNat + 512 * a.toNat + 2 * m.toNat + z.toNat)
  | .vdiv x t d a b m z => pack chain 0x29400000 (67108864 * x.toNat + 524288 * t.toNat + 16384 * d.toNat + 512 * a.toNat + 16 * b.toNat + 2 * m.toNat + z.toNat)
  | .vsqrt x t d a m z => pack chain 0x29600000 (67108864 * x.toNat + 524288 * t.toNat + 16384 * d.toNat + 512 * a.toNat + 2 * m.toNat + z.toNat)
  | .vcmpEqFloat x t k a b m z => pack chain 0x29800000 (67108864 * x.toNat + 524288 * t.toNat + 16384 * k.toNat + 512 * a.toNat + 16 * b.toNat + 2 * m.toNat + z.toNat)
  | .vcmpLtFloat x t k a b m z => pack chain 0x29A00000 (67108864 * x.toNat + 524288 * t.toNat + 16384 * k.toNat + 512 * a.toNat + 16 * b.toNat + 2 * m.toNat + z.toNat)
  | .vcmpLeFloat x t k a b m z => pack chain 0x29C00000 (67108864 * x.toNat + 524288 * t.toNat + 16384 * k.toNat + 512 * a.toNat + 16 * b.toNat + 2 * m.toNat + z.toNat)
  | .vcmpUnFloat x t k a b m z => pack chain 0x29E00000 (67108864 * x.toNat + 524288 * t.toNat + 16384 * k.toNat + 512 * a.toNat + 16 * b.toNat + 2 * m.toNat + z.toNat)
  | .viadd x i d a b m z => pack chain 0x2A000000 (67108864 * x.toNat + 524288 * i.toNat + 16384 * d.toNat + 512 * a.toNat + 16 * b.toNat + 2 * m.toNat + z.toNat)
  | .visub x i d a b m z => pack chain 0x2A200000 (67108864 * x.toNat + 524288 * i.toNat + 16384 * d.toNat + 512 * a.toNat + 16 * b.toNat + 2 * m.toNat + z.toNat)
  | .vimul x i d a b m z => pack chain 0x2A400000 (67108864 * x.toNat + 524288 * i.toNat + 16384 * d.toNat + 512 * a.toNat + 16 * b.toNat + 2 * m.toNat + z.toNat)
  | .vimulh x i d a b m z => pack chain 0x2A600000 (67108864 * x.toNat + 524288 * i.toNat + 16384 * d.toNat + 512 * a.toNat + 16 * b.toNat + 2 * m.toNat + z.toNat)
  | .vimin x i d a b m z => pack chain 0x2A800000 (67108864 * x.toNat + 524288 * i.toNat + 16384 * d.toNat + 512 * a.toNat + 16 * b.toNat + 2 * m.toNat + z.toNat)
  | .vimax x i d a b m z => pack chain 0x2AA00000 (67108864 * x.toNat + 524288 * i.toNat + 16384 * d.toNat + 512 * a.toNat + 16 * b.toNat + 2 * m.toNat + z.toNat)
  | .vand x d a b m z => pack chain 0x2AC00000 (67108864 * x.toNat + 16384 * d.toNat + 512 * a.toNat + 16 * b.toNat + 2 * m.toNat + z.toNat)
  | .vor x d a b m z => pack chain 0x2AC80000 (67108864 * x.toNat + 16384 * d.toNat + 512 * a.toNat + 16 * b.toNat + 2 * m.toNat + z.toNat)
  | .vxor x d a b m z => pack chain 0x2AD00000 (67108864 * x.toNat + 16384 * d.toNat + 512 * a.toNat + 16 * b.toNat + 2 * m.toNat + z.toNat)
  | .vandn x d a b m z => pack chain 0x2AD80000 (67108864 * x.toNat + 16384 * d.toNat + 512 * a.toNat + 16 * b.toNat + 2 * m.toNat + z.toNat)
  | .vshl x j d a b m z => pack chain 0x2AE00000 (67108864 * x.toNat + 524288 * j.toNat + 16384 * d.toNat + 512 * a.toNat + 16 * b.toNat + 2 * m.toNat + z.toNat)
  | .vshr x j d a b m z => pack chain 0x2AF00000 (67108864 * x.toNat + 524288 * j.toNat + 16384 * d.toNat + 512 * a.toNat + 16 * b.toNat + 2 * m.toNat + z.toNat)
  | .vsar x j d a b m z => pack chain 0x2B000000 (67108864 * x.toNat + 524288 * j.toNat + 16384 * d.toNat + 512 * a.toNat + 16 * b.toNat + 2 * m.toNat + z.toNat)
  | .vfxmulFix64 x d a b m z => pack chain 0x2B100000 (67108864 * x.toNat + 16384 * d.toNat + 512 * a.toNat + 16 * b.toNat + 2 * m.toNat + z.toNat)
  | .vfxaddFix64 x d a b m z => pack chain 0x2B180000 (67108864 * x.toNat + 16384 * d.toNat + 512 * a.toNat + 16 * b.toNat + 2 * m.toNat + z.toNat)
  | .vdot16Bf16 x d a b m z => pack chain 0x2B200000 (67108864 * x.toNat + 16384 * d.toNat + 512 * a.toNat + 16 * b.toNat + 2 * m.toNat + z.toNat)
  | .vdot16F16 x d a b m z => pack chain 0x2B280000 (67108864 * x.toNat + 16384 * d.toNat + 512 * a.toNat + 16 * b.toNat + 2 * m.toNat + z.toNat)
  | .vdot16E4m3 x d a b m z => pack chain 0x2B300000 (67108864 * x.toNat + 16384 * d.toNat + 512 * a.toNat + 16 * b.toNat + 2 * m.toNat + z.toNat)
  | .vdot16E5m2 x d a b m z => pack chain 0x2B380000 (67108864 * x.toNat + 16384 * d.toNat + 512 * a.toNat + 16 * b.toNat + 2 * m.toNat + z.toNat)
  | .vdot16I8 x d a b m z => pack chain 0x2B400000 (67108864 * x.toNat + 16384 * d.toNat + 512 * a.toNat + 16 * b.toNat + 2 * m.toNat + z.toNat)
  | .vdot16Log6 x d a b m z => pack chain 0x2B480000 (67108864 * x.toNat + 16384 * d.toNat + 512 * a.toNat + 16 * b.toNat + 2 * m.toNat + z.toNat)
  | .vdot16E2m1 x d a b m z => pack chain 0x2B500000 (67108864 * x.toNat + 16384 * d.toNat + 512 * a.toNat + 16 * b.toNat + 2 * m.toNat + z.toNat)
  | .vcmpEqInt x j k a b m z => pack chain 0x2B800000 (67108864 * x.toNat + 524288 * j.toNat + 16384 * k.toNat + 512 * a.toNat + 16 * b.toNat + 2 * m.toNat + z.toNat)
  | .vcmpLtInt x j k a b m z => pack chain 0x2B900000 (67108864 * x.toNat + 524288 * j.toNat + 16384 * k.toNat + 512 * a.toNat + 16 * b.toNat + 2 * m.toNat + z.toNat)
  | .vcmpLtuInt x j k a b m z => pack chain 0x2BA00000 (67108864 * x.toNat + 524288 * j.toNat + 16384 * k.toNat + 512 * a.toNat + 16 * b.toNat + 2 * m.toNat + z.toNat)
  | .vcmpLeInt x j k a b m z => pack chain 0x2BB00000 (67108864 * x.toNat + 524288 * j.toNat + 16384 * k.toNat + 512 * a.toNat + 16 * b.toNat + 2 * m.toNat + z.toNat)
  | .vcvt x f d a s m z => pack chain 0x30000000 (67108864 * x.toNat + 524288 * f.toNat + 16384 * d.toNat + 512 * a.toNat + 32 * s.toNat + 2 * m.toNat + z.toNat)
  | .vmxq x d a b e => pack chain 0x30800000 (67108864 * x.toNat + 16384 * d.toNat + 512 * a.toNat + 16 * b.toNat + 2 * e.toNat)
  | .vmxd x d a b e => pack chain 0x30880000 (67108864 * x.toNat + 16384 * d.toNat + 512 * a.toNat + 16 * b.toNat + 2 * e.toNat)
  | .vrcpeF32 x d a m z => pack chain 0x30C00000 (67108864 * x.toNat + 16384 * d.toNat + 512 * a.toNat + 2 * m.toNat + z.toNat)
  | .vrsqeF32 x d a m z => pack chain 0x30C80000 (67108864 * x.toNat + 16384 * d.toNat + 512 * a.toNat + 2 * m.toNat + z.toNat)
  | .vfexpF32 x d a m z => pack chain 0x30D00000 (67108864 * x.toNat + 16384 * d.toNat + 512 * a.toNat + 2 * m.toNat + z.toNat)
  | .vscalebF32 x d a b m z => pack chain 0x30D80000 (67108864 * x.toNat + 16384 * d.toNat + 512 * a.toNat + 16 * b.toNat + 2 * m.toNat + z.toNat)
  | .vgetexpF32 x d a m z => pack chain 0x30E00000 (67108864 * x.toNat + 16384 * d.toNat + 512 * a.toNat + 2 * m.toNat + z.toNat)
  | .vrndiF32 x d a m z => pack chain 0x30E80000 (67108864 * x.toNat + 16384 * d.toNat + 512 * a.toNat + 2 * m.toNat + z.toNat)
  | .vrndiIF32 x d a m z => pack chain 0x30E80010 (67108864 * x.toNat + 16384 * d.toNat + 512 * a.toNat + 2 * m.toNat + z.toNat)
  | .vclassF32 x d a m z => pack chain 0x30F00000 (67108864 * x.toNat + 16384 * d.toNat + 512 * a.toNat + 2 * m.toNat + z.toNat)
  | .vrcpeF64 x d a m z => pack chain 0x31000000 (67108864 * x.toNat + 16384 * d.toNat + 512 * a.toNat + 2 * m.toNat + z.toNat)
  | .vrsqeF64 x d a m z => pack chain 0x31080000 (67108864 * x.toNat + 16384 * d.toNat + 512 * a.toNat + 2 * m.toNat + z.toNat)
  | .vfexpF64 x d a m z => pack chain 0x31100000 (67108864 * x.toNat + 16384 * d.toNat + 512 * a.toNat + 2 * m.toNat + z.toNat)
  | .vscalebF64 x d a b m z => pack chain 0x31180000 (67108864 * x.toNat + 16384 * d.toNat + 512 * a.toNat + 16 * b.toNat + 2 * m.toNat + z.toNat)
  | .vgetexpF64 x d a m z => pack chain 0x31200000 (67108864 * x.toNat + 16384 * d.toNat + 512 * a.toNat + 2 * m.toNat + z.toNat)
  | .vrndiF64 x d a m z => pack chain 0x31280000 (67108864 * x.toNat + 16384 * d.toNat + 512 * a.toNat + 2 * m.toNat + z.toNat)
  | .vrndiIF64 x d a m z => pack chain 0x31280010 (67108864 * x.toNat + 16384 * d.toNat + 512 * a.toNat + 2 * m.toNat + z.toNat)
  | .vclassF64 x d a m z => pack chain 0x31300000 (67108864 * x.toNat + 16384 * d.toNat + 512 * a.toNat + 2 * m.toNat + z.toNat)
  | .vsel x d a b k => pack chain 0x31400000 (67108864 * x.toNat + 16384 * d.toNat + 512 * a.toNat + 16 * b.toNat + 2 * k.toNat)
  | .vmov x d a m z => pack chain 0x31480000 (67108864 * x.toNat + 16384 * d.toNat + 512 * a.toNat + 2 * m.toNat + z.toNat)
  | .vxmov x d a m z => pack chain 0x31500000 (67108864 * x.toNat + 16384 * d.toNat + 512 * a.toNat + 2 * m.toNat + z.toNat)
  | .vbcast x d s w m z => pack chain 0x31580000 (67108864 * x.toNat + 16384 * d.toNat + 512 * s.toNat + 16 * w.toNat + 2 * m.toNat + z.toNat)
  | .vext x d a n h w e => pack chain 0x31600000 (67108864 * x.toNat + 16384 * d.toNat + 512 * a.toNat + 16 * n.toNat + 8 * h.toNat + 2 * w.toNat + e.toNat)
  | .vins x d s n h w => pack chain 0x31680000 (67108864 * x.toNat + 16384 * d.toNat + 512 * s.toNat + 16 * n.toNat + 8 * h.toNat + 2 * w.toNat)
  | .vperm x d a b m z => pack chain 0x31700000 (67108864 * x.toNat + 16384 * d.toNat + 512 * a.toNat + 16 * b.toNat + 2 * m.toNat + z.toNat)
  | .vshuf x d a b m z => pack chain 0x31780000 (67108864 * x.toNat + 16384 * d.toNat + 512 * a.toNat + 16 * b.toNat + 2 * m.toNat + z.toNat)
  | .vredAddF32 x d a b m => pack chain 0x31800000 (67108864 * x.toNat + 16384 * d.toNat + 512 * a.toNat + 16 * b.toNat + 2 * m.toNat)
  | .vredAddF64 x d a b m => pack chain 0x31880000 (67108864 * x.toNat + 16384 * d.toNat + 512 * a.toNat + 16 * b.toNat + 2 * m.toNat)
  | .vredMinF32 x d a b m => pack chain 0x31900000 (67108864 * x.toNat + 16384 * d.toNat + 512 * a.toNat + 16 * b.toNat + 2 * m.toNat)
  | .vredMaxF32 x d a b m => pack chain 0x31980000 (67108864 * x.toNat + 16384 * d.toNat + 512 * a.toNat + 16 * b.toNat + 2 * m.toNat)
  | .vredAddI32 x d a b m => pack chain 0x31A00000 (67108864 * x.toNat + 16384 * d.toNat + 512 * a.toNat + 16 * b.toNat + 2 * m.toNat)
  | .vredAddI64 x d a b m => pack chain 0x31A80000 (67108864 * x.toNat + 16384 * d.toNat + 512 * a.toNat + 16 * b.toNat + 2 * m.toNat)
  | .vredMinI32 x d a b m => pack chain 0x31B00000 (67108864 * x.toNat + 16384 * d.toNat + 512 * a.toNat + 16 * b.toNat + 2 * m.toNat)
  | .vredMaxI32 x d a b m => pack chain 0x31B80000 (67108864 * x.toNat + 16384 * d.toNat + 512 * a.toNat + 16 * b.toNat + 2 * m.toNat)
  | .kand x d a b => pack chain 0x31C00000 (67108864 * x.toNat + 16384 * d.toNat + 512 * a.toNat + 16 * b.toNat)
  | .kor x d a b => pack chain 0x31C80000 (67108864 * x.toNat + 16384 * d.toNat + 512 * a.toNat + 16 * b.toNat)
  | .kxor x d a b => pack chain 0x31D00000 (67108864 * x.toNat + 16384 * d.toNat + 512 * a.toNat + 16 * b.toNat)
  | .knot x d a => pack chain 0x31D80000 (67108864 * x.toNat + 16384 * d.toNat + 512 * a.toNat)
  | .kmov x d a => pack chain 0x31E00000 (67108864 * x.toNat + 16384 * d.toNat + 512 * a.toNat)
  | .kmovFromS x d a => pack chain 0x31E00010 (67108864 * x.toNat + 16384 * d.toNat + 512 * a.toNat)
  | .kmovToS x d a => pack chain 0x31E00020 (67108864 * x.toNat + 16384 * d.toNat + 512 * a.toNat)
  | .kpop x d a => pack chain 0x31E80000 (67108864 * x.toNat + 16384 * d.toNat + 512 * a.toNat)
  | .kuni x d a l => pack chain 0x31F00000 (67108864 * x.toNat + 16384 * d.toNat + 512 * a.toNat + 16 * l.toNat)
  | .tmma s acc a b r => pack chain 0x38000000 (524288 * s.toNat + 131072 * acc.toNat + 1024 * a.toNat + 32 * b.toNat + 2 * r.toNat)
  | .tmmaLatch s acc l b r => pack chain 0x38000001 (524288 * s.toNat + 131072 * acc.toNat + 32768 * l.toNat + 32 * b.toNat + 2 * r.toNat)
  | .tlatch s l a => pack chain 0x38400000 (524288 * s.toNat + 32768 * l.toNat + 1024 * a.toNat)
  | .tgo s acc a b p => pack chain 0x38800000 (524288 * s.toNat + 131072 * acc.toNat + 1024 * a.toNat + 32 * b.toNat + p.toNat)
  | .tdrain acc a => pack chain 0x38C00000 (131072 * acc.toNat + 1024 * a.toNat)
  | .twait d l => pack chain 0x39000000 (1024 * d.toNat + l.toNat)
  | .tstat d l => pack chain 0x39400000 (1024 * d.toNat + l.toNat)
  | .tclr acc => pack chain 0x39800000 (131072 * acc.toNat)
  | .trow a => pack chain 0x39C00000 (1024 * a.toNat)
  | .ldB d a l f => pack chain 0x40000000 (65536 * d.toNat + 2048 * a.toNat + 64 * l.toNat + f.toNat)
  | .ldBu d a l f => pack chain 0x40200000 (65536 * d.toNat + 2048 * a.toNat + 64 * l.toNat + f.toNat)
  | .ldH d a l f => pack chain 0x40400000 (65536 * d.toNat + 2048 * a.toNat + 64 * l.toNat + f.toNat)
  | .ldHu d a l f => pack chain 0x40600000 (65536 * d.toNat + 2048 * a.toNat + 64 * l.toNat + f.toNat)
  | .ldW d a l f => pack chain 0x40800000 (65536 * d.toNat + 2048 * a.toNat + 64 * l.toNat + f.toNat)
  | .ldWu d a l f => pack chain 0x40A00000 (65536 * d.toNat + 2048 * a.toNat + 64 * l.toNat + f.toNat)
  | .ldD d a l f => pack chain 0x40C00000 (65536 * d.toNat + 2048 * a.toNat + 64 * l.toNat + f.toNat)
  | .stB d a f => pack chain 0x41000000 (65536 * d.toNat + 2048 * a.toNat + f.toNat)
  | .stH d a f => pack chain 0x41200000 (65536 * d.toNat + 2048 * a.toNat + f.toNat)
  | .stW d a f => pack chain 0x41400000 (65536 * d.toNat + 2048 * a.toNat + f.toNat)
  | .stD d a f => pack chain 0x41600000 (65536 * d.toNat + 2048 * a.toNat + f.toNat)
  | .vld y d a l f => pack chain 0x42000000 (2097152 * y.toNat + 65536 * d.toNat + 2048 * a.toNat + 64 * l.toNat + f.toNat)
  | .vst y d a f => pack chain 0x42400000 (2097152 * y.toNat + 65536 * d.toNat + 2048 * a.toNat + f.toNat)
  | .vgather x d b a m l => pack chain 0x47000000 (4194304 * x.toNat + 131072 * d.toNat + 4096 * b.toNat + 256 * a.toNat + 32 * m.toNat + l.toNat)
  | .vscatter x d b a m => pack chain 0x47800000 (4194304 * x.toNat + 131072 * d.toNat + 4096 * b.toNat + 256 * a.toNat + 32 * m.toNat)
  | .kldW d a l f => pack chain 0x48800000 (65536 * d.toNat + 2048 * a.toNat + 64 * l.toNat + f.toNat)
  | .kldWu d a l f => pack chain 0x48A00000 (65536 * d.toNat + 2048 * a.toNat + 64 * l.toNat + f.toNat)
  | .kldD d a l f => pack chain 0x48C00000 (65536 * d.toNat + 2048 * a.toNat + 64 * l.toNat + f.toNat)
  | .kstW d a f => pack chain 0x49400000 (65536 * d.toNat + 2048 * a.toNat + f.toNat)
  | .kstD d a f => pack chain 0x49600000 (65536 * d.toNat + 2048 * a.toNat + f.toNat)
  | .kvld y d a l f => pack chain 0x4A000000 (2097152 * y.toNat + 65536 * d.toNat + 2048 * a.toNat + 64 * l.toNat + f.toNat)
  | .kvst y d a f => pack chain 0x4A400000 (2097152 * y.toNat + 65536 * d.toNat + 2048 * a.toNat + f.toNat)
  | .klook d a l => pack chain 0x4C000000 (65536 * d.toNat + 2048 * a.toNat + 64 * l.toNat)
  | .ktag d a b => pack chain 0x4C200000 (65536 * d.toNat + 2048 * a.toNat + 64 * b.toNat)
  | .kuntag d a b => pack chain 0x4C400000 (65536 * d.toNat + 2048 * a.toNat + 64 * b.toNat)
  | .qput d a b => pack chain 0x50000000 (65536 * d.toNat + 2048 * a.toNat + 64 * b.toNat)
  | .qget d a l => pack chain 0x50200000 (65536 * d.toNat + 2048 * a.toNat + 2 * l.toNat)
  | .qstat d a l => pack chain 0x50400000 (65536 * d.toNat + 2048 * a.toNat + 2 * l.toNat)
  | .qcfgRel a b => pack chain 0x50600000 (2048 * a.toNat + 64 * b.toNat)
  | .qcfgOpen a b => pack chain 0x50600001 (2048 * a.toNat + 64 * b.toNat)
  | .qcfgClose a => pack chain 0x50600002 (2048 * a.toNat)
  | .xfer d a l => pack chain 0x51000000 (65536 * d.toNat + 2048 * a.toNat + 2 * l.toNat)
  | .xwait d a l => pack chain 0x51200000 (65536 * d.toNat + 2048 * a.toNat + 2 * l.toNat)
  | .xstat d a l => pack chain 0x51400000 (65536 * d.toNat + 2048 * a.toNat + 2 * l.toNat)
  | .xcancel a => pack chain 0x51600000 (2048 * a.toNat)
  | .xcancelAll => pack chain 0x51600001 0
  | .binit a b => pack chain 0x58000000 (2048 * a.toNat + 64 * b.toNat)
  | .barrive a => pack chain 0x58200000 (2048 * a.toNat)
  | .bwait d a b => pack chain 0x58400000 (65536 * d.toNat + 2048 * a.toNat + 64 * b.toNat)
  | .bexpect a b => pack chain 0x58600000 (2048 * a.toNat + 64 * b.toNat)
  | .binv a => pack chain 0x58800000 (2048 * a.toNat)
  | .aadd d a b l => pack chain 0x59000000 (65536 * d.toNat + 2048 * a.toNat + 64 * b.toNat + 2 * l.toNat)
  | .acas d a b l => pack chain 0x59200000 (65536 * d.toNat + 2048 * a.toNat + 64 * b.toNat + 2 * l.toNat)
  | .amin d a b l => pack chain 0x59400000 (65536 * d.toNat + 2048 * a.toNat + 64 * b.toNat + 2 * l.toNat)
  | .amax d a b l => pack chain 0x59600000 (65536 * d.toNat + 2048 * a.toNat + 64 * b.toNat + 2 * l.toNat)
  | .aor d a b l => pack chain 0x59800000 (65536 * d.toNat + 2048 * a.toNat + 64 * b.toNat + 2 * l.toNat)
  | .afix d a b l => pack chain 0x59A00000 (65536 * d.toNat + 2048 * a.toNat + 64 * b.toNat + 2 * l.toNat)
  | .aread d a l => pack chain 0x59C00000 (65536 * d.toNat + 2048 * a.toNat + 2 * l.toNat)
  | .mtaga d l => pack chain 0x5A000000 (65536 * d.toNat + 2 * l.toNat)
  | .mtagf d a l => pack chain 0x5A200000 (65536 * d.toNat + 2048 * a.toNat + 2 * l.toNat)
  | .meet d a b x o => pack chain 0x5A400000 (65536 * d.toNat + 2048 * a.toNat + 64 * b.toNat + 16 * x.toNat + o.toNat)
  | .meetT d a b o => pack chain 0x5A400020 (65536 * d.toNat + 2048 * a.toNat + 64 * b.toNat + o.toNat)
  | .mstat d a l => pack chain 0x5A600000 (65536 * d.toNat + 2048 * a.toNat + 2 * l.toNat)
  | .rlook d a b l => pack chain 0x60000000 (65536 * d.toNat + 2048 * a.toNat + 64 * b.toNat + 2 * l.toNat)
  | .rsplit d a b l => pack chain 0x60200000 (65536 * d.toNat + 2048 * a.toNat + 64 * b.toNat + 2 * l.toNat)
  | .rmerge d a b l => pack chain 0x60400000 (65536 * d.toNat + 2048 * a.toNat + 64 * b.toNat + 2 * l.toNat)
  | .rinv a => pack chain 0x60600000 (2048 * a.toNat)
  | .rresSet d a b => pack chain 0x60800000 (65536 * d.toNat + 2048 * a.toNat + 64 * b.toNat)
  | .rresGrow d a b => pack chain 0x60800001 (65536 * d.toNat + 2048 * a.toNat + 64 * b.toNat)
  | .rprotAll a b => pack chain 0x60A00000 (2048 * a.toNat + 64 * b.toNat)
  | .rprotPerm a b => pack chain 0x60A00001 (2048 * a.toNat + 64 * b.toNat)
  | .rprotKey a b => pack chain 0x60A00002 (2048 * a.toNat + 64 * b.toNat)
  | .rfence d l => pack chain 0x60C00000 (65536 * d.toNat + 2 * l.toNat)
  | .rmove a b => pack chain 0x60E00000 (2048 * a.toNat + 64 * b.toNat)
  | .fput a => pack chain 0x62000000 (2048 * a.toNat)
  | .fget a => pack chain 0x62200000 (2048 * a.toNat)
  | .fbar d a b => pack chain 0x62400000 (65536 * d.toNat + 2048 * a.toNat + 64 * b.toNat)
  | .fstat d a l => pack chain 0x62600000 (65536 * d.toNat + 2048 * a.toNat + 2 * l.toNat)
  | .cpost a => pack chain 0x62800000 (2048 * a.toNat)
  | .loopBack _ => none
  | .timedLanding _ => none
  | .lateDataArrival _ _ _ => none
  | .pickup _ => none
  | .idleRetry _ => none
  | .suspension _ => none
  | .pinWake _ => none
  | .trapEntry _ => none
  | .messageHandlerStart _ => none
  | .watchdogExpiry _ => none
  | .preemptionService _ => none
  | .coreResume _ => none
  | .saveTimerExpiry _ => none
  | .rangeWalk _ _ _ => none
  | .matrixStep _ => none
  | .stepResultsComplete _ => none
  | .latchLoad _ => none
  | .nestPass _ => none
  | .drain _ => none
  | .matrixClear _ => none
  | .postPlacement _ _ => none
  | .tagArbiterApply _ _ => none
  | .messageArrival _ _ => none
  | .sendAcknowledgement _ _ => none
  | .sendHoldExpiry _ _ => none
  | .chunkAdmission _ _ => none
  | .blockComplete _ _ => none
  | .tileVerification _ _ => none
  | .transferComplete _ _ => none
  | .engineFault _ _ => none
  | .syncOperation _ _ => none
  | .barrierDecrement _ => none
  | .objectFetch _ _ => none
  | .waitScan _ => none
  | .meetArrival _ => none
  | .orphanScan _ => none
  | .resultReoffer _ => none
  | .rangeUpdate _ _ => none
  | .compactionBlock => none
  | .doorbell _ => none
  | .launch => none
  | .collectiveEntry => none
  | .jobStart => none
  | .jobEnd => none
  | .unknownEntry => none
  | .phaseCommit => none
  | .preempt => none
  | .preemptAcknowledgement _ => none
  | .preemptionTimeout _ => none
  | .resume => none
  | .cancel => none
  | .continueCmd => none
  | .freeze => none
  | .unfreeze => none
  | .hcmdInvalid _ => none
  | .hstatRead => none
  | .eyectlWrite _ _ => none
  | .hostRegisterWrite _ _ => none
  | .windowRead _ _ => none
  | .windowWrite _ _ => none
  | .attestationRequest _ => none
  | .boot => none
  | .patrolScrub _ => none
  | .scrubWriteback _ => none
  | .eyeThresholdCrossed _ _ => none
  | .retrainingSlot _ => none
  | .droop _ => none
  | .powerLoop _ => none
  | .thermalLoop _ _ => none
  | .railPoll _ _ => none
  | .regulatorTimeout _ => none
  | .flitReplay _ => none
  | .portRetrain _ => none
  | .packageDeath _ => none
  | .packetArrival _ => none
  | .packetTimeout _ => none
  | .fabricCompletion _ _ _ => none
  | .fabricBarrierArrival _ _ => none
  | .fabricBarrierRelease _ => none
  | .roundBreak _ => none
  | .collectiveJoin _ _ => none
  | .joinTimeout _ => none
  | .collectiveChunk _ => none
  | .reset _ _ => none
  | .singleFault _ => none
  | .portRetrainingEnd _ _ => none
  | .engineResumeReport _ => none
  | .getResponseArrival _ _ => none

/-- The instruction is a word of the instruction stream, not a step of the device. -/
def Instr.isWord (i : Instr) : Bool := (encode false i).isSome

end

end Sys2Proof
end

