-- ==== Sys2Proof/Machine/Fetch.lean ====
section
/-! DEFINITION. Fetching a bundle (R40, R41, R45, R244, R268) and reading it as instructions (R42 to R44, R58): the words
of the bundle, the immediates of its LIMM words, the pipes they take, and the decoding faults. -/

namespace Sys2Proof.Machine

/-- A fetch fault: TVAL and XCODE (R268). -/
structure FetchFault where
  /-- TVAL. -/
  tval : Nat
  /-- XCODE. -/
  xcode : Nat
  deriving DecidableEq, Repr

/-- XCODE of a fetch that began in this way: a pick-up's is 2; that of a message handler or of a bucket table, of which R175
and R268 say nothing, is one of those that do not name TVEC. [DESIGN CHOICE, log 115: safe] -/
def State.fetchOrigin (s : State) (origin : Nat) : Nat :=
  if origin = 5 then 2 else if origin = 6 then (Config.freeWord s.fresh 0 9500).toNat % 3 else origin

/-- The code entry holds the code range of the launch in progress (R244). [DEDUCED, log 113: unsafe] -/
def State.codeValid (s : State) (c : Core) : Bool :=
  c.codeEntry.isSome && (s.hub.launch.isNone || c.codeLaunch == s.hub.launch.map (·.num))

/-- A word of the code range as an access (R245, R246). -/
def Desc.codeBound (d : Desc) (off : Nat) : Bound :=
  let va := d.vbase + 4 * off
  { rid := d.rid, version := d.version, va := va, pa := d.poff + 4 * off, key := d.key, perm := d.perm, woff := va - d.rbase }

/-- A word of the code range, by word offset (R40, R246, R247). A poisoned block of a tolerant range reads as zero; what a
fetch from another poisoned block gives is left open. [DESIGN CHOICE, log 19: safe] -/
def State.codeWord (s : State) (c : Core) (origin off : Nat) : Except FetchFault W32 :=
  match c.codeEntry with
  | none => .error { tval := off, xcode := s.fetchOrigin origin }
  | some d =>
    if c.codeWords ≤ off then .error { tval := off, xcode := s.fetchOrigin origin }
    else
      let va := d.vbase + 4 * off
      if !d.perm.getLsbD 2 || decide (va < d.rbase) || decide (d.rlimit < va + 4) then
        .error (if origin = 3 then { tval := off, xcode := 3 } else { tval := va, xcode := 4 })
      else
        let pa := s.redirect (d.codeBound off) 0
        if s.unreadable (s.keyNo d.key) pa 4 then
          .ok (if d.perm.getLsbD 6 then 0 else (Config.freeWord s.fresh off 9000).setWidth 32)
        else
          match s.hbmBytes (s.keyNo d.key) pa 4 with
          | [b0, b1, b2, b3] => .ok (wordOfBytes b0 b1 b2 b3)
          | _ => .ok 0

/-- Blocks of HBM in which some words of a code range stand. -/
def State.codeBlocks (s : State) (d : Desc) (offs : List Nat) : List Nat :=
  (offs.map fun o => s.redirect (d.codeBound o) 0 / 64).eraseDups

/-- The errors that a read of some words of the code range meets are counted, and so are the blocks of a tolerant range that it
substitutes (R406, R410). -/
def State.noteWords (s : State) (c : Core) (offs : List Nat) : State :=
  match c.codeEntry with
  | none => s
  | some d =>
    let offs := offs.filter fun o => decide (o < c.codeWords)
    (s.codeBlocks d offs).foldl (fun s b =>
      let t := s.noteAccess (s.keyNo d.key) (64 * b) 64
      if d.perm.getLsbD 6 && s.unreadable (s.keyNo d.key) (64 * b) 64 then t.onPlatform Platform.substituted else t) s

/-- A fetch reads the words of its bundle. -/
def State.noteFetch (s : State) (c : Core) (words : List (Nat × W32)) : State := s.noteWords c (words.map (·.1))

/-- The words of a bundle from a word offset on: the run that its chain bits give (R41). `fuel` is the number of words to
the end of the code range. -/
def State.bundleWords (s : State) (c : Core) : Nat → Nat → Except FetchFault (List (Nat × W32))
  | 0, off => .error { tval := off, xcode := 0 }
  | fuel + 1, off =>
    match s.codeWord c 0 off with
    | .error e => .error e
    | .ok w =>
      if chainBit w then
        match State.bundleWords s c fuel (off + 1) with
        | .error e => .error e
        | .ok ws => .ok ((off, w) :: ws)
      else .ok [(off, w)]

/-- The word belongs to the scalar immediate words, which a LIMM may follow (R44). -/
def isSi (w : W32) : Bool := fieldOf w 27 4 == 3

/-- The word is a LIMM (R44). -/
def isLimm (w : W32) : Bool := fieldOf w 27 4 == 4

/-- The bundle at the program counter of the executing context. In handler mode it is one word, or an SI word with its
chain bit set and the word after it (R45). A pick-up at a record's RPC looks at the word before it (R24, R45). -/
def State.fetchBundle (s : State) (c : Core) : Except FetchFault (List (Nat × W32)) :=
  let x := c.ctx
  let off := x.pc
  if x.origin = 3 && off % 3 != 0 then .error { tval := off, xcode := 3 }
  else match s.codeWord c x.origin off with
  | .error e => .error e
  | .ok w =>
    let inside := x.origin = 5 && decide (0 < off) &&
      (match s.codeWord c 2 (off - 1) with | .ok v => chainBit v | .error _ => false)
    if inside then .error { tval := off, xcode := 2 }
    else if !chainBit w then .ok [(off, w)]
    else if c.handlerMode then
      (if isSi w then
        match s.codeWord c 0 (off + 1) with
        | .error e => .error e
        | .ok v => .ok [(off, w), (off + 1, v)]
      else .ok [(off, w)])
    else
      match s.bundleWords c (c.codeWords - (off + 1)) (off + 1) with
      | .error e => .error e
      | .ok ws => .ok ((off, w) :: ws)

/-- Pipes as the fold order counts them (R42): 0 B, 1 S, 2 X, 3 Y, 4 M, 5 L, 6 K, 7 Q; none for LIMM. -/
def pipeOf (w : W32) : Option Nat :=
  match fieldOf w 27 4 with
  | 0 => some 0
  | 1 => some 0
  | 2 => some 1
  | 3 => some 1
  | 4 => none
  | 5 => some (if flagOf w 26 then 3 else 2)
  | 6 => some (if flagOf w 26 then 3 else 2)
  | 7 => some 4
  | 8 => some 5
  | 9 => some 6
  | 10 => some 7
  | 11 => some 7
  | 12 => some 7
  | _ => none

/-- A word of a bundle as it executes. -/
structure Item where
  /-- Word offset. -/
  off : Nat
  /-- The word. -/
  raw : W32
  /-- What it decodes to, unless it is illegal. -/
  instr : Option Instr
  /-- Pipe. -/
  pipe : Nat
  /-- Immediate of the LIMM that follows it. -/
  ext : Option (BitVec 27)
  /-- Position among the words that take sequence numbers. -/
  slot : Nat
  deriving DecidableEq, Repr

/-- The words of a bundle with the LIMM after an SI word folded into it (R44). A LIMM in any other place, and a word
that the decoder refuses, has no instruction. Without compiled code, as the decoder (see Decode.lean). -/
noncomputable def itemsOf : List (Nat × W32) → Nat → List Item
  | [], _ => []
  | (off, w) :: rest, slot =>
    let i := (decode w).toOption
    let p := (pipeOf w).getD 8
    if isLimm w then { off := off, raw := w, instr := none, pipe := 8, ext := none, slot := slot } :: itemsOf rest slot
    else if isSi w then
      match rest with
      | (o2, v) :: rest2 =>
        if isLimm v then
          { off := off, raw := w, instr := i, pipe := p, ext := some (v.setWidth 27), slot := slot } ::
            itemsOf rest2 (slot + 1)
        else { off := off, raw := w, instr := i, pipe := p, ext := none, slot := slot } ::
            itemsOf ((o2, v) :: rest2) (slot + 1)
      | [] => [{ off := off, raw := w, instr := i, pipe := p, ext := none, slot := slot }]
    else { off := off, raw := w, instr := i, pipe := p, ext := none, slot := slot } :: itemsOf rest (slot + 1)

/-- The items of a bundle in handler mode: a chain bit is legal only on an SI word before its LIMM, which ends the
bundle (R45). -/
noncomputable def handlerItems (ws : List (Nat × W32)) : List Item :=
  match ws with
  | [(off, w)] =>
    if chainBit w then [{ off := off, raw := w, instr := none, pipe := 8, ext := none, slot := 0 }] else itemsOf ws 0
  | (off, w) :: (o2, v) :: _ =>
    if !isLimm v then [{ off := off, raw := w, instr := none, pipe := 8, ext := none, slot := 0 }]
    else if chainBit v then [{ off := o2, raw := v, instr := none, pipe := 8, ext := none, slot := 0 }]
    else itemsOf [(off, w), (o2, v)] 0
  | [] => []

/-- The first illegal word of a bundle (R58). -/
def firstIllegal (is : List Item) : Option W32 := (is.find? (fun i => i.instr.isNone)).map (·.raw)

/-- Words of a pipe that a bundle may hold (R41). -/
def pipeLimit (p : Nat) : Nat := if p = 1 then 2 else 1

/-- Word offset of the first word that repeats a pipe (R43, R259); `seen` are the pipes of the words before. -/
def conflictAt : List Item → List Nat → Option Nat
  | [], _ => none
  | i :: is, seen =>
    if i.pipe < 8 && decide (pipeLimit i.pipe ≤ (seen.filter (· == i.pipe)).length) then some i.off
    else conflictAt is (i.pipe :: seen)

/-- The items in the order in which their effects are taken: B, S0 and S1, X, Y, M, L, K, Q (R145, R276). -/
def inPipeOrder (is : List Item) : List Item :=
  (List.range 8).flatMap fun p => is.filter fun i => i.pipe == p

end Sys2Proof.Machine
end

