-- ==== Sys2Proof/Machine/Scalar.lean ====
section
/-! DEFINITION. The scalar words (R157 to R161): what each computes, in its register form under a guard and in its
immediate form, and the latency at which it lands (R60). -/

namespace Sys2Proof.Machine

/-- A value lands in the scalar register that a field names. -/
def State.toReg (s : State) (d : BitVec 5) (lat : Nat) (v : W64) : State :=
  s.onHere fun c => c.land (c.sPort d.toNat) lat v.toNat

/-- A truth value lands in a predicate, one cycle later. -/
def State.toPred (s : State) (d : BitVec 3) (b : Bool) : State :=
  s.onHere fun c => c.land (c.pPort d.toNat) 1 b.toNat

/-- An effect under a guard: a false guard writes nothing (R47). -/
def State.under (s : State) (g : BitVec 3) (t : State) : State := if s.guarded g false then t else s

/-- The shift amount of a second operand (R159). -/
def shiftAmount (b : W64) : Nat := b.toNat % 64

/-- Signed division towards zero; all ones for a zero divisor (R160). -/
def divSigned (a b : W64) : W64 := if b = 0 then 0xFFFFFFFFFFFFFFFF#64 else w64 (a.toInt.tdiv b.toInt)

/-- Unsigned division; all ones for a zero divisor (R160). -/
def divUnsigned (a b : W64) : W64 := if b = 0 then 0xFFFFFFFFFFFFFFFF#64 else BitVec.ofNat 64 (a.toNat / b.toNat)

/-- Signed remainder, with the sign of the dividend; the dividend for a zero divisor (R160). -/
def remSigned (a b : W64) : W64 := if b = 0 then a else w64 (a.toInt.tmod b.toInt)

/-- Unsigned remainder; the dividend for a zero divisor (R160). -/
def remUnsigned (a b : W64) : W64 := if b = 0 then a else BitVec.ofNat 64 (a.toNat % b.toNat)

/-- Length of the bit field of BFX and BFI at its position (R159). -/
def fieldLength (b : W64) : Nat := min (min (fieldOf b 8 7) 64) (64 - shiftAmount b)

/-- BFX (R159). -/
def extractField (a b : W64) : W64 := BitVec.ofNat 64 (bits a.toNat (shiftAmount b) (fieldLength b))

/-- BFI (R159): `old` with the field replaced by the lowest bits of `a`. -/
def insertField (old a b : W64) : W64 :=
  let pos := shiftAmount b
  let len := fieldLength b
  BitVec.ofNat 64 (old.toNat - 2 ^ pos * bits old.toNat pos len + 2 ^ pos * bits a.toNat 0 len)

/-- Adds two operands (R159). -/
def execAddSr (d a b : BitVec 5) (g : BitVec 3) (s : State) : Host.Outcome State Fault Refusal :=
  .next (s.under g (s.toReg d 1 (s.reg a + s.reg b)))

/-- Adds two operands, immediate form (R159). -/
def execAddSi (d a : BitVec 5) (i : BitVec 10) (s : State) : Host.Outcome State Fault Refusal :=
  .next (s.toReg d 1 (s.reg a + s.imm i))

/-- Subtracts (R159). -/
def execSubSr (d a b : BitVec 5) (g : BitVec 3) (s : State) : Host.Outcome State Fault Refusal :=
  .next (s.under g (s.toReg d 1 (s.reg a - s.reg b)))

/-- Subtracts, immediate form (R159). -/
def execSubSi (d a : BitVec 5) (i : BitVec 10) (s : State) : Host.Outcome State Fault Refusal :=
  .next (s.toReg d 1 (s.reg a - s.imm i))

/-- Bitwise AND (R159). -/
def execAndSr (d a b : BitVec 5) (g : BitVec 3) (s : State) : Host.Outcome State Fault Refusal :=
  .next (s.under g (s.toReg d 1 (s.reg a &&& s.reg b)))

/-- Bitwise AND, immediate form (R159). -/
def execAndSi (d a : BitVec 5) (i : BitVec 10) (s : State) : Host.Outcome State Fault Refusal :=
  .next (s.toReg d 1 (s.reg a &&& s.imm i))

/-- Bitwise OR (R159). -/
def execOrSr (d a b : BitVec 5) (g : BitVec 3) (s : State) : Host.Outcome State Fault Refusal :=
  .next (s.under g (s.toReg d 1 (s.reg a ||| s.reg b)))

/-- Bitwise OR, immediate form (R159). -/
def execOrSi (d a : BitVec 5) (i : BitVec 10) (s : State) : Host.Outcome State Fault Refusal :=
  .next (s.toReg d 1 (s.reg a ||| s.imm i))

/-- Bitwise XOR (R159). -/
def execXorSr (d a b : BitVec 5) (g : BitVec 3) (s : State) : Host.Outcome State Fault Refusal :=
  .next (s.under g (s.toReg d 1 (s.reg a ^^^ s.reg b)))

/-- Bitwise XOR, immediate form (R159). -/
def execXorSi (d a : BitVec 5) (i : BitVec 10) (s : State) : Host.Outcome State Fault Refusal :=
  .next (s.toReg d 1 (s.reg a ^^^ s.imm i))

/-- AND with the complement of the second operand (R159). -/
def execAndnSr (d a b : BitVec 5) (g : BitVec 3) (s : State) : Host.Outcome State Fault Refusal :=
  .next (s.under g (s.toReg d 1 (s.reg a &&& ~~~(s.reg b))))

/-- AND with the complement of the second operand, immediate form (R159). -/
def execAndnSi (d a : BitVec 5) (i : BitVec 10) (s : State) : Host.Outcome State Fault Refusal :=
  .next (s.toReg d 1 (s.reg a &&& ~~~(s.imm i)))

/-- Shifts left (R159). -/
def execShlSr (d a b : BitVec 5) (g : BitVec 3) (s : State) : Host.Outcome State Fault Refusal :=
  .next (s.under g (s.toReg d 1 (s.reg a <<< shiftAmount (s.reg b))))

/-- Shifts left, immediate form (R159). -/
def execShlSi (d a : BitVec 5) (i : BitVec 10) (s : State) : Host.Outcome State Fault Refusal :=
  .next (s.toReg d 1 (s.reg a <<< shiftAmount (s.imm i)))

/-- Shifts right with zeros (R159). -/
def execShrSr (d a b : BitVec 5) (g : BitVec 3) (s : State) : Host.Outcome State Fault Refusal :=
  .next (s.under g (s.toReg d 1 (s.reg a >>> shiftAmount (s.reg b))))

/-- Shifts right with zeros, immediate form (R159). -/
def execShrSi (d a : BitVec 5) (i : BitVec 10) (s : State) : Host.Outcome State Fault Refusal :=
  .next (s.toReg d 1 (s.reg a >>> shiftAmount (s.imm i)))

/-- Shifts right with copies of the sign (R159). -/
def execSarSr (d a b : BitVec 5) (g : BitVec 3) (s : State) : Host.Outcome State Fault Refusal :=
  .next (s.under g (s.toReg d 1 ((s.reg a).sshiftRight (shiftAmount (s.reg b)))))

/-- Shifts right with copies of the sign, immediate form (R159). -/
def execSarSi (d a : BitVec 5) (i : BitVec 10) (s : State) : Host.Outcome State Fault Refusal :=
  .next (s.toReg d 1 ((s.reg a).sshiftRight (shiftAmount (s.imm i))))

/-- Rotates left (R159). -/
def execRotSr (d a b : BitVec 5) (g : BitVec 3) (s : State) : Host.Outcome State Fault Refusal :=
  .next (s.under g (s.toReg d 1 ((s.reg a).rotateLeft (shiftAmount (s.reg b)))))

/-- Rotates left, immediate form (R159). -/
def execRotSi (d a : BitVec 5) (i : BitVec 10) (s : State) : Host.Outcome State Fault Refusal :=
  .next (s.toReg d 1 ((s.reg a).rotateLeft (shiftAmount (s.imm i))))

/-- Signed minimum (R159). -/
def execMinSr (d a b : BitVec 5) (g : BitVec 3) (s : State) : Host.Outcome State Fault Refusal :=
  .next (s.under g (s.toReg d 1 (if (s.reg a).slt (s.reg b) then s.reg a else s.reg b)))

/-- Signed minimum, immediate form (R159). -/
def execMinSi (d a : BitVec 5) (i : BitVec 10) (s : State) : Host.Outcome State Fault Refusal :=
  .next (s.toReg d 1 (if (s.reg a).slt (s.imm i) then s.reg a else s.imm i))

/-- Signed maximum (R159). -/
def execMaxSr (d a b : BitVec 5) (g : BitVec 3) (s : State) : Host.Outcome State Fault Refusal :=
  .next (s.under g (s.toReg d 1 (if (s.reg a).slt (s.reg b) then s.reg b else s.reg a)))

/-- Signed maximum, immediate form (R159). -/
def execMaxSi (d a : BitVec 5) (i : BitVec 10) (s : State) : Host.Outcome State Fault Refusal :=
  .next (s.toReg d 1 (if (s.reg a).slt (s.imm i) then s.imm i else s.reg a))

/-- Unsigned minimum (R159). -/
def execMinuSr (d a b : BitVec 5) (g : BitVec 3) (s : State) : Host.Outcome State Fault Refusal :=
  .next (s.under g (s.toReg d 1 (if (s.reg a).ult (s.reg b) then s.reg a else s.reg b)))

/-- Unsigned minimum, immediate form (R159). -/
def execMinuSi (d a : BitVec 5) (i : BitVec 10) (s : State) : Host.Outcome State Fault Refusal :=
  .next (s.toReg d 1 (if (s.reg a).ult (s.imm i) then s.reg a else s.imm i))

/-- Unsigned maximum (R159). -/
def execMaxuSr (d a b : BitVec 5) (g : BitVec 3) (s : State) : Host.Outcome State Fault Refusal :=
  .next (s.under g (s.toReg d 1 (if (s.reg a).ult (s.reg b) then s.reg b else s.reg a)))

/-- Unsigned maximum, immediate form (R159). -/
def execMaxuSi (d a : BitVec 5) (i : BitVec 10) (s : State) : Host.Outcome State Fault Refusal :=
  .next (s.toReg d 1 (if (s.reg a).ult (s.imm i) then s.imm i else s.reg a))

/-- Low 64 bits of the product (R159). -/
def execMulSr (d a b : BitVec 5) (g : BitVec 3) (s : State) : Host.Outcome State Fault Refusal :=
  .next (s.under g (s.toReg d 3 (s.reg a * s.reg b)))

/-- Low 64 bits of the product, immediate form (R159). -/
def execMulSi (d a : BitVec 5) (i : BitVec 10) (s : State) : Host.Outcome State Fault Refusal :=
  .next (s.toReg d 3 (s.reg a * s.imm i))

/-- High 64 bits of the signed product (R159). -/
def execMulh (d a b : BitVec 5) (g : BitVec 3) (s : State) : Host.Outcome State Fault Refusal :=
  .next (s.under g (s.toReg d 3 (w64 ((s.reg a).toInt * (s.reg b).toInt / 18446744073709551616))))

/-- High 64 bits of the unsigned product (R159). -/
def execMulhu (d a b : BitVec 5) (g : BitVec 3) (s : State) : Host.Outcome State Fault Refusal :=
  .next (s.under g (s.toReg d 3 (BitVec.ofNat 64 ((s.reg a).toNat * (s.reg b).toNat / 18446744073709551616))))

/-- Signed division (R160). -/
def execDiv (d a b : BitVec 5) (g : BitVec 3) (s : State) : Host.Outcome State Fault Refusal :=
  .next (s.under g (s.toReg d 20 (divSigned (s.reg a) (s.reg b))))

/-- Unsigned division (R160). -/
def execDivu (d a b : BitVec 5) (g : BitVec 3) (s : State) : Host.Outcome State Fault Refusal :=
  .next (s.under g (s.toReg d 20 (divUnsigned (s.reg a) (s.reg b))))

/-- Signed remainder (R160). -/
def execRem (d a b : BitVec 5) (g : BitVec 3) (s : State) : Host.Outcome State Fault Refusal :=
  .next (s.under g (s.toReg d 20 (remSigned (s.reg a) (s.reg b))))

/-- Unsigned remainder (R160). -/
def execRemu (d a b : BitVec 5) (g : BitVec 3) (s : State) : Host.Outcome State Fault Refusal :=
  .next (s.under g (s.toReg d 20 (remUnsigned (s.reg a) (s.reg b))))

/-- Extracts a bit field (R159). -/
def execBfx (d a b : BitVec 5) (g : BitVec 3) (s : State) : Host.Outcome State Fault Refusal :=
  .next (s.under g (s.toReg d 1 (extractField (s.reg a) (s.reg b))))

/-- Inserts a bit field into the destination (R159). -/
def execBfi (d a b : BitVec 5) (g : BitVec 3) (s : State) : Host.Outcome State Fault Refusal :=
  .next (s.under g (s.toReg d 1 (insertField (s.reg d) (s.reg a) (s.reg b))))

/-- Adds the second operand shifted left by 1 (R159). -/
def execAddsh1 (d a b : BitVec 5) (g : BitVec 3) (s : State) : Host.Outcome State Fault Refusal :=
  .next (s.under g (s.toReg d 1 (s.reg a + (s.reg b <<< 1))))

/-- Adds the second operand shifted left by 2 (R159). -/
def execAddsh2 (d a b : BitVec 5) (g : BitVec 3) (s : State) : Host.Outcome State Fault Refusal :=
  .next (s.under g (s.toReg d 1 (s.reg a + (s.reg b <<< 2))))

/-- Adds the second operand shifted left by 3 (R159). -/
def execAddsh3 (d a b : BitVec 5) (g : BitVec 3) (s : State) : Host.Outcome State Fault Refusal :=
  .next (s.under g (s.toReg d 1 (s.reg a + (s.reg b <<< 3))))

/-- Adds the second operand shifted left by 4 (R159). -/
def execAddsh4 (d a b : BitVec 5) (g : BitVec 3) (s : State) : Host.Outcome State Fault Refusal :=
  .next (s.under g (s.toReg d 1 (s.reg a + (s.reg b <<< 4))))

/-- Counts leading zero bits (R159). -/
def execClz (d a : BitVec 5) (g : BitVec 3) (s : State) : Host.Outcome State Fault Refusal :=
  .next (s.under g (s.toReg d 1 (BitVec.ofNat 64 (leadingZeros (s.reg a) 64))))

/-- Counts trailing zero bits (R159). -/
def execCtz (d a : BitVec 5) (g : BitVec 3) (s : State) : Host.Outcome State Fault Refusal :=
  .next (s.under g (s.toReg d 1 (BitVec.ofNat 64 (trailingZeros (s.reg a) 64))))

/-- Counts one bits (R159). -/
def execPopc (d a : BitVec 5) (g : BitVec 3) (s : State) : Host.Outcome State Fault Refusal :=
  .next (s.under g (s.toReg d 1 (BitVec.ofNat 64 (onesBelow (s.reg a) 64))))

/-- Reverses the bit order (R159). -/
def execBrev (d a : BitVec 5) (g : BitVec 3) (s : State) : Host.Outcome State Fault Refusal :=
  .next (s.under g (s.toReg d 1 (BitVec.ofNat 64 (reversed (s.reg a) 64))))

/-- Sign-extends the low 8 bits (R159). -/
def execExtB (d a : BitVec 5) (g : BitVec 3) (s : State) : Host.Outcome State Fault Refusal :=
  .next (s.under g (s.toReg d 1 (((s.reg a).setWidth 8).signExtend 64)))

/-- Zero-extends the low 8 bits (R159). -/
def execExtBu (d a : BitVec 5) (g : BitVec 3) (s : State) : Host.Outcome State Fault Refusal :=
  .next (s.under g (s.toReg d 1 (((s.reg a).setWidth 8).setWidth 64)))

/-- Sign-extends the low 16 bits (R159). -/
def execExtH (d a : BitVec 5) (g : BitVec 3) (s : State) : Host.Outcome State Fault Refusal :=
  .next (s.under g (s.toReg d 1 (((s.reg a).setWidth 16).signExtend 64)))

/-- Zero-extends the low 16 bits (R159). -/
def execExtHu (d a : BitVec 5) (g : BitVec 3) (s : State) : Host.Outcome State Fault Refusal :=
  .next (s.under g (s.toReg d 1 (((s.reg a).setWidth 16).setWidth 64)))

/-- Sign-extends the low 32 bits (R159). -/
def execExtW (d a : BitVec 5) (g : BitVec 3) (s : State) : Host.Outcome State Fault Refusal :=
  .next (s.under g (s.toReg d 1 (((s.reg a).setWidth 32).signExtend 64)))

/-- Zero-extends the low 32 bits (R159). -/
def execExtWu (d a : BitVec 5) (g : BitVec 3) (s : State) : Host.Outcome State Fault Refusal :=
  .next (s.under g (s.toReg d 1 (((s.reg a).setWidth 32).setWidth 64)))

/-- Selects one of two registers by a predicate; the word has no guard (R52, R159). -/
def execSel (d a b : BitVec 5) (p : BitVec 3) (s : State) : Host.Outcome State Fault Refusal :=
  .next (s.toReg d 1 (if s.pred p then s.reg a else s.reg b))

/-- Equality into a predicate (R159). -/
def execCmpEqSr (p : BitVec 3) (a b : BitVec 5) (g : BitVec 3) (s : State) : Host.Outcome State Fault Refusal :=
  .next (s.under g (s.toPred p (s.reg a == s.reg b)))

/-- Equality with an immediate into a predicate (R159). -/
def execCmpEqSi (p : BitVec 3) (a : BitVec 5) (i : BitVec 10) (s : State) : Host.Outcome State Fault Refusal :=
  .next (s.toPred p (s.reg a == s.imm i))

/-- Inequality into a predicate (R159). -/
def execCmpNeSr (p : BitVec 3) (a b : BitVec 5) (g : BitVec 3) (s : State) : Host.Outcome State Fault Refusal :=
  .next (s.under g (s.toPred p (s.reg a != s.reg b)))

/-- Inequality with an immediate into a predicate (R159). -/
def execCmpNeSi (p : BitVec 3) (a : BitVec 5) (i : BitVec 10) (s : State) : Host.Outcome State Fault Refusal :=
  .next (s.toPred p (s.reg a != s.imm i))

/-- Signed less-than into a predicate (R159). -/
def execCmpLtSr (p : BitVec 3) (a b : BitVec 5) (g : BitVec 3) (s : State) : Host.Outcome State Fault Refusal :=
  .next (s.under g (s.toPred p ((s.reg a).slt (s.reg b))))

/-- Signed less-than with an immediate into a predicate (R159). -/
def execCmpLtSi (p : BitVec 3) (a : BitVec 5) (i : BitVec 10) (s : State) : Host.Outcome State Fault Refusal :=
  .next (s.toPred p ((s.reg a).slt (s.imm i)))

/-- Signed greater-or-equal into a predicate (R159). -/
def execCmpGeSr (p : BitVec 3) (a b : BitVec 5) (g : BitVec 3) (s : State) : Host.Outcome State Fault Refusal :=
  .next (s.under g (s.toPred p (!(s.reg a).slt (s.reg b))))

/-- Signed greater-or-equal with an immediate into a predicate (R159). -/
def execCmpGeSi (p : BitVec 3) (a : BitVec 5) (i : BitVec 10) (s : State) : Host.Outcome State Fault Refusal :=
  .next (s.toPred p (!(s.reg a).slt (s.imm i)))

/-- Unsigned less-than into a predicate (R159). -/
def execCmpLtuSr (p : BitVec 3) (a b : BitVec 5) (g : BitVec 3) (s : State) : Host.Outcome State Fault Refusal :=
  .next (s.under g (s.toPred p ((s.reg a).ult (s.reg b))))

/-- Unsigned less-than with an immediate into a predicate (R159). -/
def execCmpLtuSi (p : BitVec 3) (a : BitVec 5) (i : BitVec 10) (s : State) : Host.Outcome State Fault Refusal :=
  .next (s.toPred p ((s.reg a).ult (s.imm i)))

/-- Unsigned greater-or-equal into a predicate (R159). -/
def execCmpGeuSr (p : BitVec 3) (a b : BitVec 5) (g : BitVec 3) (s : State) : Host.Outcome State Fault Refusal :=
  .next (s.under g (s.toPred p (!(s.reg a).ult (s.reg b))))

/-- Unsigned greater-or-equal with an immediate into a predicate (R159). -/
def execCmpGeuSi (p : BitVec 3) (a : BitVec 5) (i : BitVec 10) (s : State) : Host.Outcome State Fault Refusal :=
  .next (s.toPred p (!(s.reg a).ult (s.imm i)))

/-- Predicate AND (R159). -/
def execPlogAnd (d a b g : BitVec 3) (s : State) : Host.Outcome State Fault Refusal :=
  .next (s.under g (s.toPred d (s.pred a && s.pred b)))

/-- Predicate OR (R159). -/
def execPlogOr (d a b g : BitVec 3) (s : State) : Host.Outcome State Fault Refusal :=
  .next (s.under g (s.toPred d (s.pred a || s.pred b)))

/-- Predicate XOR (R159). -/
def execPlogXor (d a b g : BitVec 3) (s : State) : Host.Outcome State Fault Refusal :=
  .next (s.under g (s.toPred d (s.pred a != s.pred b)))

/-- Predicate AND with the complement (R159). -/
def execPlogAndn (d a b g : BitVec 3) (s : State) : Host.Outcome State Fault Refusal :=
  .next (s.under g (s.toPred d (s.pred a && !s.pred b)))

/-- Moves an immediate into a register (R159). -/
def execMovi (d : BitVec 5) (i : BitVec 10) (s : State) : Host.Outcome State Fault Refusal :=
  .next (s.toReg d 1 (s.imm i))

/-- A LIMM occupies no pipe: it supplies the upper immediate bits of the SI word directly before it in its bundle, and
takes no sequence number (R44, R20). In any other place it is an illegal instruction, which the decoding of the bundle
raises. -/
def execLimm (i : BitVec 27) (s : State) : Host.Outcome State Fault Refusal :=
  .next (s.onHere fun c => { c with iss := { c.iss with ext := some i } })

end Sys2Proof.Machine
end

