-- ==== Sys2Proof/Machine/Control.lean ====
section
/-! DEFINITION. The control words (R166 to R175): branches, calls, the loop buffer, shape buckets and FENCE.L. -/

namespace Sys2Proof.Machine

/-- Trace entry of the bundle in hand. -/
def State.traced (s : State) (kind data : Nat) : State :=
  s.onHere fun c => (c.early s.fresh s.time traceRegs).record s.fresh s.time kind c.iss.start data

/-- A taken branch by packets from the control word (R69, R70). -/
def State.branchBy (s : State) (d : BitVec 16) : State :=
  let t := packetTarget s.here.iss.word d.toInt
  (s.branch t 3).traced 1 t

/-- A walk of the code range is asked for, and the bundle waits (R244). -/
def State.askCode (s : State) : State :=
  let e := Instr.rangeWalk s.cur true 0
  (if s.agenda.contains e then s else s.push e).stall

/-- A taken branch to a register's word offset (R69): outside the code range the fetch fault follows at the target;
inside, an offset that starts no packet traps at the branch. A core that has lost its code entry asks the walker first
(R244). -/
def State.branchTo (s : State) (kind : Nat) (v : W64) (link : State → State) : State :=
  if !s.codeValid s.here then s.askCode
  else if v.toNat < s.here.codeWords ∧ v.toNat % 3 ≠ 0 then s.misaligned v
  else (link (s.branch v.toNat 3)).traced kind v.toNat

/-- The link of a CALL lands in the register that field 31 names (R168). -/
def State.link (s : State) : State :=
  s.toReg 31 1 (BitVec.ofNat 64 (3 * (s.here.iss.last / 3 + 1)))

/-- NOP does nothing (R50, R166). -/
def execNop (s : State) : Host.Outcome State Fault Refusal := .next s

/-- BR (R167). -/
def execBr (r : BitVec 1) (g : BitVec 3) (n : BitVec 1) (d : BitVec 16) (s : State) :
    Host.Outcome State Fault Refusal :=
  let s := s.drainBit r
  .next (if s.guarded g (n == 1) then s.branchBy d else s)

/-- JMP (R167). -/
def execJmp (r : BitVec 1) (g : BitVec 3) (n : BitVec 1) (a : BitVec 5) (s : State) :
    Host.Outcome State Fault Refusal :=
  let s := s.drainBit r
  .next (if s.guarded g (n == 1) then s.branchTo 1 (s.reg a) id else s)

/-- CALL by displacement (R168). -/
def execCallDisp (r : BitVec 1) (g : BitVec 3) (n : BitVec 1) (d : BitVec 16) (s : State) :
    Host.Outcome State Fault Refusal :=
  let s := s.drainBit r
  .next (if s.guarded g (n == 1) then (s.branchBy d).link else s)

/-- CALL to a register's word offset, which is read before the link is written (R168). -/
def execCallReg (r : BitVec 1) (g : BitVec 3) (n : BitVec 1) (a : BitVec 5) (s : State) :
    Host.Outcome State Fault Refusal :=
  let s := s.drainBit r
  .next (if s.guarded g (n == 1) then s.branchTo 1 (s.reg a) State.link else s)

/-- The KIND of the trace entry of a RET: another one than a JMP's (R167), which R276 does not number.
[DESIGN CHOICE, log 18: safe] -/
def returnKind : Nat := if Config.returnKind.val = 0 then 0 else Config.returnKind.val + 1

/-- RET acts as JMP through the link register, but for the kind of its trace entry (R167). [DESIGN CHOICE, log 18: safe] -/
def execRet (r : BitVec 1) (g : BitVec 3) (n : BitVec 1) (a : BitVec 5) (s : State) :
    Host.Outcome State Fault Refusal :=
  let s := s.drainBit r
  .next (if s.guarded g (n == 1) then s.branchTo returnKind (s.reg a) id else s)

/-- BRV (R169): the mask must be all ones or all zeros; `none_` selects the form that is taken on zeros. -/
def State.branchOnMask (s : State) (none_ : Bool) (r : BitVec 1) (k : BitVec 3) (d : BitVec 16) : State :=
  s.mainOnly <|
    let m := s.mask k
    if m = 0xFFFFFFFFFFFFFFFF#64 ∨ m = 0#64 then
      let s := (s.drainBit r).traced 4 m.toNat
      if (m == 0#64) == none_ then s.branchBy d else s
    else s.fault 6 m 0

/-- BRV.ALL (R169). -/
def execBrvAll (r : BitVec 1) (k : BitVec 3) (d : BitVec 16) (s : State) : Host.Outcome State Fault Refusal :=
  .next (s.branchOnMask false r k d)

/-- BRV.NONE (R169). -/
def execBrvNone (r : BitVec 1) (k : BitVec 3) (d : BitVec 16) (s : State) : Host.Outcome State Fault Refusal :=
  .next (s.branchOnMask true r k d)

/-- Word offset after `n` bundles from `off` on, found by their chain bits; or the first offset that can not be fetched
(R171). -/
def State.skipBundles (s : State) (c : Core) : Nat → Nat → Nat → Nat × Bool
  | 0, _, off => (off, false)
  | fuel + 1, n, off =>
    match s.codeWord c 1 off with
    | .error _ => (off, false)
    | .ok w =>
      if n = 0 then (off, true)
      else State.skipBundles s c fuel (if chainBit w then n else n - 1) (off + 1)

/-- LOOP and the loop-back write the counter by the next cycle, so that the window of an MTC to it that has not landed yet
meets theirs, and the counter is unspecified (R62, R171). [DEDUCED, log 11: safe] -/
def Core.setCounter (c : Core) (fresh i : Nat) (v : W32) : Core :=
  let port : Port := .creg false (0x00C + i)
  if c.landings.any fun l => l.port == port then
    { c with
      lc := c.lc.set i ((Config.freeWord fresh (c.iss.word + 1) port.code).setWidth 32)
      landings := c.landings.map fun l => if l.port == port then { l with clash := true } else l }
  else { c with lc := c.lc.set i v }

/-- LOOP (R171, R173): illegal in handler mode and while a loop is active. A trip count of zero skips the body. -/
def execLoop (n : BitVec 8) (l : BitVec 1) (a : BitVec 5) (s : State) : Host.Outcome State Fault Refusal :=
  let c := s.here
  if c.handlerMode || c.loop.active then .next s.illegal
  else
    let count := n.toNat + 1
    let trips := (s.reg a).setWidth 32
    let next := c.iss.last + 1
    let s1 := s.onHere fun c => (c.setCounter s.fresh l.toNat trips).cleanReg (160 + l.toNat)
    if trips = 0 then
      if !s.codeValid c then .next s.askCode
      else
        let r := s.skipBundles c (c.codeWords + 1 - next) count next
        let s1 := s1.noteWords c ((List.range (r.1 + 1 - next)).map (next + ·))
        .next (if r.2 then s1.onHere fun c => { c with iss := { c.iss with npc := r.1, taken := true, lat := max c.iss.lat 3 } }
          else s1.branch r.1 3)
    else
      .next (s1.onHere fun c =>
        { c with loop := { active := true, sel := l == 1, count := count, body := [], pos := 0, next := next } })

/-- The last body bundle of an active loop issues without a taken branch (R171): the counter in force decides whether the
body repeats. Where an MTC to the counter has not landed yet, neither value need stand. [DEDUCED, log 11: safe] -/
def execLoopBack (core : Nat) (s : State) : Host.Outcome State Fault Refusal :=
  let s := { s with cur := core }
  let c := s.here
  let i := if c.loop.sel then 1 else 0
  let lc := (s.cregAt (0x00C + i)).setWidth 32
  let first := (c.loop.body.headD (0, [])).1
  .next (s.onHere fun c =>
    if !c.loop.active then c
    else if 1 < lc.toNat then
      { c.setCounter s.fresh i (lc - 1) with
        loop := { c.loop with pos := 0, next := first }, iss := { c.iss with npc := first } }
    else { c.setCounter s.fresh i 0 with loop := { c.loop with active := false, body := [], pos := 0 } })

/-- Outcome of the search of a schedule table (R175). -/
inductive Bucket where
  /-- A bucket: its bound, its displacement, and the number of buckets looked at. -/
  | hit (bound disp m : Nat)
  /-- No bucket holds the dimension; the number of buckets looked at. -/
  | miss (m : Nat)
  /-- The bounds do not rise: TVAL. -/
  | bad (tval : Nat)
  /-- A word of the table can not be read. -/
  | beyond (e : FetchFault)
  deriving DecidableEq, Repr

/-- The search of R175 from entry `i` on; `prev` is the bound before it. [DEDUCED, log 27: safe] -/
def State.searchTable (s : State) (c : Core) (t dim : Nat) : Nat → Nat → Option Nat → Bucket
  | 0, i, _ => .miss i
  | fuel + 1, i, prev =>
    match s.codeWord c 6 (3 * t + 1 + 2 * i) with
    | .error e => .beyond e
    | .ok b =>
      if prev.any (fun p => decide (b.toNat ≤ p)) then .bad (3 * t + 1 + 2 * i)
      else if dim ≤ b.toNat then
        match s.codeWord c 6 (3 * t + 2 + 2 * i) with
        | .error e => .beyond e
        | .ok d => .hit b.toNat d.toNat (i + 1)
      else State.searchTable s c t dim fuel (i + 1) (some b.toNat)

/-- The pad mask of BSEL (R175). -/
def padMask (dim w : Nat) : W64 :=
  let r := dim % w
  BitVec.ofNat 64 (if dim = 0 then 0 else if r = 0 then 2 ^ w - 1 else 2 ^ r - 1)

/-- The results of BSEL (R175): s28 and k7 land at t + 3 + floor(m / 4), and the next bundle issues a cycle later.
[DEDUCED, log 27: safe] -/
def State.bucketResult (s : State) (m v : Nat) (mask : W64) : State :=
  (s.onHere fun c => (c.land (c.sPort 28) (3 + m / 4) v).land (.k 7) (3 + m / 4) mask.toNat).takes (4 + m / 4)

/-- BSEL (R174, R175). No rule gives the XCODE of the fetch fault for a table word beyond the code range: it is free.
[DEDUCED, log 27: safe; DESIGN CHOICE, log 121: safe] -/
def execBsel (r : BitVec 1) (a : BitVec 5) (t : BitVec 11) (s : State) : Host.Outcome State Fault Refusal :=
  let c := s.here
  let p : Int := (c.iss.word / 3 : Nat) + t.toInt
  if c.inHandler then .next s.illegal
  else if !s.codeValid c then .next s.askCode
  else if p < 0 then .next (s.fault 3 (w64 (3 * p)) (s.fetchOrigin 6))
  else
    let tp := p.toNat
    let dim := (s.reg a).toNat
    match s.codeWord c 6 (3 * tp) with
    | .error e => .next (s.fault 3 (BitVec.ofNat 64 e.tval) e.xcode)
    | .ok h =>
      let s := s.noteWords c ((List.range (1 + 2 * fieldOf h 0 8)).map (3 * tp + ·))
      if fieldOf h 10 22 ≠ 0 ∨ fieldOf h 0 8 = 0 then .next (s.illegalWith (BitVec.ofNat 64 (3 * tp)))
      else
        let w := 8 * 2 ^ fieldOf h 8 2
        let found := if dim < 2 ^ 32 then s.searchTable c tp dim (fieldOf h 0 8) 0 none else .miss 0
        match found with
        | .beyond e => .next (s.fault 3 (BitVec.ofNat 64 e.tval) e.xcode)
        | .bad v => .next (s.illegalWith (BitVec.ofNat 64 v))
        | .miss m => .next ((s.drainBit r).bucketResult m 0 0)
        | .hit b d m =>
          let target := packetTarget (3 * tp) (signed 32 d)
          .next ((((s.drainBit r).branch target (4 + m / 4)).bucketResult m (2 ^ 32 * b + (b - dim)) (padMask dim w)).traced
            1 target)

/-- The stores that a context has made so far are those that its FENCE.L waits for (R170). -/
def State.fenceStores (s : State) (core : Nat) (handler : Bool) : State :=
  (sharers core true).foldl (fun s k => s.onCore k fun c =>
    { c with oldLines := c.oldLines.map fun o =>
      if o.lacks.contains (core, handler) then { o with fenced := (core, handler) :: o.fenced } else o }) s

/-- FENCE.L (R170): the next bundle waits until the accesses that the executing context has made before have been granted. -/
def execFenceL (s : State) : Host.Outcome State Fault Refusal :=
  .next ((s.fenceStores s.cur s.here.inHandler).onHere fun c => { c with fence := some (c.cycle, c.inHandler) })

end Sys2Proof.Machine
end

