-- ==== Sys2Proof/Machine/Scratch.lean ====
section
/-! DEFINITION. The two scratchpads (R116, R125, R127, R165, R295 to R299): effective offsets, loads and stores of a
context in issue order, what other agents see of stores that no FENCE.L has ordered, and timed loads. -/

namespace Sys2Proof.Machine

/-- Bytes of the core scratchpad (R125) and of the cluster scratchpad (R295). -/
def scratchSize (cluster : Bool) : Nat := if cluster then 16777216 else 8388608

/-- The effective offset of an LA word, exact (R163, R206, R299). -/
def effective (base : W64) (off : BitVec 6) (size : Nat) : Int := base.toInt + off.toInt * (size : Nat)

/-- An effective offset is admitted (R116). -/
def admitted (cluster : Bool) (ea : Int) (size : Nat) : Bool :=
  decide (0 ≤ ea) && decide (ea + (size : Nat) ≤ (scratchSize cluster : Nat)) && decide (ea % (size : Nat) = 0)

/-- Bytes with others stored at a place in them. -/
def overlay (line : List Byte) (at_ : Nat) (bs : List Byte) : List Byte :=
  line.take at_ ++ bs ++ line.drop (at_ + bs.length)

/-- The memory of a scratchpad of a core. -/
def State.pad (s : State) (core : Nat) (cluster : Bool) : Memory :=
  if cluster then (s.cluster (clusterOf core)).scratch else (s.core core).scratch

/-- Its lines with an uncorrectable error. -/
def State.padBad (s : State) (core : Nat) (cluster : Bool) : List Nat :=
  if cluster then (s.cluster (clusterOf core)).badLines else (s.core core).badLines

/-- Any of the lines that the bytes touch has an uncorrectable error. -/
def State.badAt (s : State) (core : Nat) (cluster : Bool) (off n : Nat) : Bool :=
  (s.padBad core cluster).any fun l => decide (off / 64 ≤ l) && decide (l * 64 < off + n)

/-- A line as it stands. -/
def State.lineAt (s : State) (core : Nat) (cluster : Bool) (line : Nat) : List Byte :=
  Memory.read (s.pad core cluster) (64 * line) 64

/-- The older images of a line that agents may still see: what the stores of the sharing cores have left (R165, R298).
[DEDUCED, log 23: unsafe] -/
def State.images (s : State) (core : Nat) (cluster : Bool) (line : Nat) : List OldLine :=
  (sharers core cluster).flatMap fun k => (s.core k).oldLines.filter fun o => o.cluster == cluster && o.line == line

/-- A line as an agent may see it: as it stands, or in an older image (R127, R165, R298). The core `own`, where one is
named, sees every store of its own. -/
def State.lineFor (s : State) (own : Option Nat) (core : Nat) (cluster : Bool) (line : Nat) : List Byte :=
  let now := s.lineAt core cluster line
  let old := (s.images core cluster line).filter fun o => !o.lacks.any fun x => own == some x.1
  (choose s.fresh (40000 + line) (now :: old.map (·.bytes))).getD now

/-- Bytes of a scratchpad as the cores' stores let an agent see them, line by line; `fuel` bounds the lines. -/
def State.padLoop (s : State) (own : Option Nat) (core : Nat) (cluster : Bool) : Nat → Nat → Nat → List Byte
  | 0, _, _ => []
  | fuel + 1, off, n =>
    if n = 0 then []
    else
      let k := min n (64 - off % 64)
      ((s.lineFor own core cluster (off / 64)).drop (off % 64)).take k ++
        State.padLoop s own core cluster fuel (off + k) (n - k)

/-- What another agent than a K or L pipe reads (R127, R165). [DEDUCED, log 23: unsafe] -/
def State.agentRead (s : State) (core : Nat) (cluster : Bool) (off n : Nat) : List Byte :=
  s.padLoop none core cluster (n / 64 + 2) off n

/-- What a core's own pipes read: every store of its own, and of others' stores to the cluster scratchpad those that have
been granted (R65, R298). -/
def State.coreRead (s : State) (core : Nat) (cluster : Bool) (off n : Nat) : List Byte :=
  s.padLoop (some core) core cluster (n / 64 + 2) off n

/-- What the core in hand reads. -/
def State.ownRead (s : State) (cluster : Bool) (off n : Nat) : List Byte := s.coreRead s.cur cluster off n

/-- A scratchpad of a core replaced, and a line that is wholly written freed of its error. -/
def State.setPad (s : State) (core : Nat) (cluster : Bool) (m : Memory) (clean : Nat → Bool) : State :=
  if cluster then
    s.onCluster (clusterOf core) fun c => { c with scratch := m, badLines := c.badLines.filter fun l => !clean l }
  else s.onCore core fun c => { c with scratch := m, badLines := c.badLines.filter fun l => !clean l }

/-- The older images of a line that a core holds, with further bytes stored in them. [DEDUCED, log 23: unsafe] -/
def Core.patch (c : Core) (cluster : Bool) (line : Nat) (f : List Byte → List Byte) : Core :=
  { c with oldLines := c.oldLines.map fun o =>
    if o.cluster == cluster && o.line == line then { o with bytes := f o.bytes } else o }

/-- A line that is written after its core or its cluster has been saved is newer than the save area (R274). -/
def State.touch (s : State) (core : Nat) (cluster : Bool) (line : Nat) : State :=
  if cluster then s.onCluster (clusterOf core) fun c =>
    if c.saved.isSome && !c.newer.contains line then { c with newer := c.newer ++ [line] } else c
  else s.onCore core fun c => c.touch [line]

/-- Bytes that another agent writes to one line; they show in every image of it. -/
def State.agentLine (s : State) (core : Nat) (cluster : Bool) (off : Nat) (bs : List Byte) : State :=
  let line := off / 64
  let t := (s.setPad core cluster (Memory.write (s.pad core cluster) off bs) (fun l => l == line && bs.length == 64)).touch core
    cluster line
  (sharers core cluster).foldl (fun t k => t.onCore k fun c => c.patch cluster line fun b => overlay b (off % 64) bs) t

/-- Bytes that another agent writes, line by line; `fuel` bounds the lines. -/
def State.agentWriteLoop (s : State) (core : Nat) (cluster : Bool) : Nat → Nat → List Byte → State
  | 0, _, _ => s
  | _, _, [] => s
  | fuel + 1, off, bs =>
    let n := 64 - off % 64
    State.agentWriteLoop (s.agentLine core cluster off (bs.take n)) core cluster fuel (off + n) (bs.drop n)

/-- Bytes that another agent writes. -/
def State.agentWrite (s : State) (core : Nat) (cluster : Bool) (off : Nat) (bs : List Byte) : State :=
  s.agentWriteLoop core cluster (bs.length / 64 + 2) off bs

/-! Line requests of loads (R127, R128, R208, R296, R297). -/

/-- The bank of an offset (R125, R295). -/
def bankOf (cluster : Bool) (off : Nat) : Nat := if cluster then 16 + off / 1048576 else off / 524288

/-- Bytes that a load wants, `lat` periods from the grant to its data; when its bank sees the request is set at its issue. -/
def Want.of (cluster : Bool) (off size place lat : Nat) : Want :=
  { cluster := cluster, off := off, size := size, place := place, lat := lat, at_ := 0, limit := 0, since := 0 }

/-- The line requests of a core that wait for a bank, by the place of their result and their line (R128). -/
def Core.waiting (c : Core) (bank : Nat) : List (Nat × Nat) :=
  (c.landings.zipIdx.flatMap fun l => (l.1.wants.filter fun w => bankOf w.cluster w.off == bank).map fun w =>
    (l.2, w.off / 64)).eraseDups

/-- Line requests at their issue: the bank sees one of the L pipe in the next period and grants it no later than 11 periods
after, and one more for each request of the same pipe that waits for that bank already, those of the same word in lane order
among them; one of the K pipe two periods later and 16 after (R128, R297). `time` is the time base. -/
def Core.stamped (c : Core) (time : Nat) : List Want → List (Nat × Nat) → List Want
  | [], _ => []
  | w :: ws, before =>
    let key := (bankOf w.cluster w.off, w.off / 64)
    let others := (before.filter fun k => k.1 == key.1 && k != key).length
    let at_ := c.period + (if w.cluster then 2 else 1)
    let limit := at_ + (if w.cluster then 16 else 11 + (c.waiting key.1).length + others)
    { w with at_ := at_, limit := limit, since := time } ::
      Core.stamped c time ws (if before.contains key then before else before ++ [key])

/-- Line requests of a core that its banks may grant next: the oldest one of each bank (R127, R296). Each stands with the
place of its result among those in flight. -/
def Core.grantable (c : Core) : List (Nat × Want) :=
  (c.landings.zipIdx.flatMap fun l => l.1.wants.map fun w => (l.2, w)).foldl
    (fun gs w => if gs.any fun g => bankOf g.2.cluster g.2.off == bankOf w.2.cluster w.2.off then gs else gs ++ [w]) []

/-- TVAL of the machine check of a bad line (R269). -/
def padTval (cluster : Bool) (ea : Nat) : W64 := BitVec.ofNat 64 (if cluster then 0x10000000000 + ea else ea)

/-- A value of `size` bytes, sign-extended to 64 bits (R164). -/
def signExtended (size v : Nat) : Nat := (BitVec.ofInt 64 (signed (8 * size) v)).toNat

/-- A value with bytes stored at a place in it. -/
def withBytes (v : Vec) (place : Nat) (bs : List Byte) : Vec :=
  BitVec.ofNat 512 (bytesToNat (overlay (natToBytes 64 v.toNat) place bs))

/-- A result whose requests to one line are granted: its bytes are read as every write granted before left them, an
uncorrectable error is noted, and a complete value is extended (R125, R127, R164). -/
def State.fillLine (s : State) (core : Nat) (cluster : Bool) (line : Nat) (l : Landing) : Landing :=
  let now := l.wants.filter fun w => w.cluster == cluster && w.off / 64 == line
  let rest := l.wants.filter fun w => !(w.cluster == cluster && w.off / 64 == line)
  let v := now.foldl (fun v w => withBytes v w.place (s.coreRead core cluster w.off w.size)) l.val
  let bad := now.find? fun w => s.badAt core cluster w.off w.size
  let v := if rest.isEmpty && l.ext != 0 then BitVec.ofNat 512 (signExtended l.ext v.toNat) else v
  { l with
    val := v, wants := rest, arrived := rest.isEmpty
    err := match l.err, bad with
      | some e, _ => some e
      | none, some w => some (padTval cluster w.off)
      | none, none => none }

/-- The core stands before a boundary at which its results land, or waits for them: the cycle of its next bundle bounds no
grant. -/
def Core.lands (c : Core) : Bool := c.stuck || !c.candidates.isEmpty || c.preempt || !c.starts.isEmpty

/-- The clock period in which a bank grants a request: any one from its coming on, by the period of the next bundle where that
issues first, and never after its limit (R127, R128, R297). [DEDUCED, log 22: unsafe] -/
def Core.grantPeriod (c : Core) (fresh : Nat) (w : Want) : Nat :=
  let low := max c.period w.at_
  let high := if c.lands then w.limit else min w.limit (c.issueAt - 1 + c.frozen.toNat)
  low + Config.choice fresh 64100 % (high + 1 - low)

/-- A bank grants a line request (R127, R128). Once the last request of a result is granted, its data comes some periods later:
by its landing cycle it waits in the threshold buffer; where that is earlier, the clock domain will freeze (R68). -/
def State.grantAt (s : State) (core n : Nat) (w : Want) : State :=
  let c := s.core core
  match c.landings[n]? with
  | none => s
  | some l =>
    let m := s.fillLine core w.cluster (w.off / 64) l
    let ready := max l.ready (c.grantPeriod s.fresh w + w.lat)
    let held := { m with ready := ready, arrived := m.arrived && decide (ready ≤ l.due + c.frozen.toNat) }
    s.setCore core { c with landings := c.landings.set n held }

/-- The core may be frozen for some periods: no request of its waits longer than it can (R128, R297). -/
def Core.allowsFreeze (c : Core) (n : Nat) : Bool :=
  c.landings.all fun l => l.wants.all fun w => decide (c.period + n ≤ w.limit)

/-- A request of the core is granted before the core goes on to its next bundle, or lets its results land: it would wait too
long (R128, R297). -/
def Core.mustGrant (c : Core) : Bool :=
  let next := if c.lands then max c.issueAt c.lastDue else c.issueAt
  c.landings.any fun l => l.wants.any fun w => decide (w.limit < next + c.frozen.toNat)

/-- A bank of a core or of its cluster grants the oldest request of the core. -/
def State.grantNext (s : State) (core bank : Nat) : State :=
  match (s.core core).grantable.find? fun g => bankOf g.2.cluster g.2.off == bank with
  | none => s
  | some g => s.grantAt core g.1 g.2

/-- A result whose data has been granted but comes after its landing cycle, at which the core stands (R68, R128). -/
def Core.lateResult (c : Core) : Option Landing :=
  c.landings.find? fun l => !l.arrived && l.id == 0 && l.wants.isEmpty && decide (l.due ≤ c.cycle)

/-- The older line requests of the core in hand for a line are granted before its store is (R65, R127). -/
def State.grantLine (s : State) (cluster : Bool) (line : Nat) : State :=
  (s.here.landings.zipIdx.filter fun l => l.1.wants.any fun w => w.cluster == cluster && w.off / 64 == line).foldl
    (fun s l => match l.1.wants.find? fun w => w.cluster == cluster && w.off / 64 == line with
      | some w => s.grantAt s.cur l.2 w
      | none => s) s

/-! Stores. -/

/-- A context of a core. -/
def Core.who (c : Core) (core : Nat) : Nat × Bool := (core, c.inHandler)

/-- An image after a store of a context: one that lacks a store of that context lacks this one too, for its stores are
granted in order; of every other one there are two, without the store and with it. -/
def OldLine.after (o : OldLine) (who : Nat × Bool) (f : List Byte → List Byte) : List OldLine :=
  if o.lacks.contains who then [o] else [{ o with lacks := who :: o.lacks }, { o with bytes := f o.bytes }]

/-- A store of the core in hand into one line (R65, R127, R165): the line changes at once for its own context; the image
before it stays for the agents that no FENCE.L orders after it. [DEDUCED, log 23: unsafe] -/
def State.storeLine (s : State) (cluster : Bool) (line : Nat) (f : List Byte → List Byte) (whole : Bool) : State :=
  let s := s.grantLine cluster line
  let who := s.here.who s.cur
  let before := s.lineAt s.cur cluster line
  let t := s.setPad s.cur cluster (Memory.write (s.pad s.cur cluster) (64 * line) (f before)) (fun l => l == line && whole)
  let t := (sharers s.cur cluster).foldl (fun t k => t.onCore k fun c =>
    { c with oldLines := c.oldLines.flatMap fun o =>
      if o.cluster == cluster && o.line == line then o.after who f else [o] }) t
  t.onHere fun c =>
    { c with oldLines := c.oldLines ++ [{ lacks := [who], fenced := [], cluster := cluster, line := line, bytes := before }] }

/-- A store of the core in hand. -/
def State.store (s : State) (cluster : Bool) (off : Nat) (bs : List Byte) : State :=
  s.storeLine cluster (off / 64) (fun l => overlay l (off % 64) bs) (bs.length == 64)

/-- Trace entry of a scratchpad access (R276). -/
def State.traceAccess (s : State) (cluster : Bool) (ea size : Nat) : State :=
  s.traced (if cluster then 6 else 5) (ea % 2 ^ 40 + 2 ^ 40 * size)

/-- The result of a load is on its way, its line requests made (R128, R297). -/
def State.loadNow (s : State) (port : Port) (minimum delay v : Nat) (wants : List Want) (ext : Nat) : State :=
  s.onHere fun c => c.send port (c.timedLatency minimum delay)
    { Landing.of v with timed := true, arrived := wants.isEmpty, wants := c.stamped s.time wants [], ext := ext }

/-- A timed result of a load: its value is as the context's own earlier stores left it, at its delivery an uncorrectable
error raises the machine check; without a free entry of the threshold buffer the bundle does not issue (R66, R67, R125). -/
def State.timedLoad (s : State) (port : Port) (minimum : Nat) (delay : BitVec 5) (v : Nat) (wants : List Want) (ext : Nat) :
    State :=
  if 64 ≤ s.here.buffered then s.freezeFull else s.loadNow port minimum delay.toNat v wants ext

/-- Minimum latency of a load (R164, R206, R299). -/
def loadLatency (cluster : Bool) : Nat := if cluster then 20 else 5

/-- Periods from the grant of a load's line to its data (R128, R297). -/
def grantLatency (cluster : Bool) : Nat := if cluster then 18 else 4

/-- A load of `size` bytes at an effective offset into a register, zero-extended, or sign-extended from `ext` bytes. -/
def State.loadInto (s : State) (cluster : Bool) (port : Port) (a : BitVec 5) (off : BitVec 6) (size : Nat)
    (l : BitVec 5) (ext : Nat) : State :=
  let ea := effective (s.reg a) off size
  if admitted cluster ea size then
    (s.timedLoad port (loadLatency cluster) l 0 [Want.of cluster ea.toNat size 0 (grantLatency cluster)]
      ext).traceAccess cluster ea.toNat size
  else s.misaligned (w64 ea)

/-- A store of `size` bytes at an effective offset. -/
def State.storeFrom (s : State) (cluster : Bool) (v : Nat) (a : BitVec 5) (off : BitVec 6) (size : Nat) : State :=
  let ea := effective (s.reg a) off size
  if admitted cluster ea size then (s.store cluster ea.toNat (natToBytes size v)).traceAccess cluster ea.toNat size
  else s.misaligned (w64 ea)

end Sys2Proof.Machine
end

