-- ==== Sys2Proof/Machine/Place.lean ====
section
/-! DEFINITION. Placing strand records (R28 to R33, R455), handing a strand back at a suspension (R25), merging its flags
into the phase (R100), waking strands (R23, R27, R347), and serving queues and digest reads that wait (R92, R311). -/

namespace Sys2Proof.Machine

/-- Bucket of an affinity address (R28). -/
def bucketOf (va : Nat) : Nat := (hash64 (BitVec.ofNat 64 (va / 2 ^ 13 % 2 ^ 35))).toNat % 20

/-- Die that owns the backing of a physical address (R28, R242). -/
def dieOfPa (pa : Nat) : Nat := if pa / 2 ^ 48 % 16 = 1 then pa / 2 ^ 40 % 8 else stackOf pa / 2

/-- The records of the phase are placed on fixed cores (R33): deterministic mode outside a serial re-execution (R114). -/
def State.fixedPlaces (s : State) : Bool := match s.hub.launch with | some l => l.det && !l.serial | none => false

/-- A record at the tail of its level. -/
def enqueue (levels : List (List Record)) (r : Record) : List (List Record) := modifyAt r.prio (fun l => l ++ [r]) levels

/-- The core that runs a record made runnable in the phase in deterministic mode (R33). -/
def fixedCore (die v : Nat) (lidx : W64) : Nat := die * 80 + v * 4 + lidx.toNat % 4

/-- An idle core that serves the bucket searches again (R31). -/
def State.rouse (s : State) (die v : Nat) : State :=
  (List.range 4).foldl (fun s i =>
    let n := die * 80 + v * 4 + i
    if (s.core n).idleUntil = 0 then s else s.onCore n fun c => { c with idleUntil := 0 }) s

/-- STATE of a record that becomes runnable; a reserved value stays, for the core that picks it up to find (R18). -/
def Record.runnable (r : Record) : Record := if 8 ≤ r.state then r else { r with state := 0 }

/-- A record made runnable in its home bucket (R21, R28, R33). One that was suspended or parked is not refused: where its level
spills and the strand overflow area is full already, it spills all the same. [DESIGN CHOICE, log 129: unsafe] -/
def State.makeRunnable (s : State) (r : Record) (home : BitVec 48) (die : Nat) : State :=
  let v := bucketOf home.toNat
  let r := { r.runnable with pcore := 0 }
  if s.fixedPlaces then s.onCore (fixedCore die v r.lidx) fun c => { c with posts := enqueue c.posts r }
  else (s.onDie die fun d => { d with buckets := modifyAt v (fun b => enqueue b r) d.buckets }).rouse die v

/-- Records beyond a capacity. -/
def beyond (cap n : Nat) : Nat := n - cap

/-- The sum of a list of numbers. -/
def total (l : List Nat) : Nat := l.foldl (· + ·) 0

/-- The die and the bucket of a record's home, as its status block keeps it (R28, R85). [DEDUCED, log 85: unsafe] -/
def State.homeBucket (s : State) (r : Record) : Nat × Nat :=
  match Sparse.get? s.hub.status r.dslot.toNat with
  | some b => (b.homeDie, bucketOf b.home.toNat)
  | none => (0, 0)

/-- Records parked on the barriers of a die. -/
def Die.parkedCount (d : Die) : Nat := total (d.objects.map fun o => (o.2.waiters.filter (·.parked.isSome)).length)

/-- Records of a die that stand in the strand overflow area (R29, R455): buckets with what their cores keep of them, the
next-phase list, and records parked on barriers. What a plan has taken out of a bucket still counts there. -/
def State.spilledOn (s : State) (die : Nat) : Nat :=
  let d := s.die die
  let plans := s.cores.flatMap fun c => c.2.plan
  let buckets := d.buckets.zipIdx.map fun b => total (b.1.zipIdx.map fun l =>
    let kept := total ((List.range 4).map fun i => ((s.core (die * 80 + b.2 * 4 + i)).posts.getD l.2 []).length)
    let planned := (plans.filter fun r => r.prio == l.2 && s.homeBucket r == (die, b.2)).length
    beyond 1024 (l.1.length + kept + planned))
  total buckets + beyond 16384 d.next.length + beyond 65536 d.parkedCount

/-- Records of the job in the strand overflow area. -/
def State.spilled (s : State) : Nat := total ((List.range 8).map s.spilledOn)

/-- The strand overflow area holds what has spilled (R29). While woken records have filled it beyond its size, every new record
that would need a place is refused, whatever region it is for. [DESIGN CHOICE, log 129: unsafe] -/
def State.hasRoom (s : State) : Bool :=
  match s.hub.launch with | some l => decide (64 * s.spilled ≤ l.overflow) | none => false

/-- There is wait space for one more record that parks on a barrier of a die (R347). -/
def State.waitSpace (s : State) (die : Nat) : Bool :=
  let more := if (s.die die).parkedCount < 65536 then 0 else 1
  match s.hub.launch with
  | some l => decide (64 * (s.spilled + more) ≤ l.overflow)
  | none => more == 0

/-- A free status block, in the status area of the launch (R20): the lowest free one. [DESIGN CHOICE, log 114: unsafe] -/
def State.freeBlock (s : State) : Option Nat :=
  match s.hub.launch with
  | some l => (lowestFree s.hub.status (s.hub.status.length + 1) 0).filter fun n => decide (64 * (n + 1) ≤ l.statusSize)
  | none => none

/-! Flags of the phase. -/

/-- Of two elements of the phase flags the one with the lower identifier: logical index, then as R150 (R100). -/
def keepElem (old new : Option (W64 × Offer)) : Option (W64 × Offer) :=
  match old, new with
  | none, x => x
  | x, none => x
  | some a, some b =>
    if b.1 < a.1 then some b else if a.1 < b.1 then some a else some (a.1, (Offer.keep (some a.2) (some b.2)).getD a.2)

/-- Flags and their element join the phase flags under a logical index (R25, R100). -/
def Launch.merge (l : Launch) (lidx : W64) (flags : BitVec 8) (o : Option Offer) : Launch :=
  { l with flags := l.flags ||| flags, elem := keepElem l.elem (o.map fun x => (lidx, x)) }

/-- The flags of a core's strand join the phase flags: all of XFLAGS, or after an earlier merge those that have landed
since (R25, R100). -/
def State.mergeFlags (s : State) (core : Nat) : State :=
  let c := s.core core
  let flags := if c.merged then c.main.xflags &&& c.unmerged else c.main.xflags
  let o := if c.merged then c.unmergedOffer else c.main.xelem
  (s.onLaunch fun l => l.merge c.main.lidx flags o).setCore core
    { c with unmerged := 0, unmergedOffer := none, merged := true }

/-! Leaving a core. -/

/-- The record as step 4 of R25 writes it. -/
def Core.writtenBack (c : Core) (r : Record) : Record :=
  { r with
    args := (List.range 8).map fun i => (c.s.getD i 0).setWidth 32
    rpc := BitVec.ofNat 32 c.main.pc
    mode := BitVec.ofNat 32 (c.main.mode.toNat % 2 ^ 31 + 2 ^ 31 * fieldOf r.mode 31 1) }

/-- SR counter and operation sequence number go to the status block (R25 step 3). -/
def State.saveCounters (s : State) (core : Nat) (dslot : Nat) : State :=
  let x := (s.core core).main
  s.onStatus dslot fun b => { b with src := x.src, osn := x.osn }

/-- The core holds no strand and searches for work (R25). -/
def Core.vacated (c : Core) (time : Nat) : Core :=
  { c with
    act := .idle, strand := none, idleUntil := 0, loop := Loop.reset, wdStart := time, wdHeld := false
    main := { c.main with suspp := false } }

/-- Steps 3 and 4 of R25: flags merged, counters and arguments written, the core free. The record, for its
destination. -/
def State.handBack (s : State) (core : Nat) : State × Option Record :=
  let s := (s.mergeFlags core).granted core false
  match (s.core core).strand with
  | none => (s.onCore core fun c => c.vacated s.time, none)
  | some r =>
    let s := s.saveCounters core r.dslot.toNat
    let c := s.core core
    ((s.setCore core (c.vacated s.time)).onCore core fun c => c.record s.fresh s.time 9 c.main.pc 0, some (c.writtenBack r))

/-! Waking. -/

/-- A record with the status word of a barrier in the argument that its BWAIT named (R23, R346). -/
def Record.woken (r : Record) (dst : Nat) (word : W32) : Record :=
  { r with args := r.args.set dst word, wstat := fieldOf word 24 8 != 0 }

/-- A record goes to the home bucket that its status block keeps (R85). -/
def State.sendHome (s : State) (r : Record) : State :=
  match s.statusBlock r.dslot.toNat with
  | some b => s.makeRunnable r b.home b.homeDie
  | none => s.makeRunnable r 0 0

/-! Queues. -/

/-- Handler starts beyond 256 are dropped, each with its transom entry (R308, R356). -/
def State.trimStarts (s : State) (core : Nat) : State :=
  let c := s.core core
  if c.starts.length ≤ 256 then s
  else
    let t := s.setCore core { c with starts := c.starts.take 256 }
    (c.starts.drop 256).foldl (fun t x => t.dieEvent (dieOfCore core) 0x05 core (x.1 + 2 ^ 64 * x.2.toNat)) t

/-- Offset of the entry at HEAD as results report it. -/
def Queue.headOffset (q : Queue) : Nat := q.entryOffset q.head % 2 ^ 23

/-- LEN of the message at HEAD as the ring entry then stands (R311); beyond the scratchpad a free value. -/
def State.headLen (s : State) (core : Nat) (q : Queue) : Nat :=
  let o := q.entryOffset q.head
  if o < 8388608 then headerLen (bytesToNat (s.agentRead core false o 8))
  else (Config.freeWord s.fresh o 9300).toNat % 512

/-- HEAD advances over a message. [DEDUCED, log 45: unsafe] -/
def Queue.take (q : Queue) (n : Nat) : Queue := { q with ptr := Queue.ptrOf q.freeCount (q.head + n) q.tail }

/-- What QGET finds (R311): a result word, nothing, or the front of the overflow area still to be moved. -/
inductive Got where
  /-- A result. -/
  | result (s : State) (v : Nat)
  /-- The queue is empty. -/
  | empty
  /-- The front message waits for the ring. -/
  | later
  deriving Repr

/-- The result word of QGET. -/
def getWord (st len off : Nat) : Nat := 2 ^ 56 * st + 2 ^ 47 * len + off

/-- QGET at the arbiter (R311). [DEDUCED, log 45: unsafe] -/
def State.tryGet (s : State) (core n : Nat) : Got :=
  let q := (s.core core).queue n
  if !q.open? then .result s (getWord 0x32 0 0)
  else if q.head = q.tail then
    match q.spilled with
    | [] => .empty
    | m :: rest =>
      if q.size < m.length then
        .result (s.onCore core fun c => c.setQueue n { q with spilled := rest }) (getWord 0x33 m.length 0)
      else .later
  else
    let len := s.headLen core q
    if len = 0 ∨ 129 < len ∨ q.unread < len ∨ q.size < len then .result s (getWord 0x34 len q.headOffset)
    else .result (s.onCore core fun c => c.setQueue n (q.take len)) (getWord 0 len q.headOffset)

/-- The message at the front of a queue's overflow area is read; where it stands in a block that can not be read, its payload is
poisoned (R316, R393, R410). -/
def State.readFront (s : State) (core n : Nat) : State :=
  match s.hub.launch with
  | none => s
  | some l =>
    let pa := l.queueBase + (8 * core + n) * l.queueArea
    if s.areaLost pa l.queueArea then
      (s.noteLost pa l.queueArea).onCore core fun c => c.setQueue n { c.queue n with spoiled := true }
    else s

/-- Messages of the overflow area move into the ring while it has room for the one at the front (R306 step 3); `fuel` bounds
them. -/
def State.settleQueue (s : State) (core n : Nat) : Nat → State
  | 0 => s
  | fuel + 1 =>
    if ((s.core core).queue n).front.isNone then s
    else State.settleQueue ((s.readFront core n).onCore core fun c => c.moveFront n) core n fuel

/-- Messages move into the ring, and a parked strand takes what is delivered (R306, R311): its record goes to the local slot
of the core (R27). -/
def State.settleRing (s : State) (core n : Nat) : State :=
  let s := (s.settleQueue core n ((s.core core).queue n).spilled.length).trimStarts core
  let q := (s.core core).queue n
  match q.waiter with
  | none => s
  | some w =>
    if q.open? && q.news && q.head != q.tail then
      let len := s.headLen core q
      let word := BitVec.ofNat 32 (2 ^ 24 * (len % 256) + q.headOffset)
      let r := { w.record.runnable with args := w.record.args.set w.dst word, wstat := false }
      s.onCore core fun c =>
        { c.setQueue n { q.take len with waiter := none } with slot := c.slot ++ [r], idleUntil := 0 }
    else s

/-- A QGET from a queue. -/
def Op.getsFrom (n : Nat) : Op → Bool
  | .get q _ _ => q == n
  | _ => false

/-- A waiting QGET is answered once the front message has moved. -/
def State.serveGet (s : State) (core n : Nat) : State :=
  match s.ops.find? (fun p => p.by_.core == core && p.op.getsFrom n) with
  | none => s
  | some p =>
    match s.tryGet core n with
    | .result t v => (t.dropOp p.id).answer core p.id (BitVec.ofNat 512 v)
    | _ => s

/-- A queue is served after an arrival or a change of its registers (R304, R306, R311). -/
def State.serveQueue (s : State) (core n : Nat) : State :=
  let waiting := s.ops.filter fun p => p.by_.core == core && p.op.getsFrom n
  (waiting.foldl (fun s _ => (s.settleRing core n).serveGet core n) s).settleRing core n

/-- Every queue of a core that holds something back is served. -/
def State.serveQueues (s : State) (core : Nat) : State :=
  (List.range 8).foldl (fun s n =>
    let q := (s.core core).queue n
    if q.spilled.isEmpty && q.waiter.isNone then s else s.serveQueue core n) s

/-! Digest reads. -/

/-- The half of a digest that DGST reads (R92). -/
def StatusBlock.half (b : StatusBlock) (high : Bool) : W64 := if high then b.dh else b.dl

/-- DGSTs whose folds have all been applied are answered, and with them the folds behind (R92, R107). -/
def State.serveDigest (s : State) (n : Nat) : Nat → State
  | 0 => s
  | fuel + 1 =>
    match s.statusBlock n with
    | none => s
    | some b =>
      match b.folds with
      | [] => s
      | f :: rest =>
        match s.findOp f.id with
        | none => s
        | some p =>
          match p.op with
          | .dgst high =>
            let t := (s.onStatus n fun b => b.applyFolds rest).dropOp p.id
            State.serveDigest (t.answer p.by_.core p.id ((b.half high).setWidth 512)) n fuel
          | _ => s

/-- The folds of an operation settle in its strand's order, and reads that waited for them are answered. -/
def State.settleFold (s : State) (by_ : Issuer) (id : Nat) (us : List (W64 × W64)) : State :=
  if by_.handler then s
  else
    let t := s.foldAt by_ id us
    t.serveDigest by_.dslot.toNat (t.ops.length + 1)

end Sys2Proof.Machine
end

