-- ==== Sys2Proof/Machine/Access.lean ====
section
/-! DEFINITION. Loads and stores of the core and the cluster scratchpad (R163 to R165, R295 to R299), and the words of the
tag table (R300 to R302). -/

namespace Sys2Proof.Machine

/-- LD.B (R163, R164). -/
def execLdB (d a l : BitVec 5) (f : BitVec 6) (s : State) : Host.Outcome State Fault Refusal :=
  .next (s.loadInto false (s.here.sPort d.toNat) a f 1 l 1)

/-- LD.BU (R163, R164). -/
def execLdBu (d a l : BitVec 5) (f : BitVec 6) (s : State) : Host.Outcome State Fault Refusal :=
  .next (s.loadInto false (s.here.sPort d.toNat) a f 1 l 0)

/-- LD.H (R163, R164). -/
def execLdH (d a l : BitVec 5) (f : BitVec 6) (s : State) : Host.Outcome State Fault Refusal :=
  .next (s.loadInto false (s.here.sPort d.toNat) a f 2 l 2)

/-- LD.HU (R163, R164). -/
def execLdHu (d a l : BitVec 5) (f : BitVec 6) (s : State) : Host.Outcome State Fault Refusal :=
  .next (s.loadInto false (s.here.sPort d.toNat) a f 2 l 0)

/-- LD.W (R163, R164). -/
def execLdW (d a l : BitVec 5) (f : BitVec 6) (s : State) : Host.Outcome State Fault Refusal :=
  .next (s.loadInto false (s.here.sPort d.toNat) a f 4 l 4)

/-- LD.WU (R163, R164). -/
def execLdWu (d a l : BitVec 5) (f : BitVec 6) (s : State) : Host.Outcome State Fault Refusal :=
  .next (s.loadInto false (s.here.sPort d.toNat) a f 4 l 0)

/-- LD.D (R163, R164). -/
def execLdD (d a l : BitVec 5) (f : BitVec 6) (s : State) : Host.Outcome State Fault Refusal :=
  .next (s.loadInto false (s.here.sPort d.toNat) a f 8 l 0)

/-- ST.B (R163 to R165). -/
def execStB (d a : BitVec 5) (f : BitVec 6) (s : State) : Host.Outcome State Fault Refusal :=
  .next (s.storeFrom false (s.reg d).toNat a f 1)

/-- ST.H (R163 to R165). -/
def execStH (d a : BitVec 5) (f : BitVec 6) (s : State) : Host.Outcome State Fault Refusal :=
  .next (s.storeFrom false (s.reg d).toNat a f 2)

/-- ST.W (R163 to R165). -/
def execStW (d a : BitVec 5) (f : BitVec 6) (s : State) : Host.Outcome State Fault Refusal :=
  .next (s.storeFrom false (s.reg d).toNat a f 4)

/-- ST.D (R163 to R165). -/
def execStD (d a : BitVec 5) (f : BitVec 6) (s : State) : Host.Outcome State Fault Refusal :=
  .next (s.storeFrom false (s.reg d).toNat a f 8)

/-- KLD.W (R299). -/
def execKldW (d a l : BitVec 5) (f : BitVec 6) (s : State) : Host.Outcome State Fault Refusal :=
  .next (s.loadInto true (s.here.sPort d.toNat) a f 4 l 4)

/-- KLD.WU (R299). -/
def execKldWu (d a l : BitVec 5) (f : BitVec 6) (s : State) : Host.Outcome State Fault Refusal :=
  .next (s.loadInto true (s.here.sPort d.toNat) a f 4 l 0)

/-- KLD.D (R299). -/
def execKldD (d a l : BitVec 5) (f : BitVec 6) (s : State) : Host.Outcome State Fault Refusal :=
  .next (s.loadInto true (s.here.sPort d.toNat) a f 8 l 0)

/-- KST.W (R299). -/
def execKstW (d a : BitVec 5) (f : BitVec 6) (s : State) : Host.Outcome State Fault Refusal :=
  .next (s.storeFrom true (s.reg d).toNat a f 4)

/-- KST.D (R299). -/
def execKstD (d a : BitVec 5) (f : BitVec 6) (s : State) : Host.Outcome State Fault Refusal :=
  .next (s.storeFrom true (s.reg d).toNat a f 8)

/-- KVLD (R299): illegal in the message-handler context. -/
def execKvld (y : BitVec 1) (d a l : BitVec 5) (f : BitVec 6) (s : State) : Host.Outcome State Fault Refusal :=
  .next (s.mainOnly (s.loadInto true (vPort (y == 1) d.toNat) a f 64 l 0))

/-- KVST (R299). -/
def execKvst (y : BitVec 1) (d a : BitVec 5) (f : BitVec 6) (s : State) : Host.Outcome State Fault Refusal :=
  .next (s.mainOnly (s.storeFrom true (s.vec (y == 1) d).toNat a f 64))

/-! The tag table. -/

/-- Entry of a slot. -/
def Cluster.tag (c : Cluster) (slot : Nat) : TagEntry :=
  (Sparse.get? c.tags slot).getD { tag := 0, state := 0, owner := 0 }

/-- The slot that holds a tag (R300). -/
def Cluster.slotOf (c : Cluster) (tag : Nat) : Option Nat :=
  (c.tags.find? fun e => e.2.state != 0 && e.2.tag.toNat == tag).map (·.1)

/-- The lowest slot that is free, from `n` on; `fuel` bounds the search. -/
def Cluster.freeSlot (c : Cluster) : Nat → Nat → Option Nat
  | 0, _ => none
  | fuel + 1, n => if (c.tag n).state = 0 then some n else Cluster.freeSlot c fuel (n + 1)

/-- Result of KLOOK on a slot (R301). -/
def TagEntry.word (e : TagEntry) (slot : Nat) : Nat :=
  2 ^ 63 + 2 ^ 61 * e.state + 2 ^ 59 * e.owner + 2 ^ 48 * slot + (if e.state = 0 then 0 else e.tag.toNat)

/-- KLOOK at the tag arbiter (R301). -/
def Cluster.look (c : Cluster) (mode arg : Nat) : Nat :=
  match mode with
  | 0 => match c.slotOf arg with | some n => (c.tag n).word n | none => 0
  | 1 => (c.tag (arg % 256)).word (arg % 256)
  | _ => match c.freeSlot 256 0 with | some n => (c.tag n).word n | none => 0

/-- KLOOK (R301). [DEDUCED, log 44: unsafe] -/
def execKlook (d a l : BitVec 5) (s : State) : Host.Outcome State Fault Refusal :=
  let v := s.reg a
  let n := v.toNat % 2 ^ 62
  let mode := fieldOf v 62 2
  let ok := match mode with | 0 => decide (n < 2 ^ 48) | 1 => decide (n < 256) | 2 => n == 0 | _ => false
  let id := s.nextId
  .next (if ok then (s.timedOp (s.here.sPort d.toNat) 20 l.toNat (.look mode n)).push (.tagArbiterApply s.cur id)
    else s.misaligned v)

/-- The operand checks of KTAG and KUNTAG in their order (R302): the first failing register's value.
[DEDUCED, log 44: unsafe] -/
def tagCheck (slot tag states : W64) : Option W64 :=
  if 256 ≤ slot.toNat then some slot
  else if 2 ^ 48 ≤ tag.toNat then some tag
  else if 16 ≤ states.toNat ∨ states.toNat / 4 = 3 then some states
  else none

/-- A tag operation goes to the tag arbiter of the cluster (R300). -/
def State.askTags (s : State) (op : Op) : State :=
  (s.addOp s.issuer op).push (.tagArbiterApply s.cur s.nextId)

/-- KTAG (R302). -/
def execKtag (d a b : BitVec 5) (s : State) : Host.Outcome State Fault Refusal :=
  .next (match tagCheck (s.reg a) (s.reg d) (s.reg b) with
    | some v => s.misaligned v
    | none => s.askTags (.ktag (s.reg a).toNat ((s.reg d).setWidth 48) (fieldOf (s.reg b) 0 2) (fieldOf (s.reg b) 2 2)))

/-- KUNTAG (R302). [DEDUCED, log 44: unsafe] -/
def execKuntag (d a b : BitVec 5) (s : State) : Host.Outcome State Fault Refusal :=
  .next (match tagCheck (s.reg a) (s.reg d) (s.reg b) with
    | some v => s.misaligned v
    | none => s.askTags (.kuntag (s.reg a).toNat ((s.reg d).setWidth 48) (fieldOf (s.reg b) 0 2) (fieldOf (s.reg b) 2 2 == 0)))

/-- The slots that an operation meets (R316). -/
def Op.slots : Op → List Nat
  | .look 1 n => [n]
  | .look _ _ => List.range 256
  | .ktag _ _ _ _ => List.range 256
  | .kuntag n _ _ _ => [n]
  | _ => []

/-- TAG_ARBITER_APPLY (R300 to R302, R316): a slot with an uncorrectable error that the operation meets becomes free and
raises the machine check of the core whose operation met it; then the operation is applied. -/
def execTagArbiterApply (core op : Nat) (s : State) : Host.Outcome State Fault Refusal :=
  match s.findOp op with
  | none => .next s
  | some p =>
    let s := s.dropOp op
    let k := clusterOf core
    let bad := (s.cluster k).badSlots.filter p.op.slots.contains
    let s := bad.foldl (fun s n =>
      (s.onCluster k fun c =>
        { c with tags := Sparse.erase c.tags n, badSlots := c.badSlots.filter (· != n) }).onCore core fun c =>
          c.ownCheck p.by_.handler (BitVec.ofNat 64 (0x20000000000 + n))) s
    let c := s.cluster k
    let me := core % 4
    .next (match p.op with
      | .look mode arg => s.answer core op (BitVec.ofNat 512 (c.look mode arg))
      | .ktag n tag expect new =>
        let e := c.tag n
        if e.state = expect ∧ ¬(c.tags.any fun f => f.1 != n && f.2.state != 0 && f.2.tag == tag) then
          s.setCluster k { c with tags := Sparse.set c.tags n { tag := tag, state := new, owner := me } }
        else s
      | .kuntag n tag expect zero =>
        let e := c.tag n
        if e.state ≠ 0 ∧ e.tag = tag ∧ e.state = expect ∧ zero then
          s.setCluster k { c with tags := Sparse.set c.tags n { e with state := 0, owner := me } }
        else s
      | _ => s)

end Sys2Proof.Machine
end

