-- ==== Sys2Proof/Machine/Strand.lean ====
section
/-! DEFINITION. The strand and group instructions (R76 to R92): POST, suspension and PIN, END, groups, DGST, and with them
the steps that complete a post, a suspension and a pin. -/

namespace Sys2Proof.Machine

/-- The offset operand of a 64-byte block in the core scratchpad (R81, R310, R336). -/
def blockOffset (off : W64) : Bool := decide (off.toNat < 2 ^ 23) && off.toNat % 64 == 0

/-! Placement of posted records (R81 to R84). -/

/-- POST_PLACEMENT (R81, R83, R95): the event arbiter of the die appends the record to its bucket level, or to the next-phase
list, if the overflow area and the status area have room; otherwise nothing is placed. -/
def execPostPlacement (core op : Nat) (s : State) : Host.Outcome State Fault Refusal :=
  match s.findOp op with
  | none => .next s
  | some p =>
    match p.op with
    | .post r die v next home =>
      let s := s.dropOp op
      let no := .next (s.answer core op (BitVec.ofNat 512 (2 ^ 56)))
      match s.freeBlock with
      | none => no
      | some n =>
        let r := { r with dslot := BitVec.ofNat 32 n }
        let t := s.putStatus n (StatusBlock.fresh home die)
        let t := if next then t.onDie die fun d => { d with next := d.next ++ [r] } else t.makeRunnable r home die
        if t.hasRoom then
          let t := if next || p.by_.handler then t
            else t.onLaunch fun l =>
              { l with posts := l.posts ++ [{ child := r.lidx, parent := p.by_.lidx, osn := p.by_.osn }] }
          .next (t.answer core op (BitVec.ofNat 512 (die * 20 + v)))
        else no
    | _ => .next s

/-! Suspension (R25, R26, R85 to R88). -/

/-- The strand of the core in hand begins to leave; the suspension completes when its pipes are empty. -/
def State.leave (s : State) (why : Leave) : State := s.onHere fun c => { c with act := .leaving why }

/-- A word that only the main context outside handler mode may execute (R79). -/
def State.strandOnly (s : State) (t : State) : State := if s.here.handlerMode then s.illegal else t

/-- The strand pins in place (R26). -/
def Leave.pins : Leave → Bool
  | .pinM => true
  | .pinQ _ => true
  | .pinB _ _ => true
  | .pinT _ => true
  | .woken => true
  | _ => false

/-- SUSP (R85). -/
def execSusp (s : State) : Host.Outcome State Fault Refusal := .next (s.strandOnly (s.leave .susp))

/-- PIN.M (R87). -/
def execPinM (s : State) : Host.Outcome State Fault Refusal := .next (s.strandOnly (s.leave .pinM))

/-- PIN.Q (R87). -/
def execPinQ (a : BitVec 5) (s : State) : Host.Outcome State Fault Refusal :=
  .next (s.strandOnly
    (if (s.reg a).toNat < 8 then s.leave (.pinQ (s.reg a).toNat) else s.misaligned (s.reg a)))

/-- PIN.B (R87): the address is translated like that of any synchronisation word. -/
def execPinB (d a : BitVec 5) (s : State) : Host.Outcome State Fault Refusal :=
  .next (s.strandOnly
    (match s.translate (s.reg a).toNat 64 permS false with
     | .stop t => t
     | .ok s b =>
       if (s.reg a).toNat % 64 ≠ 0 then s.misaligned (s.reg a)
       else s.counted [b] fun s => s.leave (.pinB b d.toNat)))

/-- PIN.T (R87). -/
def execPinT (a : BitVec 5) (s : State) : Host.Outcome State Fault Refusal :=
  .next (s.strandOnly (s.leave (.pinT (s.reg a).toNat)))

/-- END (R85): in trap-handler mode it also ends that mode, and abandons a suspension under way (R86). An access to a barrier that a
PIN.B or BWAIT has bound and not sent is no longer in flight then (R245). [DESIGN CHOICE, log 130: unsafe] -/
def execEndStrand (s : State) : Host.Outcome State Fault Refusal :=
  .next (s.mainOnly
    (if s.here.main.hmode then
      ((s.releaseAll s.cur s.here.unsent).leave .ended).onHere fun c =>
        { c with
          strand := c.strand.map fun r => { r with trpend := true }
          main := { c.main with
            hmode := false, tack := false, suspp := false
            bank1 := { c.main.bank1 with v := false }
            bank2 := { c.main.bank2 with v := false } } }
    else s.leave .ended))

/-- The macro-sequencer is idle once its last cycle has passed (R223): nothing queued, or the last operation has run. -/
def Matrix.idle (m : Matrix) : Bool := m.queue.isEmpty || (m.fin && decide (m.queue.length = 1))

/-- Nothing of the array is under way: the sequencer is idle and no flag is on its way (R25). -/
def Matrix.drained (m : Matrix) : Bool := m.idle && m.results.isEmpty

/-- The strand is pinned where it is (R26). -/
def State.pin (s : State) (core : Nat) (why : Leave) : State :=
  s.onCore core fun c =>
    { (c.record s.fresh s.time 9 c.main.pc 0) with
      act := .pinned why
      strand := c.strand.map fun r => { (c.writtenBack r) with state := 4, pcore := core }
      wdStart := s.time, wdHeld := false, pinSince := s.time, pinReported := false }

/-- The issuer of an operation that a suspension sends after its bundle; its sequence number is the bundle's last. -/
def State.leaver (s : State) (core : Nat) : Issuer :=
  let c := s.core core
  { core := core, handler := false, lidx := c.main.lidx, osn := c.main.osn - 1, mode := c.main.mode, src := c.main.src,
    pc := c.iss.start
    dslot := match c.strand with | some r => r.dslot | none => 0
    phase := match s.hub.launch with | some l => BitVec.ofNat 32 l.phase | none => 0
    launch := match s.hub.launch with | some l => l.ident | none => 0 }

/-- An operation on a synchronisation object goes to the event arbiter of the object's die (R343).
[DEDUCED, log 60: unsafe] -/
def State.askBarrier (s : State) (core : Nat) (b : Bound) (kind : SyncKind) : State :=
  let id := s.nextId
  (s.addOp (s.leaver core) (.sync b.object.1 b.object.2 kind (some b))).push (.syncOperation core id)

/-- A strand parks on a queue of its core (R21, R311); a delivery that came meanwhile wakes it at once. -/
def State.parkOnQueue (s : State) (core q dst : Nat) : State :=
  let (t, r) := s.handBack core
  match r with
  | none => t
  | some r =>
    (t.onCore core fun c => c.setQueue q { c.queue q with
      waiter := some { record := { r with state := 3 }, dst := dst, since := s.time, reported := false } }).serveQueue core q

/-- The wake condition of a pinned strand holds (R87). -/
def State.wakes (s : State) (core : Nat) : Bool :=
  let c := s.core core
  match c.act with
  | .pinned .pinM => c.mat.idle
  | .pinned (.pinQ q) => (c.queue q).head != (c.queue q).tail
  | .pinned (.pinT t) => decide (t ≤ s.time)
  | .pinned .woken => true
  | _ => false

/-- The launch notes that a strand has run in the phase; two status blocks under one index break R19, and of several such
indices the lowest one is kept. [DESIGN CHOICE, log 114: unsafe] -/
def Launch.ranBy (l : Launch) (lidx : W64) (dslot : Nat) : Launch :=
  let twice := l.ran.any fun x => x.1 == lidx && x.2 != dslot
  { l with
    ran := if l.ran.contains (lidx, dslot) then l.ran else l.ran ++ [(lidx, dslot)]
    dup := if twice then some (match l.dup with | some d => if d < lidx then d else lidx | none => lidx) else l.dup }

/-- A pinned strand goes on with the bundle after the PIN, some cycles after its core could issue it, and not before the
array is idle where it waited for that (R87); the watchdog restarts (R270). -/
def State.resumePinned (s : State) (core extra : Nat) : State :=
  let t := s.onLaunch fun l => match (s.core core).strand with
    | some r => l.ranBy r.lidx r.dslot.toNat
    | none => l
  t.onCore core fun c =>
    let ready := match c.act with | .pinned .pinM => c.mat.lastEnd + 1 | _ => 0
    { c with
      act := .running, issueAt := max (max c.cycle c.issueAt) ready + extra, wdStart := s.time, wdHeld := false
      strand := c.strand.map fun r => { r with state := 1, pcore := 0 } }

/-- PIN_WAKE (R87): the strand resumes on its core. -/
def execPinWake (core : Nat) (s : State) : Host.Outcome State Fault Refusal :=
  .next (if s.wakes core then s.resumePinned core (Config.periods s.fresh) else s)

/-- A PIN whose pipes have emptied: the strand goes on at once where its condition holds already and the launch does not
hold its strands (R87, R93). -/
def State.pinOrGoOn (s : State) (core : Nat) (why : Leave) : State :=
  let t := s.pin core why
  if t.wakes core && !s.hub.hold then t.resumePinned core 0 else t

/-- The launch keeps the record of a strand that has ended, in state 5 and with its argument words as they were (R25, R85). -/
def Launch.noteEnded (l : Launch) (r : Option Record) : Launch :=
  { l with ended := l.ended ++ r.toList.map fun r => { r with state := 5 } }

/-- SUSPENSION (R25, R26): the results in flight land, then, with the matrix idle unless the strand pins, the strand leaves
its core. A trap request that the landings raise is taken before (R86). -/
def execSuspension (core : Nat) (s : State) : Host.Outcome State Fault Refusal :=
  let c := s.core core
  match c.act with
  | .leaving why =>
    let rest := c.mat.drained && !why.pins
    let c := c.advance s.time s.fresh (max (max c.cycle c.lastDue) (if rest then c.mat.lastEnd else 0))
    let s := s.setCore core c
    if !c.landings.isEmpty || !c.candidates.isEmpty || !(why.pins || c.mat.drained) then .next s
    else
      let s := s.onCore core fun c => { c with main := { c.main with suspp := false } }
      .next (match why with
        | .pinB b dst => (s.pin core (.pinB b dst)).askBarrier core b .pin
        | .pinM => s.pinOrGoOn core .pinM
        | .pinQ q => s.pinOrGoOn core (.pinQ q)
        | .pinT t => s.pinOrGoOn core (.pinT t)
        | .woken => s.pinOrGoOn core .woken
        | .barrier b round dst =>
          (s.askBarrier core b (.wait round true)).onCore core fun c => { c with act := .asking (.barrier b round dst) }
        | .queue q dst => s.parkOnQueue core q dst
        | .ended => (s.onLaunch fun l => l.noteEnded c.strand).handBack core |>.1
        | .susp =>
          let (t, r) := s.handBack core
          match r with | some r => t.sendHome r | none => t)
  | _ => .next s

/-! Groups (R89 to R91). -/

/-- Entry of the group table. -/
def Hub.group (h : Hub) (gid : Nat) : Group :=
  (Sparse.get? h.groups gid).getD { state := 0, inc := 0, memb := 0, outs := 0 }

/-- The hub with an entry of the group table. -/
def Hub.setGroup (h : Hub) (gid : Nat) (g : Group) : Hub := { h with groups := Sparse.set h.groups gid g }

/-- check of R89 on a 64-bit handle operand: the status. -/
def Hub.checkGroup (h : Hub) (v : W64) : Nat :=
  let n := v.toNat
  if 2 ^ 24 ≤ n ∨ n % 65536 = 0 then 0x10
  else
    let g := h.group (n % 65536)
    if g.state ≠ 1 ∨ g.inc.toNat ≠ bits n 16 8 then 0x11 else 0

/-- The result word of R77. -/
def resultWord (st val : Nat) : Nat := if st = 0 then val % 2 ^ 56 else 2 ^ 56 * st

/-- The lowest free group id from `gid` on; `fuel` bounds the search. -/
def Hub.freeGroup (h : Hub) : Nat → Nat → Option Nat
  | 0, _ => none
  | fuel + 1, gid =>
    if 65535 < gid then none else if (h.group gid).state = 0 then some gid else Hub.freeGroup h fuel (gid + 1)

/-- A freeing entry without outstanding operations becomes free (R39). -/
def Group.settled (g : Group) : Group :=
  if g.state = 2 ∧ g.outs = 0 then { g with state := 0, inc := g.inc + 1 } else g

/-- What the hub arbiter makes of a group instruction: the table after it and the result word (R89, R90). -/
def Hub.groupAct (h : Hub) (kind : Nat) (v : W64) : Hub × Nat :=
  let gid := v.toNat % 65536
  let g := h.group gid
  let st := h.checkGroup v
  match kind with
  | 0 =>
    if 2 ^ 32 ≤ v.toNat then (h, resultWord 0x10 0)
    else match h.freeGroup (h.groups.length + 1) 1 with
      | none => (h, resultWord 0x12 0)
      | some n =>
        (h.setGroup n { state := 1, inc := (h.group n).inc, memb := v.toNat, outs := 0 },
          resultWord 0 (65536 * (h.group n).inc.toNat + n))
  | 1 =>
    if st ≠ 0 then (h, resultWord st 0)
    else if g.memb = 2 ^ 32 - 1 then (h, resultWord 0x13 0)
    else (h.setGroup gid { g with memb := g.memb + 1 }, resultWord 0 (g.memb + 1))
  | 2 =>
    if st ≠ 0 then (h, resultWord st 0)
    else if g.memb = 0 then (h, resultWord 0x14 0)
    else (h.setGroup gid { g with memb := g.memb - 1 }, resultWord 0 (g.memb - 1))
  | 3 =>
    if st ≠ 0 then (h, resultWord st 0)
    else (h.setGroup gid ({ g with state := 2 } : Group).settled, resultWord 0 g.outs)
  | _ =>
    if 2 ^ 16 ≤ v.toNat ∨ v.toNat = 0 then (h, resultWord 0x10 0)
    else (h, resultWord 0
      (2 ^ 42 * min g.outs 16383 + 2 ^ 40 * g.state + 2 ^ 32 * g.inc.toNat + (if g.state = 0 then 0 else g.memb)))

/-- A group instruction goes to the hub arbiter, which orders it and sends its result (R78). -/
def State.groupOp (s : State) (d a l : BitVec 5) (kind : Nat) : State :=
  s.timedOp (s.here.sPort d.toNat) 24 l.toNat (.group kind (s.reg a))

/-- The hub arbiter takes a group instruction (R78, R89, R90). -/
def State.applyGroup (s : State) (op : Nat) : State :=
  match s.findOp op with
  | some ⟨_, b, .group kind v⟩ =>
    let r := s.hub.groupAct kind v
    ({ s.dropOp op with hub := r.1 } : State).answer b.core op (BitVec.ofNat 512 r.2)
  | _ => s

/-- GNEW (R89). -/
def execGnew (d a l : BitVec 5) (s : State) : Host.Outcome State Fault Refusal := .next (s.groupOp d a l 0)

/-- GJOIN (R89). -/
def execGjoin (d a l : BitVec 5) (s : State) : Host.Outcome State Fault Refusal := .next (s.groupOp d a l 1)

/-- GLEAVE (R89). -/
def execGleave (d a l : BitVec 5) (s : State) : Host.Outcome State Fault Refusal := .next (s.groupOp d a l 2)

/-- GFREE (R39, R89). -/
def execGfree (d a l : BitVec 5) (s : State) : Host.Outcome State Fault Refusal := .next (s.groupOp d a l 3)

/-- GINFO (R90). -/
def execGinfo (d a l : BitVec 5) (s : State) : Host.Outcome State Fault Refusal := .next (s.groupOp d a l 4)

/-! DGST (R92). -/

/-- DGST: the running digest at issue, or once the folds before it that are pending have been settled. -/
def execDgst (d a l : BitVec 5) (s : State) : Host.Outcome State Fault Refusal :=
  let high := flagOf (s.reg a) 0
  let n := match s.here.strand with | some r => r.dslot.toNat | none => 0
  .next (s.mainOnly
    (match s.statusBlock n with
     | none => s.timed (s.here.sPort d.toNat) 24 l.toNat 0
     | some b =>
       if b.folds.isEmpty then s.timed (s.here.sPort d.toNat) 24 l.toNat (b.half high).toNat
       else if 64 ≤ s.here.buffered then s.freezeFull
       else
         let id := s.nextId
         (s.timedOp (s.here.sPort d.toNat) 24 l.toNat (.dgst high)).onStatus n fun b => b.place id))

end Sys2Proof.Machine
end

