-- ==== Sys2Proof/Machine/Queues.lean ====
section
/-! DEFINITION. The queue instructions (R309 to R314), and the arrival of messages at their queues with the
acknowledgements of the send unit (R306, R307). -/

namespace Sys2Proof.Machine

/-- Trace entry of a Q-pipe word: its op and the first address that it translated (R276). -/
def State.traceQ (s : State) (va : Nat) : State :=
  s.traced 7 (2 ^ 58 * fieldOf s.here.iss.raw 21 6 + va % 2 ^ 48)

/-- A message header (R305), without SEQ and OVF. -/
def messageHeader (user : W32) (src kind : Nat) (h : Bool) (len : Nat) : Nat :=
  2 ^ 32 * user.toNat + 2 ^ 22 * src + 2 ^ 19 * kind + bitAt h 18 + 2 ^ 8 * len

/-- The latest free count that the core has seen for a queue is zero (R307). -/
def Core.seenFull (c : Core) (core q : Nat) : Bool := c.freeSeen.any fun f => f.1 == core * 8 + q && f.2 == 0

/-- The 256 cycles of a hold in ns at the nominal clock, below which no cycle falls (R4, R11, R307).
[DESIGN CHOICE, log 4: safe] -/
def holdTime : Nat := 256 * 1000 / 850

/-- QPUT (R307, R310): the message enters the send unit, which reads its payload before it leaves. -/
def execQput (d a b : BitVec 5) (s : State) : Host.Outcome State Fault Refusal :=
  let dst := s.reg a
  let off := s.reg b
  let core := dst.toNat % 1024
  let q := fieldOf dst 10 3
  .next (if 2 ^ 14 ≤ dst.toNat ∨ 639 < core then s.misaligned dst
    else if !blockOffset off then s.misaligned off
    else if 16 ≤ s.here.sends.length then s.stall
    else
      let id := s.nextId
      let t := s.addOp s.issuer (.put core q (flagOf dst 13) ((s.reg d).setWidth 32) off.toNat none)
      let t := t.onHere fun c =>
        { c with
          sends := c.sends ++ [id]
          sendHold := if s.here.seenFull core q then c.sendHold ++ [(id, s.time + holdTime)] else c.sendHold }
      (t.push (if s.here.seenFull core q then .sendHoldExpiry s.cur id else .messageArrival core id)).traceQ 0)

/-- QGET (R311): decided by the trap arbiter of the core in hand. On an empty queue the strand parks where it may.
[DEDUCED, log 45: unsafe] -/
def execQget (d a l : BitVec 5) (s : State) : Host.Outcome State Fault Refusal :=
  let n := (s.reg a).toNat
  let port := s.here.sPort d.toNat
  let s := s.sampleQueue n
  .next (if 8 ≤ n then s.misaligned (s.reg a)
    else if 64 ≤ s.here.buffered then s.freezeFull
    else match s.tryGet s.cur n with
      | .result t v => (t.timedNow port 24 l.toNat v).traceQ 0
      | .later => (s.askNow port 24 l.toNat (.get n s.time false)).traceQ 0
      | .empty =>
        if (s.here.queue n).waiter.isSome then (s.timedNow port 24 l.toNat (getWord 0x31 0 0)).traceQ 0
        else if !s.here.handlerMode && d.toNat < 8 then
          ((s.leave (.queue n d.toNat)).onHere fun c => c.setQueue n { c.queue n with news := false }).traceQ 0
        else (s.timedNow port 24 l.toNat (getWord 0x30 0 0)).traceQ 0)

/-- QPUTs and MEETs of a core whose payload read has not been granted (R312, R376). -/
def State.unread (s : State) (core : Nat) : Nat :=
  (s.ops.filter fun p => p.by_.core == core && (match p.op with
    | .put _ _ _ _ _ none => true
    | .meet _ (some _) => true
    | _ => false)).length

/-- QSTAT (R312). -/
def execQstat (d a l : BitVec 5) (s : State) : Host.Outcome State Fault Refusal :=
  let n := (s.reg a).toNat
  let q := (s.sampleQueue n).here.queue (n % 8)
  let v := if n < 8 then
      2 ^ 56 * (if q.open? then 0 else 0x32) + bitAt q.waiter.isSome 55 + 2 ^ 40 * (q.unread % 2 ^ 15) +
        2 ^ 24 * (q.room % 2 ^ 16) + min q.spilled.length (2 ^ 24 - 1)
    else 2 ^ 48 * s.here.sends.length + 2 ^ 32 * s.unread s.cur
  .next (if 16 ≤ n then s.misaligned (s.reg a) else (s.timed (s.here.sPort d.toNat) 24 l.toNat v).traceQ 0)

/-- A queue of the core in hand changed by QCFG, then served (R313). -/
def State.configure (s : State) (a : BitVec 5) (f : Queue → Queue) : State :=
  let n := (s.reg a).toNat
  if 8 ≤ n then s.misaligned (s.reg a)
  else (((s.sampleQueue n).onHere fun c => c.setQueue n (f (c.queue n))).serveQueue s.cur n).traceQ 0

/-- The launch checks its digests (R110). -/
def State.checks (s : State) : Bool := match s.hub.launch with | some l => l.dmode == 2 | none => false

/-- QCFG.REL (R313, R315). [DEDUCED, log 48: unsafe] -/
def execQcfgRel (a b : BitVec 5) (s : State) : Host.Outcome State Fault Refusal :=
  let keep := s.checks
  .next (s.configure a fun q =>
    let n := min (s.reg b).toNat ((q.head + 65536 - q.freeCount) % 65536)
    { q with ptr := Queue.ptrOf (q.freeCount + n) q.head q.tail, kept := if keep then q.kept ++ q.lines q.freeCount n else q.kept })

/-- QCFG.OPEN (R313); in check mode the entries that it discards become free at the commit (R315).
[DEDUCED, log 48: unsafe] -/
def execQcfgOpen (a b : BitVec 5) (s : State) : Host.Outcome State Fault Refusal :=
  let keep := s.checks
  .next (s.configure a fun q =>
    let held := if keep then q.kept ++ q.lines q.freeCount (min q.used q.size) else []
    let q := q.write false (s.reg b)
    { q with desc := q.desc ||| 0x80000000#64, ptr := 0, count := 0, kept := held })

/-- QCFG.CLOSE (R313). -/
def execQcfgClose (a : BitVec 5) (s : State) : Host.Outcome State Fault Refusal :=
  .next (s.configure a fun q => { q with desc := q.desc &&& ~~~0x80000000#64 })

/-! Arrivals. -/

/-- Bytes of a queue's overflow area (R393). -/
def State.queueArea (s : State) : Nat := match s.hub.launch with | some l => l.queueArea | none => 0

/-- A message arrives at a queue (R306): how it ended, with the queue served. -/
def State.deliverTo (s : State) (core n : Nat) (entries : List (List Byte)) (remote : Bool) : State × Arrival :=
  let r := (s.core core).arrive n s.queueArea entries
  let t := s.setCore core r.1
  let t := if remote then t.onCore core fun c => c.setQueue n { c.queue n with remote := true } else t
  match r.2 with
  | .refused => (s, .refused)
  | a => (t.serveQueue core n, a)

/-- An operation under way replaced by another one under its number. -/
def State.replaceOp (s : State) (id : Nat) (op : Op) : State :=
  { s with ops := s.ops.map fun p => if p.id = id then { p with op := op } else p }

/-- A QPUT is refused; the acknowledgement that says so starts back (R306, R316). [DESIGN CHOICE, log 46: safe] -/
def State.putRefused (s : State) (p : Pending) (core q : Nat) (h : Bool) (user : W32) : State :=
  let tval := BitVec.ofNat 64 (2 ^ 32 * user.toNat + bitAt h 13 + 2 ^ 10 * q + core)
  (s.replaceOp p.id (.ack (some (core * 8 + q, ((s.core core).queue q).room)) (some tval))).push
    (.sendAcknowledgement p.by_.core p.id)

/-- A QPUT arrives at its queue; the acknowledgement starts back (R306, R307, R310). [DESIGN CHOICE, log 46: safe] -/
def State.putArrives (s : State) (p : Pending) (core q : Nat) (h : Bool) (user : W32) (offset : Nat)
    (payload : Option (List Byte)) : State :=
  let line := payload.getD (s.agentRead p.by_.core false offset 64)
  let r := s.deliverTo core q [natToBytes 8 (messageHeader user p.by_.core 0 h 1) ++ line.drop 8] false
  match r.2 with
  | .refused => r.1.putRefused p core q h user
  | _ => (r.1.replaceOp p.id (.ack (some (core * 8 + q, ((r.1.core core).queue q).room)) none)).push
      (.sendAcknowledgement p.by_.core p.id)

/-- SEND_HOLD_EXPIRY (R307): the 256 cycles of a held message are over, and it leaves its core. -/
def execSendHoldExpiry (core op : Nat) (s : State) : Host.Outcome State Fault Refusal :=
  match s.findOp op with
  | some p =>
    (match p.op with
     | .put dst _ _ _ _ _ => .next (if p.by_.core = core then
         (s.onCore core fun c => { c with sendHold := c.sendHold.filter (·.1 != op) }).push (.messageArrival dst op) else s)
     | _ => .next s)
  | none => .next s

/-- SEND_ACKNOWLEDGEMENT (R306, R307): the send unit frees the message and notes the free count; a refusal raises the
trap of code 13 at the sender. [DEDUCED, log 47: unsafe] -/
def execSendAcknowledgement (core op : Nat) (s : State) : Host.Outcome State Fault Refusal :=
  match s.findOp op with
  | some p =>
    (match p.op with
     | .ack seen refused =>
       let t := (s.dropOp op).onCore core fun c =>
         { c with
           sends := c.sends.filter (· != op)
           freeSeen := match seen with
             | some f => f :: c.freeSeen.filter fun g => g.1 != f.1
             | none => c.freeSeen }
       .next (match refused with
         | none => t
         | some tval => t.onCore core fun c => c.request
           { code := 13, tval := tval, tbundle := p.by_.pc, xcode := 0, deferred := true, epc := none,
             level := if p.by_.handler then 2 else 0 })
     | _ => .next s)
  | none => .next s

end Sys2Proof.Machine
end

