-- ==== Sys2Proof/Machine/Sync.lean ====
section
/-! DEFINITION. The synchronisation engine of a die and its supervisor (R341 to R360): objects and their operations,
barriers, the wakes they cause, the synchronisation words, and the scan for waits that never end. -/

namespace Sys2Proof.Machine

/-! Objects. -/

/-- An object of a die. -/
def State.object (s : State) (die obj : Nat) : SyncObj := (Sparse.get? (s.die die).objects obj).getD SyncObj.reset

/-- A die's undo log with an object as it stood before its first modification in the phase (R359). -/
def State.logObject (s : State) (die obj : Nat) : State :=
  let d := s.die die
  if (Sparse.get? d.undo obj).isSome then s
  else
    let t := s.setDie die { d with undo := Sparse.set d.undo obj (s.object die obj) }
    if 16384 ≤ d.undo.length then t.onLaunch fun l => { l with marked := true } else t

/-- An object of a die replaced. -/
def State.putObject (s : State) (die obj : Nat) (o : SyncObj) : State :=
  s.onDie die fun d => { d with objects := Sparse.set d.objects obj o }

/-- The doublewords of a barrier object as AREAD returns them (R342). -/
def SyncObj.dw (o : SyncObj) (i : Nat) : Nat :=
  if !o.barrier then (o.cells.getD i 0).toNat
  else match i with
    | 0 => 2 ^ 62 * o.state + 2 ^ 59 * o.fcause + 2 ^ 32 * o.gen + o.group.toNat
    | 1 => 2 ^ 32 * o.memb + o.arr
    | 2 => o.pend
    | 3 => o.waiters.length
    | _ => 0

/-- The status word of R346. -/
def SyncObj.status (o : SyncObj) (st : Nat) : W32 :=
  BitVec.ofNat 32 (2 ^ 24 * st + 2 ^ 16 * (if st = 0x60 then o.fcause else 0) +
    (if st = 0x62 ∨ st = 0x63 then 0 else o.gen))

/-- A BWAIT for a round is satisfied (R347). -/
def SyncObj.satisfied (o : SyncObj) (round : Nat) : Bool :=
  let n := (o.gen + 65536 - round % 65536) % 65536
  decide (1 ≤ n) && decide (n ≤ 32767)

/-! Waking. -/

/-- A waiter put into its place by ascending logical index (R23). -/
def insertWaiter (w : Waiter) : List Waiter → List Waiter
  | [] => [w]
  | v :: vs => if w.lidx < v.lidx then w :: v :: vs else v :: insertWaiter w vs

/-- Waiters in ascending logical index. -/
def byIndex (ws : List Waiter) : List Waiter := ws.foldl (fun l w => insertWaiter w l) []

/-- One waiter is woken with a status word (R87, R347): a parked strand becomes runnable in its home bucket; a pinned one
takes the word in its register and resumes on its core. -/
def State.wake (s : State) (w : Waiter) (word : W32) : State :=
  match w.parked, w.pinned with
  | some (r, dst), _ => s.sendHome (r.woken dst word)
  | none, some (core, dst) =>
    s.onCore core fun c =>
      { c.cleanReg dst with
        s := c.s.set dst (word.setWidth 64)
        strand := c.strand.map fun r => { r with wstat := fieldOf word 24 8 != 0 }
        act := match c.act with
          | .pinned (.pinB _ _) => .pinned .woken
          | .saved (some (true, .pinB _ _)) => .saved (some (true, .woken))
          | a => a }
  | none, none => s

/-- The waiters of an object that a test picks are woken in one sequence, and the others stay. -/
def State.wakeAll (s : State) (die obj : Nat) (word : W32) (pick : Waiter → Bool) : State :=
  let o := s.object die obj
  let t := s.putObject die obj { o with waiters := o.waiters.filter fun w => !pick w }
  (byIndex (o.waiters.filter pick)).foldl (fun t w => t.wake w word) t

/-! Barriers (R345, R348, R349). -/

/-- A barrier fails with a cause (R345). [DEDUCED, log 58: unsafe] -/
def State.failBarrier (s : State) (die obj cause : Nat) : State :=
  let o := { s.object die obj with state := 3, fcause := cause }
  (s.putObject die obj o).wakeAll die obj (o.status 0x60) fun _ => true

/-- The test of R345: release once every member has arrived and no byte is pending. [DEDUCED, log 57: unsafe] -/
def State.testBarrier (s : State) (die obj : Nat) : State :=
  let o := s.object die obj
  if o.arr = o.memb ∧ o.pend = 0 then
    let o := { o with state := 2, arr := 0, gen := (o.gen + 1) % 65536 }
    (s.putObject die obj o).wakeAll die obj (o.status 0) fun w =>
      match w.round with | some g => o.satisfied g | none => true
  else s

/-- The group entry of a barrier's handle, if the handle has the form of R36 and the entry holds its INC and is open or
freeing (R345, R348). -/
def Hub.barrierGroup (h : Hub) (handle : W32) : Option Group :=
  let n := handle.toNat
  let g := h.group (n % 65536)
  if n < 2 ^ 24 ∧ n % 65536 ≠ 0 ∧ g.inc.toNat = bits n 16 8 ∧ g.state ≠ 0 then some g else none

/-- Arm (R345): none where the group check fails. -/
def State.arm (s : State) (o : SyncObj) : Option SyncObj :=
  if o.bound then
    match s.hub.barrierGroup o.group with
    | some g => some { o with state := 1, arr := 0, memb := g.memb }
    | none => none
  else some { o with state := 1, arr := 0 }

/-- One more or one fewer operation outstanding against the group of a handle (R39, R348). -/
def Hub.outstanding (h : Hub) (handle : W32) (add : Bool) : Hub :=
  let gid := handle.toNat % 65536
  let g := h.group gid
  h.setGroup gid (if add then { g with outs := g.outs + 1 } else ({ g with outs := g.outs - 1 } : Group).settled)

/-- A bound barrier gives up its count at its group (R348). -/
def State.unbind (s : State) (o : SyncObj) : State :=
  if o.counted then s.onHub fun h => h.outstanding o.group false else s

/-- A sync-misuse event (R349, R356). [DEDUCED, log 59: unsafe] -/
def State.misuse (s : State) (by_ : Issuer) (die obj op : Nat) : State :=
  s.dieEvent die 0x07 by_.core (64 * obj + 2 ^ 64 * op + 2 ^ 128 * by_.lidx.toNat)

/-- BINIT (R345, R348, R352). -/
def State.initBarrier (s : State) (die obj : Nat) (literal : Bool) (value : W32) : State :=
  let old := s.object die obj
  let s := s.unbind old
  let counted := !literal && (s.hub.barrierGroup value).isSome
  let new := { SyncObj.reset with
    barrier := true, bound := !literal, group := if literal then 0 else value, counted := counted
    memb := if literal then value.toNat else 0, waiters := old.waiters }
  let s := if counted then s.onHub fun h => h.outstanding value true else s
  (s.putObject die obj new).wakeAll die obj (new.status 0x61) fun _ => true

/-- BINV (R345). -/
def State.invalidateObject (s : State) (die obj : Nat) : State :=
  let old := s.object die obj
  let new := { SyncObj.reset with waiters := old.waiters }
  ((s.unbind old).putObject die obj new).wakeAll die obj (new.status 0x62) fun _ => true

/-- BARRIVE on a barrier (R345). -/
def State.arriveAt (s : State) (die obj : Nat) : State :=
  let o := s.object die obj
  if o.state = 3 then s
  else if o.state = 1 then
    if o.arr < o.memb then (s.putObject die obj { o with arr := o.arr + 1 }).testBarrier die obj
    else s.failBarrier die obj 4
  else match s.arm o with
    | some a => (s.putObject die obj { a with arr := 1 }).testBarrier die obj
    | none => s.failBarrier die obj 5

/-- BEXPECT on a barrier (R345). [DEDUCED, log 57: unsafe] -/
def State.expectAt (s : State) (die obj n : Nat) : State :=
  let o := s.object die obj
  if o.state = 3 then s
  else match (if o.state = 1 then some o else s.arm o) with
    | none => s.failBarrier die obj 5
    | some a =>
      let t := s.putObject die obj { a with pend := (a.pend + n) % 2 ^ 32 }
      if 2 ^ 32 ≤ a.pend + n then t.failBarrier die obj 2 else t.testBarrier die obj

/-- A decrement, or without a byte count a failure (R345, R349). [DEDUCED, log 57: unsafe] -/
def State.decrementAt (s : State) (by_ : Issuer) (die obj : Nat) (bytes : Option Nat) : State :=
  let o := s.object die obj
  if !o.barrier then s.misuse by_ die obj 0x3F
  else if o.state = 3 then s
  else
    let s := s.logObject die obj
    match bytes with
    | none => s.failBarrier die obj 1
    | some d =>
      if o.state = 1 ∧ d ≤ o.pend then (s.putObject die obj { o with pend := o.pend - d }).testBarrier die obj
      else s.failBarrier die obj 3

/-! Answers. -/

/-- What a strand that leaves by BWAIT receives when it does not park (R353): its register takes the status, and the next
bundle issues in the cycle after the answer. -/
def State.resumeWaiter (s : State) (core dst : Nat) (word : W32) : State :=
  s.onCore core fun c =>
    let t := max c.cycle c.issueAt + Config.periods s.fresh
    ({ c with s := c.s.set dst (word.setWidth 64), act := .running, cycle := t, issueAt := t + 1 }).cleanReg dst

/-- The answer to a BWAIT of a handler context: its register takes the status, cycles having passed.
[DEDUCED, log 60: unsafe] -/
def State.answerHandler (s : State) (core id : Nat) (word : W32) : State :=
  let t := (s.core core).cycle + Config.periods s.fresh
  (s.answer core id (word.setWidth 512)).onCore core fun c =>
    { c with issueAt := max c.issueAt (t + 1), cycle := if c.waitsForData then c.cycle else t }

/-- A strand parks on a barrier with its record (R25, R353). -/
def State.parkOnBarrier (s : State) (p : Pending) (die obj round dst va : Nat) : State :=
  let (t, r) := s.handBack p.by_.core
  match r with
  | none => t
  | some r =>
    let o := t.object die obj
    let w : Waiter := { lidx := r.lidx, round := some round, parked := some ({ r with state := 2 }, dst), pinned := none,
                        va := va, since := s.time, reported := false }
    t.putObject die obj { o with waiters := o.waiters ++ [w] }

/-- The strand that sent an operation is still there: its launch is the one in progress (R395). -/
def State.sameLaunch (s : State) (by_ : Issuer) : Bool := s.hub.launch.map (·.ident) == some by_.launch

/-- BWAIT at the event arbiter (R353): a handler context gets status 0x68 where a strand would park. -/
def State.barrierWait (s : State) (p : Pending) (die obj round : Nat) (park : Bool) (va : Nat) : State :=
  let o := s.object die obj
  let st := if !o.barrier then some 0x63 else if o.state = 3 then some 0x60
    else if o.satisfied round then some 0 else if !s.waitSpace die then some 0x67 else if park then none else some 0x68
  if park then
    match (if s.sameLaunch p.by_ then (s.core p.by_.core).act else .idle) with
    | .asking (.barrier _ _ dst) =>
      match st with
      | some st => s.resumeWaiter p.by_.core dst (o.status st)
      | none => s.parkOnBarrier p die obj round dst va
    | _ => s
  else s.answerHandler p.by_.core p.id (o.status (st.getD 0x68))

/-- A PIN.B registers at its object (R87, R349). -/
def State.registerPin (s : State) (p : Pending) (die obj dst va : Nat) : State :=
  let o := s.object die obj
  let w : Waiter := { lidx := p.by_.lidx, round := none, parked := none, pinned := some (p.by_.core, dst), va := va,
                      since := s.time, reported := false }
  if !o.barrier then s.wake w (o.status 0x63)
  else if o.state = 2 then s.wake w (o.status 0)
  else if o.state = 3 then s.wake w (o.status 0x60)
  else s.putObject die obj { o with waiters := o.waiters ++ [w] }

/-- New value of a cell and whether AFIX clamped (R354). -/
def cellOp (op : Nat) (old v : W64) : W64 × Bool :=
  match op with
  | 0 => (old + v, false)
  | 1 => (if old.toInt ≤ v.toInt then old else v, false)
  | 2 => (if old.toInt ≤ v.toInt then v else old, false)
  | 3 => (old ||| v, false)
  | 4 =>
    let x := old.toInt + v.toInt
    if x < -(2 ^ 63) then (0x8000000000000000#64, true)
    else if 2 ^ 63 ≤ x then (0x7FFFFFFFFFFFFFFF#64, true)
    else (w64 x, false)
  | _ => (old, false)

/-- Flags come with the answer to an operation (R149, R354). -/
def State.flagAnswer (s : State) (core id : Nat) (flags : BitVec 8) (offer : Option Offer) : State :=
  s.onCore core fun c =>
    { c with landings := c.landings.map fun l => if l.id = id then { l with flags := flags, offer := offer } else l }

/-- A modifying atomic, or AREAD, at the engine (R349, R354): `f` gives the new cell and whether it clamped.
[DEDUCED, log 58: unsafe] -/
def State.atomic (s : State) (p : Pending) (die obj cell : Nat) (reads : Bool) (f : W64 → W64 × Bool) : State :=
  let o := s.object die obj
  let core := p.by_.core
  if o.barrier then
    let t := s.answer core p.id (BitVec.ofNat 512 (o.dw cell))
    if reads then t else (t.logObject die obj).failBarrier die obj 6
  else
    let old := o.cells.getD cell 0
    let r := f old
    let s := if reads then s
      else (s.logObject die obj).putObject die obj { o with cells := o.cells.set cell r.1 }
    let s := if r.2 then s.flagAnswer core p.id 0x20 (Offer.ofElem p.by_.osn 0 0x20) else s
    s.answer core p.id (old.setWidth 512)

/-- One operation at the synchronisation engine (R345, R349, R353, R354). -/
def State.applySync (s : State) (p : Pending) (die obj : Nat) (kind : SyncKind) (va : Nat) : State :=
  let o := s.object die obj
  match kind with
  | .init literal value => (s.logObject die obj).initBarrier die obj literal value
  | .inv => (s.logObject die obj).invalidateObject die obj
  | .arrive => if o.barrier then (s.logObject die obj).arriveAt die obj else s.misuse p.by_ die obj 1
  | .expect n => if o.barrier then (s.logObject die obj).expectAt die obj n else s.misuse p.by_ die obj 3
  | .wait round park => s.barrierWait p die obj round park va
  | .pin =>
    match (if s.sameLaunch p.by_ then (s.core p.by_.core).act else .idle) with
    | .pinned (.pinB _ dst) => s.registerPin p die obj dst va
    | .saved (some (true, .pinB _ dst)) => s.registerPin p die obj dst va
    | _ => s
  | .atomic op cell v => s.atomic p die obj cell (op == 5) fun old => cellOp op old v
  | .cas cell old new => s.atomic p die obj cell false fun v => (if v = old then new else v, false)

/-! The engine's events. -/

/-- An object in the engine's cache, the least recently used one written back to make room (R341). [DEDUCED, log 61: safe] -/
def Die.touch (d : Die) (obj : Nat) : Die := { d with cache := (obj :: d.cache.filter (· != obj)).take 65536 }

/-- An object is lost to an uncorrectable error of the cache (code 1) or of the overflow area (code 2): a barrier fails with
cause 7, cells read as zero from then on, and the die raises its machine check (R360). [DESIGN CHOICE, log 106: unsafe] -/
def State.loseObject (s : State) (die obj code : Nat) : State :=
  (if (s.object die obj).barrier then s.failBarrier die obj 7 else s.putObject die obj SyncObj.reset).dieCheck die code obj

/-- The HBM block that backs an object (R341, R393). -/
def State.objectBlock (s : State) (die obj : Nat) : Nat :=
  match s.hub.launch with
  | some l => (2 ^ 37 * die + l.objectBase % 2 ^ 36 + 64 * obj) / 64
  | none => (2 ^ 37 * die + 64 * obj) / 64

/-- OBJECT_FETCH (R341): an object that is not in the engine's cache is fetched from the sync overflow area, which backs it
at the same offset. The cache changes only timing; an object whose block is uncorrectable is lost (R360).
[DEDUCED, log 61: safe] -/
def execObjectFetch (die obj : Nat) (s : State) : Host.Outcome State Fault Refusal :=
  if 8 ≤ die then .fault (.noSuchUnit die)
  else
    let b := s.objectBlock die obj
    let t := (s.noteRead (64 * b) 64).onDie die fun d => d.touch obj
    .next (if s.poisoned (64 * b) 64 then
        (t.onPlatform fun p => { p with poison := p.poison.filter (· != b) }).loseObject die obj 2
      else t)

/-- An operation on an object runs once the object is in the cache; until then its fetch is asked for and the event waits
(R341). A stopped engine applies nothing (R360). -/
def State.withObject (s : State) (die obj : Nat) (again : Instr) (f : State → State) : State :=
  let d := s.die die
  if d.stopped then s
  else if d.cache.contains obj then f (s.setDie die (d.touch obj))
  else
    let e := Instr.objectFetch die obj
    (if s.agenda.contains e then s else s.push e).push again

/-- SYNC_OPERATION (R343, R345): the engine applies an operation in the order in which the die's event arbiter sees it, and
the count of its binding is released (R245). -/
def execSyncOperation (core op : Nat) (s : State) : Host.Outcome State Fault Refusal :=
  match s.findOp op with
  | none => .next s
  | some p =>
    match p.op with
    | .sync die obj kind b =>
      .next (s.withObject die obj (.syncOperation core op) fun t =>
        ((t.dropOp op).applySync p die obj kind ((b.map (·.va)).getD 0)).releaseAll p.by_.core [b])
    | .fabricArrive die obj b =>
      .next (s.withObject die obj (.syncOperation core op) fun t =>
        ((t.dropOp op).applySync p die obj .arrive ((b.map (·.va)).getD 0)).releaseAll p.by_.core [b])
    | _ => .next s

/-- BARRIER_DECREMENT (R329, R330, R345): a decrement or a failure of a transfer or a fabric operation reaches its
barrier. -/
def execBarrierDecrement (op : Nat) (s : State) : Host.Outcome State Fault Refusal :=
  match s.findOp op with
  | none => .next s
  | some p =>
    match p.op with
    | .decrement die obj bytes _ b =>
      .next (s.withObject die obj (.barrierDecrement op) fun t =>
        ((t.dropOp op).decrementAt p.by_ die obj bytes).releaseAll p.by_.core [b])
    | _ => .next s

/-! The words (R350 to R354). -/

/-- A synchronisation word on an object (R351): translated as an access that needs S; its operand must fit. -/
def State.objectWord (s : State) (a : BitVec 5) (operand : W64) (fits : Bool) (f : State → Bound → State) : State :=
  match s.translate (s.reg a).toNat 64 permS false with
  | .stop t => t
  | .ok t b =>
    if (s.reg a).toNat % 64 ≠ 0 then t.misaligned (s.reg a)
    else if !fits then t.misaligned operand
    else t.counted [b] fun t => (f t b).traceQ (s.reg a).toNat

/-- An operation leaves for the event arbiter of its object's die (R343). -/
def State.sendSync (s : State) (b : Bound) (kind : SyncKind) : State :=
  let id := s.nextId
  (s.addOp s.issuer (.sync b.object.1 b.object.2 kind (some b))).push (.syncOperation s.cur id)

/-- BINIT (R345, R352). -/
def execBinit (a b : BitVec 5) (s : State) : Host.Outcome State Fault Refusal :=
  let v := s.reg b
  .next (s.objectWord a v (fieldOf v 32 31 == 0) fun t x => t.sendSync x (.init (flagOf v 63) (v.setWidth 32)))

/-- BARRIVE (R345). -/
def execBarrive (a : BitVec 5) (s : State) : Host.Outcome State Fault Refusal :=
  .next (s.objectWord a 0 true fun t x => t.sendSync x .arrive)

/-- BEXPECT (R345, R352). -/
def execBexpect (a b : BitVec 5) (s : State) : Host.Outcome State Fault Refusal :=
  let v := s.reg b
  .next (s.objectWord a v (decide (v.toNat < 2 ^ 32)) fun t x => t.sendSync x (.expect v.toNat))

/-- BINV (R345). -/
def execBinv (a : BitVec 5) (s : State) : Host.Outcome State Fault Refusal :=
  .next (s.objectWord a 0 true fun t x => t.sendSync x .inv)

/-- BWAIT (R353): a strand begins to leave; a handler context sends its question at once and never parks. -/
def execBwait (d : BitVec 3) (a b : BitVec 5) (s : State) : Host.Outcome State Fault Refusal :=
  let v := s.reg b
  .next (s.objectWord a v (decide (v.toNat < 65536)) fun t x =>
    if t.here.handlerMode then
      let id := t.nextId
      (t.sendSync x (.wait v.toNat false)).onHere fun c =>
        c.send (c.sPort d.toNat) 1 { Landing.of 0 with arrived := false, id := id }
    else t.leave (.barrier x v.toNat d.toNat))

/-- An atomic word (R351, R354): its result is timed and awaits the engine. -/
def State.atomicWord (s : State) (d a l : BitVec 5) (kind : Nat → SyncKind) : State :=
  match s.translate (s.reg a).toNat 8 permS false with
  | .stop t => t
  | .ok t x =>
    if (s.reg a).toNat % 8 ≠ 0 then t.misaligned (s.reg a)
    else t.counted [x] fun t =>
      let id := t.nextId
      ((t.timedOp (t.here.sPort d.toNat) 24 l.toNat
        (.sync x.object.1 x.object.2 (kind (x.pa % 64 / 8)) (some x))).push (.syncOperation t.cur id)).traceQ
        (s.reg a).toNat

/-- AADD (R354). -/
def execAadd (d a b l : BitVec 5) (s : State) : Host.Outcome State Fault Refusal :=
  .next (s.atomicWord d a l fun cell => .atomic 0 cell (s.reg b))

/-- AMIN (R354). -/
def execAmin (d a b l : BitVec 5) (s : State) : Host.Outcome State Fault Refusal :=
  .next (s.atomicWord d a l fun cell => .atomic 1 cell (s.reg b))

/-- AMAX (R354). -/
def execAmax (d a b l : BitVec 5) (s : State) : Host.Outcome State Fault Refusal :=
  .next (s.atomicWord d a l fun cell => .atomic 2 cell (s.reg b))

/-- AOR (R354). -/
def execAor (d a b l : BitVec 5) (s : State) : Host.Outcome State Fault Refusal :=
  .next (s.atomicWord d a l fun cell => .atomic 3 cell (s.reg b))

/-- AFIX (R354). -/
def execAfix (d a b l : BitVec 5) (s : State) : Host.Outcome State Fault Refusal :=
  .next (s.atomicWord d a l fun cell => .atomic 4 cell (s.reg b))

/-- AREAD (R354). -/
def execAread (d a l : BitVec 5) (s : State) : Host.Outcome State Fault Refusal :=
  .next (s.atomicWord d a l fun cell => .atomic 5 cell 0)

/-- ACAS (R350, R354): the pair must not leave its bank. -/
def execAcas (d a b l : BitVec 5) (s : State) : Host.Outcome State Fault Refusal :=
  .next (if b.toNat = 31 ∨ (s.here.handlerMode ∧ b.toNat = 15) then s.illegal
    else s.atomicWord d a l fun cell => .cas cell (s.reg b) (s.regN (b.toNat + 1)))

/-! Waits that never end (R358). -/

/-- The data of a wait record (R358). -/
def waitData (lidx : W64) (va kind round core q : Nat) (spill : Bool) (since : Nat) : Nat :=
  lidx.toNat + 2 ^ 64 * (va % 2 ^ 48) + 2 ^ 112 * kind + 2 ^ 115 * (round % 65536) + 2 ^ 131 * core + 2 ^ 141 * q +
    bitAt spill 144 + 2 ^ 176 * (since % 2 ^ 64)

/-- A wait that began at a time has lasted longer than a limit in microseconds. -/
def State.overdue (s : State) (since limit : Nat) : Bool := decide (limit * 1000 < s.time - since)

/-- Wait limit of the launch in microseconds. -/
def State.waitLimit (s : State) : Nat := match s.hub.launch with | some l => l.wlim | none => 0

/-- Wait records of the barriers of a die, and its objects marked. -/
def State.scanObjects (s : State) (die : Nat) : State × List Nat :=
  let limit := s.waitLimit
  let due (w : Waiter) : Bool := w.parked.isSome && !w.reported && s.overdue w.since limit
  let d := s.die die
  let found := d.objects.flatMap fun o => (o.2.waiters.filter due).map fun w =>
    waitData w.lidx w.va 0 (w.round.getD 0) 0 0 false w.since
  (s.setDie die { d with objects := d.objects.map fun o =>
    (o.1, { o.2 with waiters := o.2.waiters.map fun w => if due w then { w with reported := true } else w }) }, found)

/-- The wait record of the strand pinned on a core, where the wait has lasted (R358). -/
def State.scanPin (s : State) (core : Nat) (late : Bool) : State × List Nat :=
  let c := s.core core
  let lidx := match c.strand with | some r => r.lidx | none => 0
  match c.act with
  | .pinned why =>
    if !late || c.pinReported then (s, [])
    else
      let va := match why with | .pinB b _ => b.va | _ => 0
      let q := match why with | .pinQ q => q | _ => 0
      let spill := match why with | .pinQ q => !(c.queue q).spilled.isEmpty | _ => false
      (s.setCore core { c with pinReported := true }, [waitData lidx va 2 0 core q spill c.pinSince])
  | _ => (s, [])

/-- Wait records of one core: strands parked on its queues and the strand pinned on it. -/
def State.scanCore (s : State) (core : Nat) : State × List Nat :=
  let limit := s.waitLimit
  let c := s.core core
  let due (q : Queue) : Bool := match q.waiter with | some w => !w.reported && s.overdue w.since limit | none => false
  let parked := c.queues.zipIdx.flatMap fun q => match q.1.waiter with
    | some w => if due q.1 then [waitData w.record.lidx 0 1 0 core q.2 (!q.1.spilled.isEmpty) w.since] else []
    | none => []
  let t := s.setCore core { c with
    queues := c.queues.map fun q =>
      if due q then { q with waiter := q.waiter.map fun w => { w with reported := true } } else q }
  let r := t.scanPin core (s.overdue c.pinSince c.wdPeriod.toNat)
  (r.1, parked ++ r.2)

/-- Wait records are written, the report is sent, and the command processor fails the launch (R358, R395).
[DEDUCED, log 59: unsafe] -/
def State.reportWaits (s : State) (die : Nat) (records : List (Nat × Nat)) : State :=
  if records.isEmpty then s
  else
    let s := records.foldl (fun s r => s.dieEvent die 0x06 r.1 r.2) s
    let s := (s.dieEvent die 0x0B 0x3FF records.length).forward die 0x0B
    s.failLaunch 0x08 0 [BitVec.ofNat 64 records.length, 0, 0, 0]

/-- A QGET of serial re-execution that a queue of the die holds, past the limit and not reported yet (R358).
[DEDUCED, log 59: unsafe] -/
def State.heldGet (s : State) (die : Nat) (p : Pending) : Bool :=
  (match s.hub.launch with | some l => l.serial | none => false) && dieOfCore p.by_.core == die &&
    (match p.op with | .get _ since reported => !reported && s.overdue since s.waitLimit | _ => false)

/-- Wait records of the held QGETs of a die. -/
def State.scanGets (s : State) (die : Nat) : State × List (Nat × Nat) :=
  let data (p : Pending) : List (Nat × Nat) := match p.op with
    | .get q since _ =>
      [(p.by_.core, waitData p.by_.lidx 0 1 0 p.by_.core q (!((s.core p.by_.core).queue q).spilled.isEmpty) since)]
    | _ => []
  let told (o : Op) : Op := match o with | .get q since _ => .get q since true | o => o
  ({ s with ops := s.ops.map fun p => if s.heldGet die p then { p with op := told p.op } else p },
    (s.ops.filter (s.heldGet die)).flatMap data)

/-- Every wait of a die past its limit, with the source of its record. -/
def State.scanDie (s : State) (die : Nat) : State × List (Nat × Nat) :=
  let g := s.scanGets die
  let a := g.1.scanObjects die
  ((s.cores.map (·.1)).filter fun n => dieOfCore n == die).foldl (fun acc n =>
    let r := acc.1.scanCore n
    (r.1, acc.2 ++ r.2.map fun d => (n, d))) (a.1, g.2 ++ a.2.map fun d => (0x3FF, d))

/-- WAIT_SCAN (R358): the supervisor reports each wait past its limit once. -/
def execWaitScan (die : Nat) (s : State) : Host.Outcome State Fault Refusal :=
  if 8 ≤ die then .fault (.noSuchUnit die)
  else
    let r := s.scanDie die
    .next (r.1.reportWaits die r.2)

end Sys2Proof.Machine
end

