-- ==== Sys2Proof/Machine/Arith.lean ====
section
/-! DEFINITION. Sums of products in the order that the spec fixes (R139, R151 to R153), exact sums of checksums and the
tolerance test of a drain (R154, R155, R229). -/

namespace Sys2Proof.Machine

/-- log6_product of R139. -/
def log6Product (a b : Nat) : Num :=
  let sa := a / 32 % 2
  let sb := b / 32 % 2
  let ma := a % 32
  let mb := b % 32
  if (sa = 1 ∧ ma = 0) ∨ (sb = 1 ∧ mb = 0) then .nan false
  else if ma = 0 ∨ mb = 0 then .fin (sa != sb) 0 0
  else
    -- (ma - 16) + (mb - 16) = 4 i + f, kept non-negative by adding 32
    let l := ma + mb
    .fin (sa != sb) (log6Mantissa (l % 4)) ((l / 4 : Nat) - 8 - 11)

/-- The exact product of two elements of a format, with block scales for the block-scaled ones, and whether it is
invalid (R151, R153). -/
def prodElem (r : Rnd) (fmt : Nat) (a b : Nat × Nat) : Num × Bool :=
  if fmt = 10 then (log6Product a.1 b.1, false)
  else if isMx fmt then
    let x := mxElem (elemFmt fmt) a.2 a.1
    let y := mxElem (elemFmt fmt) b.2 b.1
    Num.mul x y
  else Num.mul (readElem r fmt a.1) (readElem r fmt b.1)

/-- The exact sum of finite values; the sign of a zero sum by R135. -/
def sumFinite (r : Rnd) (l : List Num) : Num :=
  let q := l.foldl (fun q x => min q x.exponent) 0
  let i := l.foldl (fun i x => i + x.scaled q) 0
  let allNeg := l.all (fun x => x.isZero && x.sign)
  let allPos := l.all (fun x => x.isZero && !x.sign)
  Num.ofScaled i q (if allNeg && !l.isEmpty then true else if allPos then false else r.rm == 3)

/-- The exact sum of values, with infinities and NaNs as a group of products takes them (R153). -/
def sumExact (r : Rnd) (l : List Num) : Num × Bool :=
  let below := l.any fun x => x.isInf && x.sign
  let above := l.any fun x => x.isInf && !x.sign
  if l.any Num.isNan then (.nan false, l.any Num.signals || (below && above))
  else if below then (if above then (.nan false, true) else (.inf true, false))
  else if above then (.inf false, false)
  else (sumFinite r l, false)

/-- floor(log2) of a finite non-zero magnitude. -/
def floorLog2 : Num → Int
  | .fin _ m e => (Nat.log2 m : Nat) + e
  | _ => 0

/-- A finite value truncated towards zero to a multiple of `2^q`, and whether bits were dropped (R152). -/
def truncTo (q : Int) : Num → Num × Bool
  | .fin n m e => if q ≤ e then (.fin n m e, false) else (.fin n (m / 2 ^ (q - e).toNat) q, m % 2 ^ (q - e).toNat != 0)
  | x => (x, false)

/-- window of R152 over finite products: the exact sum of the truncated products, and whether bits were dropped.
[DEDUCED, log 29: unsafe] -/
def window (r : Rnd) (ps : List Num) : Num × Bool :=
  match ps.filter (fun x => !x.isZero) with
  | [] => (sumFinite r ps, false)
  | p :: nz =>
    let e := nz.foldl (fun e x => max e (floorLog2 x)) (floorLog2 p)
    let ts := (p :: nz).map (truncTo (e - 24))
    (sumFinite r (ts.map (·.1)), ts.any (·.2))

/-- The accumulator format of an input format: FP64, INT32 or FP32 (R151). -/
def accFmt (fmt : Nat) : Nat := if fmt = 0 then 0 else if isInt fmt then 13 else 1

/-- Formats whose products are summed exactly, without a window (R151). -/
def sumsExactly (fmt : Nat) : Bool := fmt ≤ 3 || isInt fmt

/-- One group of a dot product: products, the scale of the tiles, and the accumulator (R151 to R153). -/
def dotGroup (r : Rnd) (fmt : Nat) (ts : Num) (acc : Nat) (ps : List (Num × Bool)) : Rounded :=
  let r := r.noStochastic
  if isInt fmt then
    let i := ps.foldl (fun i p => i + p.1.scaled 0) (signed 32 acc)
    { code := wrap 32 i, flags := if i < -2147483648 ∨ 2147483647 < i then flagOF else 0 }
  else
    let iv := ps.any (·.2)
    let vals := ps.map (·.1)
    let special := vals.any (fun x => x.isNan || x.isInf)
    let (s, d) : (Num × Bool) × Bool :=
      if special then (sumExact r vals, false)
      else if sumsExactly fmt then ((sumFinite r vals, false), false)
      else let w := window r vals; ((w.1, false), w.2)
    let (p, iv2) := Num.mul s.1 ts
    let (t, iv3) := Num.add r (decodeFloat (accFmt fmt) acc) p
    let y := roundTo r (accFmt fmt) t
    { y with flags := y.flags ||| ivIf (iv || s.2 || iv2 || iv3) ||| (if d then flagIX else 0) }

/-- The groups of a dot product one after the other; flags are ORed (R151). -/
def dotGroups (r : Rnd) (fmt : Nat) (ts : Num) : Rounded → List (List (Num × Bool)) → Rounded
  | acc, [] => acc
  | acc, g :: gs =>
    let y := dotGroup r fmt ts acc.code g
    dotGroups r fmt ts { y with flags := y.flags ||| acc.flags } gs

/-- dot of R151 over elements with their scale bytes; FZI reaches the accumulator once, as an input (R146). -/
def dot (r : Rnd) (fmt : Nat) (ts : Num) (acc : Nat) (a b : List (Nat × Nat)) : Rounded :=
  dotGroups r fmt ts { code := flushIn r (accFmt fmt) acc, flags := 0 } (chunksOf 16 (List.zipWith (prodElem r fmt) a b))

/-- The value of an element with its block scale and the tile scale, and whether its consumption is invalid: a signalling
NaN, or 0 × ∞ under the scales (R135, R136). -/
def elemRead (r : Rnd) (fmt : Nat) (ts : Num) (x : Nat × Nat) : Num × Bool :=
  if isMx fmt then Num.mul (mxElem (elemFmt fmt) x.2 x.1) ts
  else if fmt = 10 then (decodeFloat 10 (x.1 % 64), false)
  else let v := readElem r fmt x.1; (v, v.signals)

/-- The value of an element with its block scale and the tile scale (R136). -/
def elemValue (r : Rnd) (fmt : Nat) (ts : Num) (x : Nat × Nat) : Num := (elemRead r fmt ts x).1

/-- One group of dotck: products summed exactly, added and rounded with RNE, no window (R229). [DEDUCED, log 36: unsafe] -/
def dotckGroup (r : Rnd) (ck acc : Nat) (ps : List Num) : Nat :=
  if ck = 13 then wrap 32 (ps.foldl (fun i p => i + p.scaled 0) (signed 32 acc))
  else
    let s := (sumExact Rnd.nearest ps).1
    (roundTo { Rnd.nearest with fzo := r.fzo } ck (Num.add Rnd.nearest (readElem r ck acc) s).1).code

/-- dotck of R229 over two vectors of values. [DEDUCED, log 36: unsafe] -/
def dotck (r : Rnd) (ck acc : Nat) (u v : List Num) : Nat :=
  (chunksOf 16 (List.zipWith (fun x y => (Num.mul x y).1) u v)).foldl (dotckGroup r ck) acc

/-- The checksum format of an input format, where there is one (R154). -/
def ckFmt? (fmt : Nat) : Option Nat :=
  if fmt = 0 then some 0 else if fmt = 11 then some 13 else if fmt ≤ 10 then some 1 else none

/-- The checksum format. -/
def ckFmt (fmt : Nat) : Nat := (ckFmt? fmt).getD 1

/-- An exact sum rounded once with RNE to a checksum format; INT32 wraps (R154, R322). -/
def ckSum (ck : Nat) (l : List Num) : Nat :=
  if ck = 13 then wrap 32 (l.foldl (fun i x => i + x.scaled 0) 0)
  else (roundTo Rnd.nearest ck (sumExact Rnd.nearest l).1).code

/-- ulp of R155 as an exponent of two. -/
def ulpExp (ck : Nat) (m : Num) : Int :=
  let (p, emin) : Int × Int := if ck = 0 then (53, -1022) else (24, -126)
  if m.isZero then emin - p + 1 else max (floorLog2 m) emin - p + 1

/-- The larger magnitude. [DEDUCED, log 29: unsafe] -/
def maxAbs (a b : Num) : Num := if Num.lt a.abs b.abs then b.abs else a.abs

/-- The test ok(Σ, s, n) of a drain: values, carried checksum, tolerance (R154, R155). [DEDUCED, log 29: unsafe] -/
def ckOk (ck tau : Nat) (vals : List Nat) (s : Nat) : Bool :=
  let sum := ckSum ck (vals.map (decodeElem ck 0))
  if ck = 13 then
    decide ((signed 32 (wrap 32 (signed 32 sum - signed 32 s))).natAbs ≤ tau * (vals.length + 1))
  else
    let a := decodeFloat ck sum
    let b := decodeFloat ck s
    if a.isNan || b.isNan then a.isNan && b.isNan
    else if a.isInf || b.isInf then a == b
    else
      let m := vals.foldl (fun m v => let x := decodeFloat ck v; if x.isNan || x.isInf then m else maxAbs m x) b.abs
      let u := ulpExp ck m
      match (Num.add Rnd.nearest a b.neg).1 with
      | .fin _ dm de =>
        let q := min de u
        decide (dm * 2 ^ (de - q).toNat ≤ tau * (vals.length + 1) * 2 ^ (u - q).toNat)
      | _ => false

end Sys2Proof.Machine
end

