-- ==== Sys2Proof/Machine/Tile.lean ====
section
/-! DEFINITION. Tiles in the scratchpads (R129, R130, R213 to R216): the lines of a descriptor, the packing of rows, headers
and checksum vectors, as the matrix array and the copy engines use them. -/

namespace Sys2Proof.Machine

namespace TileRef

/-- SPACE: the cluster scratchpad. -/
def cluster (t : TileRef) : Bool := flagOf t.lo 31

/-- RPITCH. -/
def pitch (t : TileRef) : Nat := fieldOf t.lo 32 16

/-- BROT. -/
def rotation (t : TileRef) : Nat := fieldOf t.hi 16 4

/-- line_addr of R130 for tile 0. -/
def line (t : TileRef) (i j : Nat) : Nat :=
  let a := t.base + 64 * (i * t.pitch + j)
  if t.cluster then a
  else a - 2 ^ 19 * bits a 19 4 + 2 ^ 19 * ((bits a 19 4 + i * t.rotation) % 16)

/-- TVAL of a mismatch: the first register with the effective base (R233). -/
def tval (t : TileRef) : W64 := BitVec.ofNat 64 (t.lo.toNat - fieldOf t.lo 0 25 + t.base)

end TileRef

/-- The tile that a register pair describes, at an effective base, by the BFMT of its first line's bank or by KFMT (R126,
R214, R227). -/
def tileAt (bfmt : List Byte) (kfmt : Nat) (lo hi : W64) (base : Nat) : TileRef :=
  let b := (bfmt.getD (base / 2 ^ 19 % 16) 0).toNat
  if flagOf lo 31 then { lo := lo, hi := hi, base := base, fmt := kfmt, ext := true }
  else { lo := lo, hi := hi, base := base, fmt := b % 16, ext := decide (128 ≤ b) }

/-- The same tile at another base: its bank there gives its format and whether it is extended (R126, R227). Outside its space,
where no bank holds its first line, the bank number counts modulo 16, and a negative base as 0. [DEDUCED, log 35: unsafe] -/
def TileRef.moved (t : TileRef) (bfmt : List Byte) (offset : Int) : TileRef :=
  tileAt bfmt t.fmt t.lo t.hi ((t.base : Int) + offset).toNat

/-- Bytes of a data row of `n` elements with its scale bytes (R132, R213). -/
def rowBytes (fmt n : Nat) : Nat := (n * elemBits fmt + 7) / 8 + (if isMx fmt then (n + 31) / 32 else 0)

/-- Lines that hold some bytes. -/
def linesFor (n : Nat) : Nat := (n + 63) / 64

/-- Lines of a checksum vector of `n` entries for a tile in a format (R154, R214). -/
def ckLines (fmt n : Nat) : Nat := linesFor (n * elemBits (ckFmt fmt) / 8)

/-- Lines of each descriptor row of a tile of `m` rows of `n` elements (R214). -/
def tileRows (fmt : Nat) (ext : Bool) (m n : Nat) : List Nat :=
  let data := List.replicate m (linesFor (rowBytes fmt n))
  if ext then 1 :: (data ++ [ckLines fmt m + ckLines fmt n + 1]) else data

/-- Lines of a whole tile. -/
def tileLines (fmt : Nat) (ext : Bool) (m n : Nat) : Nat := (tileRows fmt ext m n).foldl (· + ·) 0

/-- End of the last unrotated line, from the base on. Every line of an extended tile counts, also those of an operand that its
port does not read. [DESIGN CHOICE, log 131: unsafe] -/
def TileRef.span (t : TileRef) (m n : Nat) : Nat :=
  maxOf ((tileRows t.fmt t.ext m n).zipIdx.map fun r => 64 * (r.2 * t.pitch + r.1))

/-- A descriptor fault of R130 or R214. -/
def TileRef.faulty (t : TileRef) (m n : Nat) : Bool :=
  fieldOf t.lo 48 16 != 0 || fieldOf t.lo 25 6 != 0 || fieldOf t.hi 20 44 != 0 || t.base % 64 != 0 || t.pitch == 0 ||
    (t.cluster && t.rotation != 0) || decide (t.pitch < linesFor (rowBytes t.fmt n)) ||
    decide (scratchSize t.cluster < t.base + t.span m n)

/-- The banks that the lines of a tile touch differ in FMT or XT (R227, reason 8). The lines of a row are contiguous, so
its first and its last line decide. -/
def TileRef.mixed (t : TileRef) (bfmt : List Byte) (m n : Nat) : Bool :=
  !t.cluster &&
    (let at_ (a : Nat) : Byte := bfmt.getD (a / 2 ^ 19 % 16) 0
     let first := at_ (t.line 0 0)
     (tileRows t.fmt t.ext m n).zipIdx.any fun r => at_ (t.line r.2 0) != first || at_ (t.line r.2 (r.1 - 1)) != first)

/-! Packing. -/

/-- Element `i` of a packed row (R132). -/
def unpack (fmt : Nat) (row : List Byte) (i : Nat) : Nat :=
  let w := elemBits fmt
  if w = 4 then bits (row.getD (i / 2) 0).toNat (4 * (i % 2)) 4
  else if fmt = 10 then (row.getD i 0).toNat % 64
  else bytesToNat ((row.drop (i * w / 8)).take (w / 8))

/-- The elements of a data row with their scale bytes (R213). -/
def rowElems (fmt n : Nat) (row : List Byte) : List (Nat × Nat) :=
  let scales := row.drop ((n * elemBits fmt + 7) / 8)
  (List.range n).map fun i => (unpack fmt row i, if isMx fmt then (scales.getD (i / 32) 0).toNat else 0)

/-- Packed codes (R132). -/
def packCodes (fmt : Nat) (codes : List Nat) : List Byte :=
  if elemBits fmt = 4 then
    (chunksOf 2 codes).map fun p => BitVec.ofNat 8 (p.headD 0 % 16 + 16 * (p.getD 1 0 % 16))
  else codes.flatMap fun c => natToBytes (elemBits fmt / 8) c

/-- The bytes of a data row: packed elements, then scale bytes (R213). -/
def packRow (fmt : Nat) (row : List (Nat × Nat)) : List Byte :=
  packCodes fmt (row.map (·.1)) ++
    (if isMx fmt then (chunksOf 32 row).map fun b => BitVec.ofNat 8 (b.headD (0, 0)).2 else [])

/-- A row of values encoded into a format, with scale bytes in a block-scaled one, and the flags by column (R137, R142,
R147): `rnd` gives the roundings of an element, whose number starts at `first`. The flags of a block as a whole offer its
first element. [DESIGN CHOICE, log 120: unsafe] -/
def encodeRow (rnd : Nat → Rnd) (fmt : Nat) (dtscale : W32) (first : Nat) (row : List Num) :
    List (Nat × Nat) × List (Nat × BitVec 8) :=
  if isMx fmt then
    let blocks := (chunksOf 32 row).zipIdx.map fun b =>
      let m := mxq (rnd 0) (elemFmt fmt) (decodeFloat 1 dtscale.toNat)
        (b.1.zipIdx.map fun v => (v.1, (rnd (first + 32 * b.2 + v.2)).sr))
      (m.2.1.map fun y => (y.code, m.1),
        (32 * b.2, m.2.2) :: m.2.1.zipIdx.map fun y => (32 * b.2 + y.2, y.1.flags))
    (blocks.flatMap (·.1), blocks.flatMap (·.2))
  else
    let ys := row.zipIdx.map fun v => encodeElem (rnd (first + v.2)) fmt v.1
    (ys.map fun y => (y.code, 0), ys.zipIdx.map fun y => (y.2, y.1.flags))

/-- The invalid flags of source elements, by column. -/
def invalidAt (ivs : List Bool) : List (Nat × BitVec 8) :=
  ivs.zipIdx.filterMap fun v => if v.1 then some (v.2, flagIV) else none

/-- Bytes filled up with zeros to whole lines. -/
def fullLines (bs : List Byte) : List Byte := padTo (64 * linesFor bs.length) 0 bs

/-- BFMT of the sixteen banks as a word samples it (R64, R126). -/
def State.bankFormats (s : State) : List Byte := (List.range 16).map fun b => (s.cregAt (0x020 + b)).setWidth 8

/-! Headers (R215). -/

/-- A tile header. -/
structure TileHeader where
  /-- VALID. -/
  valid : Bool
  /-- CKP. -/
  ckp : Bool
  /-- SUBST. -/
  subst : Bool
  /-- FMT. -/
  fmt : Nat
  /-- ROWS. -/
  rows : Nat
  /-- COLS. -/
  cols : Nat
  /-- TSCALE. -/
  tscale : W32
  /-- PKIND. -/
  pkind : Nat
  /-- PUNIT. -/
  punit : Nat
  deriving DecidableEq, Repr

/-- The 64 bytes of a header. -/
def TileHeader.bytes (h : TileHeader) : List Byte :=
  natToBytes 64 (bitAt h.valid 31 + bitAt h.ckp 30 + bitAt h.subst 29 + h.fmt % 16 +
    2 ^ 32 * (h.rows % 2 ^ 16 + 2 ^ 16 * (h.cols % 2 ^ 16)) +
    2 ^ 64 * h.tscale.toNat + 2 ^ 96 * (2 ^ 28 * h.pkind + h.punit))

/-- A header line with VALID = 0: reserved fields are zero, the others hold values that no rule gives (R12, R233, R324). -/
def openHeader (v : Nat) : List Byte :=
  ({ valid := false, ckp := v.testBit 30, subst := v.testBit 29, fmt := bits v 0 4, rows := bits v 32 16, cols := bits v 48 16
     tscale := BitVec.ofNat 32 (bits v 64 32), pkind := bits v 124 4, punit := bits v 96 10 } : TileHeader).bytes

/-- The header that a line holds. -/
def headerAt (line : List Byte) : TileHeader :=
  let n := bytesToNat line
  { valid := n.testBit 31, ckp := n.testBit 30, subst := n.testBit 29, fmt := bits n 0 4, rows := bits n 32 16
    cols := bits n 48 16, tscale := BitVec.ofNat 32 (bits n 64 32), pkind := bits n 124 4, punit := bits n 96 10 }

/-! Tiles as an agent reads and writes them. -/

/-- A line of an operand: as the operand port has read it for the operation in hand, or as it stands (R225). -/
def State.operandLine (s : State) (core : Nat) (cluster : Bool) (a : Nat) : List Byte :=
  match (s.core core).mat.seen.find? fun l => l.1 == (cluster, a) with
  | some l => l.2
  | none => s.agentRead core cluster a 64

/-- `k` lines of descriptor row `i` from line `j` on. -/
def State.tileLinesAt (s : State) (core : Nat) (t : TileRef) (i j k : Nat) : List Byte :=
  (List.range k).flatMap fun n => s.operandLine core t.cluster (t.line i (j + n))

/-- The lines that bytes fill from descriptor row `i`, line `j` on: scratchpad, offset and bytes. -/
def TileRef.linesOf (t : TileRef) (i j : Nat) (bs : List Byte) : List (Bool × Nat × List Byte) :=
  (chunksOf 64 bs).zipIdx.map fun l => (t.cluster, t.line i (j + l.2), l.1)

/-- Lines of a tile written one after the other. -/
def State.putLines (s : State) (core : Nat) (ls : List (Bool × Nat × List Byte)) : State :=
  ls.foldl (fun s l => s.agentWrite core l.1 l.2.1 l.2.2) s

/-- The lines of an operand of `m` rows of `k` elements that the operand port reads (R216, R228): header, data rows and
column checksums. -/
def TileRef.operandLines (t : TileRef) (m k : Nat) : List (Bool × Nat) :=
  let w := linesFor (rowBytes t.fmt k)
  let head := if t.ext then [t.line 0 0] else []
  let data := (List.range m).flatMap fun i => (List.range w).map fun j => t.line (if t.ext then i + 1 else i) j
  let sums := if t.ext then (List.range (ckLines t.fmt k)).map fun j => t.line (m + 1) (ckLines t.fmt m + j) else []
  (head ++ data ++ sums).map fun a => (t.cluster, a)

/-- Data row `i` of a tile. -/
def State.tileRow (s : State) (core : Nat) (t : TileRef) (n i : Nat) : List Byte :=
  let w := rowBytes t.fmt n
  (s.tileLinesAt core t (if t.ext then i + 1 else i) 0 (linesFor w)).take w

/-- The entries of a checksum vector that stands from line `j` of row `m + 1` on. -/
def State.tileChecksums (s : State) (core : Nat) (t : TileRef) (m j n : Nat) : List Nat :=
  let bs := s.tileLinesAt core t (m + 1) j (ckLines t.fmt n)
  (List.range n).map fun i => unpack (ckFmt t.fmt) bs i

/-- Row checksums, column checksums and corner of a tile of element values, row by row (R154, R214, R234). -/
def checksumsOf (fmt : Nat) (rows : List (List Num)) : List Nat × List Nat × Nat :=
  let ck := ckFmt fmt
  let n := (rows.headD []).length
  (rows.map (ckSum ck), (List.range n).map fun j => ckSum ck (rows.map fun r => r.getD j (.fin false 0 0)),
    ckSum ck rows.flatten)

/-- The bytes of row `m + 1` of an extended tile: both vectors and the corner, each on fresh lines (R214). -/
def checksumLines (fmt : Nat) (cks : List Nat × List Nat × Nat) : List Byte :=
  let ck := ckFmt fmt
  fullLines (packCodes ck cks.1) ++ fullLines (packCodes ck cks.2.1) ++ fullLines (packCodes ck [cks.2.2])

end Sys2Proof.Machine
end

