-- ==== Sys2Proof/Machine/Transfer.lean ====
section
/-! DEFINITION. Copy engines (R317 to R340): transfer records and their checks, conversion, verification of tiles, chunks,
blocks and their decrements, completion, and the transfer words. An engine reads the source bytes of its chunk line by line
and writes the destination bytes of its blocks line by line. -/

namespace Sys2Proof.Machine

namespace Xfer

/-- Destination rows (R318). -/
def rowsD (x : Xfer) : Nat := if x.op = 1 then x.ncol else x.rows

/-- Elements of a destination row. -/
def ncolD (x : Xfer) : Nat := if x.op = 1 then x.rows else x.ncol

/-- Bytes of a source row (R318). -/
def rbS (x : Xfer) : Nat := if x.raw then x.ncol else rowBytes x.sfmt x.ncol

/-- Bytes of a destination row. -/
def rbD (x : Xfer) : Nat := if x.raw then x.ncol else rowBytes x.dfmt x.ncolD

/-- Bytes from one row of the source image to the next: whole lines for an extended tile. -/
def stepS (x : Xfer) : Nat := if x.sext then 64 * linesFor x.rbS else x.rbS

/-- Bytes of a destination row that count (R328): whole lines for an extended tile. -/
def stepD (x : Xfer) : Nat := if x.dext then 64 * linesFor x.rbD else x.rbD

/-- Bytes of a destination row that are written (R324). -/
def writeD (x : Xfer) : Nat := if x.tile then 64 * linesFor x.rbD else x.rbD

/-- Lines of checksums and corner (R214). -/
def ckCount (fmt m n : Nat) : Nat := ckLines fmt m + ckLines fmt n + 1

/-- Bytes of the source image: header, rows and checksum lines of an extended tile, or rows. -/
def srcBytes (x : Xfer) : Nat :=
  x.rows * x.stepS + (if x.sext then 64 * (1 + ckCount x.sfmt x.rows x.ncol) else 0)

/-- Place of a source row in the image. -/
def srcRow (x : Xfer) (i : Nat) : Nat := (if x.sext then 64 else 0) + i * x.stepS

/-- Bytes of the destination data (R329). -/
def data (x : Xfer) : Nat := x.rowsD * x.stepD

/-- COUNT (R328). -/
def count (x : Xfer) : Nat := x.data + (if x.dext then 64 * (1 + ckCount x.dfmt x.rowsD x.ncolD) else 0)

/-- Number of blocks of destination bytes (R326). -/
def blockCount (x : Xfer) : Nat := (x.data + 4095) / 4096

/-- Number of chunks of source bytes (R326). -/
def chunkCount (x : Xfer) : Nat := (x.srcBytes + 65535) / 65536

/-- Bytes of a chunk. -/
def chunkBytes (x : Xfer) (k : Nat) : Nat := min 65536 (x.srcBytes - 65536 * k)

/-- The elements change their bits (R320). -/
def converts (x : Xfer) : Bool :=
  !x.raw && decide (x.op ≤ 1) && (x.sfmt != x.dfmt || (x.op == 1 && isMx x.sfmt))

/-- The part of the image that destination bytes from `lo` to `hi` need. -/
def need (x : Xfer) (lo hi : Nat) : Nat × Nat :=
  let r0 := lo / x.stepD
  let r1 := (hi - 1) / x.stepD
  if x.op = 1 then (0, x.srcBytes)
  else if !x.raw && (isMx x.sfmt || isMx x.dfmt) then (x.srcRow r0, x.srcRow r1 + x.rbS)
  else
    let wd := if x.raw then 8 else elemBits x.dfmt
    let ws := if x.raw then 8 else elemBits x.sfmt
    let from_ := (lo - r0 * x.stepD) * 8 / wd * ws / 8
    let dest := (((hi - r1 * x.stepD) * 8 + wd - 1) / wd * ws + 7) / 8
    (x.srcRow r0 + min from_ x.rbS, x.srcRow r1 + min dest x.rbS)

/-- First and last destination byte of a block. -/
def blockSpan (x : Xfer) (b : Nat) : Nat × Nat := (4096 * b, min x.data (4096 * (b + 1)))

/-- Address of a byte of the destination data. -/
def address (x : Xfer) (o : Nat) : Nat := x.daddr + (if x.dext then o / x.stepD + 1 else o / x.stepD) * x.dpitch + o % x.stepD

/-- The destination is a plain range whose rows do not overlap: each unit is written whole (R101). Where rows overlap, a unit of
two rows is written once for each. [DESIGN CHOICE, log 112: unsafe] -/
def wholeUnits (x : Xfer) : Bool :=
  decide (x.op ≤ 1) && (x.rowsD ≤ 1 || decide (x.writeD ≤ x.dpitch)) &&
    (match x.dst with | some b => !b.versioned | none => false)

/-- The destination bytes that a block writes: those that it grants and, in a plain range, the rest of the units in which they
lie, which a unit's other block writes too (R101, R326). -/
def unitSpan (x : Xfer) (b : Nat) : Nat × Nat :=
  let span := x.blockSpan b
  if !x.wholeUnits || decide (span.2 ≤ span.1) then span
  else
    let same (o p : Nat) : Bool := x.address o / 8 == x.address p / 8
    (span.1 - ((List.range (min 7 span.1)).filter fun k => same (span.1 - 1 - k) span.1).length,
     span.2 + ((List.range (min 7 (x.data - span.2))).filter fun k => same (span.2 + k) (span.2 - 1)).length)

/-- What a block needs of the image. -/
def blockNeed (x : Xfer) (b : Nat) : Nat × Nat := x.need (x.unitSpan b).1 (x.unitSpan b).2

/-- The source bytes read so far, each at its place. -/
def image (x : Xfer) : List Byte := x.parts.foldl (fun img p => padTo p.1 0 img ++ p.2) []

/-- Source bytes from one place to another have been read. -/
def has (x : Xfer) (lo hi : Nat) : Bool :=
  decide (hi ≤ x.parts.foldl (fun at_ p => if p.1 ≤ at_ then max at_ (p.1 + p.2.length) else at_) lo)

/-- The place up to which a run has read. -/
def reached (x : Xfer) (r : EngineRun) : Nat :=
  r.lo + (match x.parts.find? fun p => p.1 == r.lo with | some p => p.2.length | none => 0)

/-- The block that a run writes next: the first one not granted whose need ends in its chunk (R326). -/
def current (x : Xfer) (r : EngineRun) : Option Nat :=
  (List.range x.blockCount).find? fun b =>
    decide (r.lo < (x.blockNeed b).2) && decide ((x.blockNeed b).2 ≤ r.hi) && !x.granted.contains b

/-- The place up to which a run reads before its next block, or at its end. -/
def goal (x : Xfer) (r : EngineRun) : Nat := match x.current r with | some b => (x.blockNeed b).2 | none => r.hi

/-- A run of an extended source that has done all its work waits for the verification of the tile (R322). -/
def keeps (x : Xfer) (r : EngineRun) : Bool :=
  x.sext && !x.verified && decide (x.runs.length = 1) && decide (x.admitted = x.chunkCount) && decide (x.reached r = r.hi) &&
    (x.current r).isNone

/-- Destination address of row `i` of the data. -/
def rowAddress (x : Xfer) (i : Nat) : Nat := x.daddr + (if x.dext then i + 1 else i) * x.dpitch

/-- Address of the destination's checksum lines. -/
def ckAddress (x : Xfer) : Nat := x.daddr + (x.rowsD + 1) * x.dpitch

/-! The destination's bytes (R320, R324). -/

/-- The tile scale of the source (R320). -/
def tscale (x : Xfer) : W32 := if x.sext then (headerAt (x.image.take 64)).tscale else 0x3F800000#32

/-- The scale under which a block-scaled destination is encoded (R317). -/
def scaleD (x : Xfer) : W32 := if x.dtscale = 0 then 0x3F800000#32 else x.dtscale

/-- TSCALE of the destination's header (R324). -/
def scaleOut (x : Xfer) : W32 :=
  if isMx x.dfmt then (if x.converts then x.scaleD else x.tscale) else 0x3F800000#32

/-- Bytes of source row `i`. -/
def rowS (x : Xfer) (i : Nat) : List Byte := padTo x.rbS 0 ((x.image.drop (x.srcRow i)).take x.rbS)

/-- Elements of source row `i`. -/
def elemsS (x : Xfer) (i : Nat) : List (Nat × Nat) := rowElems x.sfmt x.ncol (x.rowS i)

/-- Roundings of an element of the destination (R320). -/
def rnd (x : Xfer) (e : Nat) : Rnd :=
  Rnd.ofMode x.by_.mode (if fieldOf x.by_.mode 0 3 = 4 then srbits x.jkey x.by_.lidx x.by_.src e else 0)

/-- Elements of destination row `i` with the flags of its columns, those of the source elements' consumption among them
(R135, R136, R333). [DEDUCED, log 119: unsafe] -/
def elemsD (x : Xfer) (i : Nat) : List (Nat × Nat) × List (Nat × BitVec 8) :=
  let src := if x.op = 1 then (List.range x.rows).map fun j => (x.elemsS j).getD i (0, 0) else x.elemsS i
  if x.converts then
    let vs := src.map (elemRead (x.rnd 0) x.sfmt (decodeFloat 1 x.tscale.toNat))
    let row := encodeRow x.rnd x.dfmt x.scaleD (i * x.ncolD) (vs.map (·.1))
    (row.1, row.2 ++ invalidAt (vs.map (·.2)))
  else (src, [])

/-- Bytes of destination row `i`, without padding, and the flags of its columns. -/
def rowD (x : Xfer) (i : Nat) : List Byte × List (Nat × BitVec 8) :=
  if x.raw || decide (2 ≤ x.op) then (x.rowS i, [])
  else let r := x.elemsD i; (packRow x.dfmt r.1, r.2)

/-- The bytes of a destination row that lie between two places of the destination data, with their offset in the row;
zeros fill the last line of a tile's row (R324). -/
def rowPart (x : Xfer) (i lo hi : Nat) : Nat × List Byte :=
  let first := lo - i * x.stepD
  let row := padTo x.stepD 0 (x.rowD i).1
  let part := (row.drop first).take (min hi ((i + 1) * x.stepD) - (i * x.stepD + first))
  (first, if first + part.length = x.stepD then part ++ List.replicate (x.writeD - x.stepD) 0 else part)

/-- Rows that meet a part of the destination data. -/
def rowsOf (x : Xfer) (lo hi : Nat) : List Nat :=
  if hi ≤ lo then [] else (List.range ((hi - 1) / x.stepD + 1 - lo / x.stepD)).map (lo / x.stepD + ·)

/-- Flags of the elements of a part of the destination data, by element number; of a block-scaled row those of the whole
row. -/
def partFlags (x : Xfer) (lo hi : Nat) : List (Nat × BitVec 8) :=
  if !x.converts then []
  else (x.rowsOf lo hi).flatMap fun i =>
    let w := elemBits x.dfmt
    let inside (c : Nat) : Bool :=
      isMx x.dfmt || (decide (lo < i * x.stepD + ((c + 1) * w + 7) / 8) && decide (i * x.stepD + c * w / 8 < hi))
    ((x.rowD i).2.filter fun f => inside f.1).map fun f => (i * x.ncolD + f.1, f.2)

/-- The values of an extended tile's source, row by row. -/
def valuesS (x : Xfer) : List (List Num) :=
  (List.range x.rows).map fun i => (x.elemsS i).map (elemValue Rnd.nearest x.sfmt (decodeFloat 1 x.tscale.toNat))

/-- The values of the destination as written. -/
def valuesD (x : Xfer) : List (List Num) :=
  (List.range x.rowsD).map fun i => (x.elemsD i).1.map (elemValue Rnd.nearest x.dfmt (decodeFloat 1 x.scaleOut.toNat))

/-- The carried checksum lines of an extended source. -/
def carried (x : Xfer) : List Byte := (x.image.drop (x.srcRow x.rows)).take (64 * ckCount x.sfmt x.rows x.ncol)

/-- The verification of R322: every recomputed sum equals the carried one, entry by entry. -/
def passes (x : Xfer) : Bool :=
  let ck := ckFmt x.sfmt
  let sums := checksumsOf x.sfmt x.valuesS
  let at_ (line n : Nat) : List Nat := (List.range n).map fun i => unpack ck (x.carried.drop (64 * line)) i
  at_ 0 x.rows == sums.1 && at_ (ckLines x.sfmt x.rows) x.ncol == sums.2.1 &&
    at_ (ckLines x.sfmt x.rows + ckLines x.sfmt x.ncol) 1 == [sums.2.2]

/-- The checksum lines of an extended destination (R324 step 3). -/
def checksums (x : Xfer) : List Byte :=
  if x.sext && !x.converts && x.op == 0 && !x.subst then x.carried else checksumLines x.dfmt (checksumsOf x.dfmt x.valuesD)

/-- The final header (R324 step 4). -/
def header (x : Xfer) : List Byte :=
  ({ valid := true, ckp := true, subst := x.subst || (x.sext && (headerAt (x.image.take 64)).subst), fmt := x.dfmt
     rows := x.rowsD, cols := x.ncolD, tscale := x.scaleOut, pkind := 1, punit := clusterOf x.by_.core } : TileHeader).bytes

/-- The first header, with VALID = 0 (R324 step 1). [DESIGN CHOICE, log 51: safe] -/
def firstHeader (x : Xfer) : List Byte := openHeader (Config.openHeader (BitVec.ofNat 512 (bytesToNat x.header))).toNat

/-! Folds (R107, R332). -/

/-- Kind of the fold units: 0 plain, 1 INT64, 2 FIX64. -/
def kind (x : Xfer) : Nat := if x.op ≤ 1 then 0 else x.op - 1

/-- The first of two units in address order, stable. -/
def insertUnit (u : FoldUnit) : List FoldUnit → List FoldUnit
  | [] => [u]
  | v :: vs => if u.va < v.va then u :: v :: vs else v :: insertUnit u vs

/-- Units in ascending address. -/
def inOrder (us : List FoldUnit) : List FoldUnit := us.foldl (fun l u => insertUnit u l) []

/-- Units in ascending address with those of one address joined: one fold unit for each unit that is touched (R105). -/
def joined : List FoldUnit → List FoldUnit
  | [] => []
  | u :: us =>
    match joined us with
    | v :: vs =>
      if u.va = v.va then { va := u.va, mask := u.mask ||| v.mask, data := (u.data &&& ~~~byteMask v.mask) ||| v.data } :: vs
      else u :: v :: vs
    | [] => [u]

/-- Units of the data rows; each delta of a reduction is a store of its own (R325). -/
def dataUnits (x : Xfer) : List FoldUnit :=
  let us := (List.range x.rowsD).flatMap fun i =>
    foldUnits (x.rowAddress i) (x.rowPart i (i * x.stepD) ((i + 1) * x.stepD)).2
  let us := if x.dpitch < x.writeD then inOrder us else us
  if x.kind = 0 then joined us else us.map fun u => { u with mask := 0xFF }

/-- Units of the checksum lines. -/
def ckUnits (x : Xfer) : List FoldUnit := foldUnits x.ckAddress x.checksums

/-- The words of the folded operation that writes the data (R332). -/
def dataFold (x : Xfer) : List (W64 × W64) :=
  let hdr := if x.dext then foldUnits x.daddr x.firstHeader else []
  let cks := if x.dext && Config.checksumsFirst then x.ckUnits else []
  (hdr ++ x.dataUnits ++ cks).map fun u => u.words x.kind

/-- All folds of a transfer, in their order (R332). [DESIGN CHOICE, log 52: safe] -/
def folds (x : Xfer) : List (W64 × W64) :=
  let first := match x.firstFold with
    | none => x.dataFold
    | some f => f ++ x.dataUnits.map fun u => u.words x.kind
  let last := if x.dext then
      foldUnits x.daddr x.header ++ (if Config.checksumsFirst then [] else x.ckUnits)
    else []
  first ++ last.map fun u => u.words 0

end Xfer

/-! Reading the source (R322, R330, R332, R410). -/

/-- What stands in for the bytes of a substituted block of a data line, at an offset of the row (R410). -/
def substituteByte (fmt n : Nat) (offset : Nat) : Byte :=
  let w := elemBits fmt
  let body := (n * w + 7) / 8
  if offset < body then
    (if w = 4 then 0 else (natToBytes (w / 8) (canonicalNan (elemFmt fmt))).getD (offset % (w / 8)) 0)
  else if isMx fmt && decide (offset < body + (n + 31) / 32) then 0x7F
  else 0

/-- A piece of the source image: its address, its place in the image, its length, and what it is: 0 a header, 1 a data row,
2 checksum lines, 3 a plain row. -/
abbrev Piece := Nat × Nat × Nat × Nat

/-- The pieces of the source. -/
def Xfer.pieces (x : Xfer) : List Piece :=
  if x.sext then
    (x.saddr, 0, 64, 0) :: ((List.range x.rows).map fun i => (x.saddr + (i + 1) * x.spitch, x.srcRow i, x.stepS, 1)) ++
      [(x.saddr + (x.rows + 1) * x.spitch, x.srcRow x.rows, 64 * Xfer.ckCount x.sfmt x.rows x.ncol, 2)]
  else (List.range x.rows).map fun i => (x.saddr + i * x.spitch, x.srcRow i, x.rbS, 3)

/-- Address and length of each row of the source, as it is read. -/
def Xfer.spanS (x : Xfer) : List (Nat × Nat) :=
  let n := if x.tile then 64 * linesFor x.rbS else x.rbS
  x.pieces.map fun p => (p.1, if p.2.2.2 = 3 then n else p.2.2.1)

/-- Address and length of each row of the destination, as it is written. -/
def Xfer.spanD (x : Xfer) : List (Nat × Nat) :=
  let rows := (List.range x.rowsD).map fun i => (x.rowAddress i, x.writeD)
  if x.dext then (x.daddr, 64) :: rows ++ [(x.ckAddress, 64 * Xfer.ckCount x.dfmt x.rowsD x.ncolD)] else rows

/-- Outcome of reading a run of source bytes inside one line: the bytes, whether they can not be read, and whether they
were substituted. -/
structure Fetched where
  /-- Bytes. -/
  bytes : List Byte
  /-- Unreadable. -/
  bad : Bool
  /-- Substituted. -/
  subst : Bool
  deriving DecidableEq, Repr

/-- A unit of a plain source: one that a read before has taken in part keeps the value of that read, so that it is not torn
(R101). -/
def State.sourceUnit (s : State) (x : Xfer) (b : Bound) (u : Nat) : W64 :=
  match x.seen.find? fun e => e.1 == u with
  | some e => e.2
  | none => s.plainUnit x.by_ (s.keyNo b.key) (s.redirect b (8 * u - b.va) / 8 * 8)

/-- Bytes of a global source: of a plain one by its units. -/
def State.sourceBytes (s : State) (x : Xfer) (b : Bound) (a n : Nat) : List Byte :=
  if b.versioned then s.globalRead x.by_ b (a - b.va) n
  else (List.range n).map fun i => BitVec.ofNat 8 (fieldOf (s.sourceUnit x b ((a + i) / 8)) (8 * ((a + i) % 8)) 8)

/-- The units that a read from `a` on takes in part, with their values. -/
def State.seenUnits (s : State) (x : Xfer) (a n : Nat) : List (Nat × W64) :=
  match x.src with
  | none => []
  | some b =>
    if b.versioned then []
    else ((if a % 8 = 0 then [] else [a / 8]) ++ (if (a + n) % 8 = 0 then [] else [(a + n) / 8])).map fun u =>
      (u, s.sourceUnit x b u)

/-- Source bytes inside one line. `what` is the piece's kind, `o` the offset in it. -/
def State.fetchRun (s : State) (x : Xfer) (what o a n : Nat) : State × Fetched :=
  match x.src with
  | none =>
    let cluster := x.ssp == 2
    let bad := s.badAt x.by_.core cluster a n
    (s, { bytes := if bad then List.replicate n 0 else s.agentRead x.by_.core cluster a n, bad := bad, subst := false })
  | some b =>
    let pa := s.redirect b (a - b.va)
    let bytes := s.sourceBytes x b a n
    let key := s.keyNo b.key
    if !s.unreadable key pa n then (s.noteAccess key pa n, { bytes := bytes, bad := false, subst := false })
    else
      let t := s.noteAccess key pa n
      if !b.perm.getLsbD 6 || what == 0 then (t, { bytes := List.replicate n 0, bad := true, subst := false })
      else
        let zs := if what = 1 then (List.range n).map fun i => substituteByte x.sfmt x.ncol (o + i) else List.replicate n 0
        (t.onPlatform Platform.substituted, { bytes := zs, bad := false, subst := true })

/-- Number of the destination element at a place of a piece, for the flag SB (R333). -/
def Xfer.elemAt (x : Xfer) (what row o : Nat) : Nat :=
  if x.raw || what == 2 then 0
  else
    let j := o * 8 / elemBits x.sfmt
    if j < x.ncol then (if x.op = 1 then j * x.ncolD + row else row * x.ncolD + j) else 0

/-- Bytes put behind those that a run has read. -/
def putPart (lo : Nat) (bytes : List Byte) : List (Nat × List Byte) → List (Nat × List Byte)
  | [] => [(lo, bytes)]
  | p :: ps => if p.1 = lo then (lo, p.2 ++ bytes) :: ps else if lo < p.1 then (lo, bytes) :: p :: ps else p :: putPart lo bytes ps

/-- The run's bytes are substituted data: the line was substituted, or they are the header of a tile with SUBST = 1 (R149, R215,
R333). [DEDUCED, log 119: unsafe] -/
def Fetched.substituted (f : Fetched) (what : Nat) : Bool :=
  f.subst || (what == 0 && !f.bad && f.bytes.length == 64 && (headerAt f.bytes).subst)

/-- Bytes of a piece that a run has read join the image. -/
def Xfer.took (x : Xfer) (r : EngineRun) (what row o : Nat) (f : Fetched) : Xfer :=
  let sb := f.substituted what
  { x with
    parts := putPart r.lo f.bytes x.parts
    unread := if f.bad then x.unread ++ [(x.reached r, f.bytes.length)] else x.unread
    subst := x.subst || f.subst
    flags := if sb then x.flags ||| flagSB else x.flags
    offer := if sb then Offer.keep x.offer (Offer.ofElem x.by_.osn (x.elemAt what row o) flagSB) else x.offer }

/-- A run reads one more line of its source. [DEDUCED, log 56: unsafe] -/
def State.readOne (s : State) (x : Xfer) (r : EngineRun) : State × Xfer :=
  let at_ := x.reached r
  match x.pieces.find? fun p => decide (p.2.1 ≤ at_) && decide (at_ < p.2.1 + p.2.2.1) with
  | none => (s, x)
  | some p =>
    let o := at_ - p.2.1
    let n := min (64 - (p.1 + o) % 64) (min r.hi (p.2.1 + p.2.2.1) - at_)
    let row := if x.stepS = 0 then 0 else (p.2.1 - x.srcRow 0) / x.stepS
    let f := s.fetchRun x p.2.2.2 o (p.1 + o) n
    (f.1, { x.took r p.2.2.2 row o f.2 with seen := s.seenUnits x (p.1 + o) n ++ x.seen })

/-- A run reads up to a place; `fuel` bounds the lines. -/
def State.readTo (s : State) (x : Xfer) (r : EngineRun) (goal : Nat) : Nat → State × Xfer
  | 0 => (s, x)
  | fuel + 1 =>
    if goal ≤ x.reached r then (s, x)
    else let t := s.readOne x r; State.readTo t.1 t.2 r goal fuel

/-- The runs that together read the whole source. -/
def Xfer.allRuns (x : Xfer) : List EngineRun :=
  if x.reread then [{ engine := 0, lo := 0, hi := x.srcBytes, wrote := 0, reads := (0, 0), writes := (0, 0) }]
  else (List.range x.chunkCount).map fun k =>
    { engine := 0, lo := 65536 * k, hi := 65536 * k + x.chunkBytes k, wrote := 0, reads := (0, 0), writes := (0, 0) }

/-- What has not been read yet of the source is read. -/
def State.readAll (s : State) (x : Xfer) : State × Xfer :=
  x.allRuns.foldl (fun a r => a.1.readTo a.2 r r.hi (r.hi - r.lo)) (s, x)

/-- To whom the write of a result is attributed (R94, R370). -/
def meetWriter (l r : Operand) : Operand := if r.by_.handler && !l.by_.handler then l else r

/-- Global writes under way: issuer, address and length. A meet may write twice the lines of one operand (R368). -/
def State.openWrites (s : State) : List (Issuer × Nat × Nat) :=
  let ofMeet (o : Operand) (more : Nat) : List (Issuer × Nat × Nat) := match o.dest with
    | .memory b => [(o.by_, b.pa, 2 * (o.bytes.length + 64 * more))]
    | .queue _ _ _ => []
  (s.clusters.flatMap fun c => c.2.xfers.filterMap fun x =>
      x.dst.map fun b => (x.by_, b.pa, maxOf (x.spanD.map fun r => r.1 + r.2) - x.daddr)) ++
    (s.ops.flatMap fun p => match p.op with
      | .meet o rest => ofMeet o (match rest with | some r => r.2 | none => 0)
      | .meetWrite _ l r _ bytes _ _ => (r.dest.bound?.toList).map fun b => ((meetWriter l r).by_, b.pa, bytes.length)
      | _ => []) ++
    (s.fabric.remotes.flatMap fun r => match r.op with
      | .fget _ _ _ _ _ len _ (some b) _ => [(r.by_, b.pa, len)]
      | _ => []) ++
    s.nodes.flatMap fun n => n.2.dir.flatMap fun e => match e.2.held with | some h => ofMeet h.2.2 0 | none => []

/-- A global read of some bytes is held: a write that precedes it by R95 has not landed (R82, R96, R101, R332). -/
def State.readHeld (s : State) (by_ : Issuer) (pa len : Nat) : Bool :=
  !by_.handler && s.openWrites.any fun w =>
    !w.1.handler && w.1.launch == by_.launch && decide (w.2.1 < pa + len) && decide (pa < w.2.1 + w.2.2) &&
      precedes s.posts w.1.lidx w.1.osn by_.lidx by_.osn

/-- Bytes from the first one of a side to its last one. -/
def spanLength (rows : List (Nat × Nat)) (addr : Nat) : Nat := maxOf (rows.map fun r => r.1 + r.2) - addr

/-- The source of a transfer is held. -/
def State.holdsSource (s : State) (x : Xfer) : Bool :=
  match x.src with
  | none => false
  | some b => s.readHeld x.by_ b.pa (spanLength x.spanS x.saddr)

/-- Global reads under way: issuer, address and length. -/
def State.openReads (s : State) : List (Issuer × Nat × Nat) :=
  (s.clusters.flatMap fun c => c.2.xfers.filterMap fun x =>
      if x.freed then none else x.src.map fun b => (x.by_, b.pa, spanLength x.spanS x.saddr)) ++
    s.fabric.remotes.flatMap fun r => match r.op with
      | .fput _ _ _ _ _ _ _ len _ _ (some b) _ => if len ≤ 512 * r.left then [] else [(r.by_, b.pa, len)]
      | _ => []

/-- A write to a plain range is held while the same strand's earlier writes and reads of those bytes are under way, so that the
bytes keep the latest write by R95 and an earlier read does not see it (R101). [DESIGN CHOICE, log 112: unsafe] -/
def State.writeHeld (s : State) (by_ : Issuer) (b : Bound) (len : Nat) : Bool :=
  !by_.handler && !b.versioned && (s.openWrites ++ s.openReads).any fun w =>
    !w.1.handler && w.1.launch == by_.launch && w.1.lidx == by_.lidx && decide (w.1.osn < by_.osn) &&
      decide (w.2.1 < b.pa + len) && decide (b.pa < w.2.1 + w.2.2)

/-- The destination of a transfer is held. -/
def State.holdsDest (s : State) (x : Xfer) : Bool :=
  match x.dst with
  | none => false
  | some b => s.writeHeld x.by_ b (spanLength x.spanD x.daddr)

/-! Writing the destination (R324, R325, R329). -/

/-- Bytes written to the destination side at an address: how the write ended. -/
def State.writeSide (s : State) (x : Xfer) (a : Nat) (bytes : List Byte) : State × Wrote :=
  match x.dst with
  | none => (s.agentWrite x.by_.core (x.dsp == 2) a bytes, .ok)
  | some b =>
    if x.kind = 0 then
      let r := s.globalWrite x.by_ b (a - b.va) bytes
      match r.2 with
      | .refused => (r.1.noteRefused (r.1.redirect b (a - b.va)) bytes.length 0, .refused)
      | w => (r.1, w)
    else
      (chunksOf 8 bytes).zipIdx.foldl (fun acc d =>
        let o := a - b.va + 8 * d.2
        let r := acc.1.globalReduce x.by_ b o x.kind (BitVec.ofNat 64 (bytesToNat d.1))
        match r.2 with
        | .refused => (r.1.noteRefused (r.1.redirect b o) 8 0, acc.2.worse .refused)
        | w => (r.1, acc.2.worse w)) (s, .ok)

/-- Bytes from an address on, cut at the ends of lines; `fuel` bounds the lines. -/
def cutLines : Nat → Nat → List Byte → List (Nat × List Byte)
  | 0, _, _ => []
  | _, _, [] => []
  | fuel + 1, a, bs => let n := 64 - a % 64; (a, bs.take n) :: cutLines fuel (a + n) (bs.drop n)

/-- Pieces that follow each other in one line stand together; those without a gap between them are one. -/
def byLine : List (Nat × List Byte) → List (List (Nat × List Byte))
  | [] => []
  | p :: ps =>
    match byLine ps with
    | (q :: qs) :: gs =>
      if q.1 / 64 ≠ p.1 / 64 then [p] :: (q :: qs) :: gs
      else if p.1 + p.2.length = q.1 then ((p.1, p.2 ++ q.2) :: qs) :: gs
      else (p :: q :: qs) :: gs
    | gs => [p] :: gs

/-- What a block of destination bytes writes, one line at a time: row by row, in ascending address; where units are written whole,
rows that share a line are written together (R101, R326). -/
def Xfer.blockPieces (x : Xfer) (b : Nat) : List (List (Nat × List Byte)) :=
  let span := x.unitSpan b
  let ps := (x.rowsOf span.1 span.2).flatMap fun i =>
    let p := x.rowPart i (max span.1 (i * x.stepD)) span.2
    cutLines (p.2.length / 64 + 2) (x.rowAddress i + p.1) p.2
  if x.wholeUnits then byLine ps else ps.map fun p => [p]

/-- Pieces written one after the other. -/
def State.writePieces (s : State) (x : Xfer) (ps : List (Nat × List Byte)) : State × Wrote :=
  ps.foldl (fun acc p => let r := acc.1.writeSide x p.1 p.2; (r.1, acc.2.worse r.2)) (s, .ok)

/-- Status of a write that failed (R330). -/
def Wrote.status : Wrote → Nat
  | .ok => 0
  | .dropped => 0x53
  | .refused => 0x54

/-! The engine's events. -/

/-- A transfer of a cluster. -/
def Cluster.xfer (c : Cluster) (id : Nat) : Option Xfer := c.xfers.find? fun x => x.id == id

/-- Every source byte has been read for the last time: the image is complete, and no verification can ask for it again (R323). -/
def Xfer.sourceDone (x : Xfer) : Bool :=
  x.src.isSome && !x.freed && (x.verified || !x.sext) && x.has 0 x.srcBytes

/-- A transfer of a cluster replaced; with the last read of its source the source's count is released (R245). -/
def State.putXfer (s : State) (cluster : Nat) (x : Xfer) : State :=
  let s := s.onCluster cluster fun c =>
    { c with xfers := c.xfers.map fun y => if y.id = x.id then { x with freed := x.freed || x.sourceDone } else y }
  if x.sourceDone then s.releaseAll x.by_.core [x.src] else s

/-- Chunks with an HBM side that are admitted and have not completed (R327). -/
def Cluster.budgeted (c : Cluster) : Nat := total ((c.xfers.filter (·.hbm)).map (·.runs.length))

/-- The budget of R327 admits the next chunk of a transfer. -/
def Cluster.affords (c : Cluster) (x : Xfer) : Bool :=
  !x.hbm || (decide (c.budgeted < 16) && decide (x.chunkBytes x.admitted ≤ c.tokens))

/-- The transfer has a chunk in the cluster's queue. -/
def Xfer.queued (x : Xfer) : Bool := decide (x.admitted < x.chunkCount) && x.status == 0 && !x.cancelled

/-- Engines that run no chunk. -/
def Cluster.freeEngines (c : Cluster) : List Nat :=
  (List.range 8).filter fun e => !c.xfers.any fun x => x.runs.any fun r => r.engine == e

/-- The next chunk of a transfer may be admitted (R326, R327): an engine is free, the budget allows it, and every chunk before
it in the queue waits for the budget, which holds back no chunk without an HBM side. -/
def Cluster.admits (c : Cluster) (x : Xfer) : Bool :=
  let before := c.xfers.takeWhile fun y => y.id != x.id
  x.queued && c.affords x && !c.freeEngines.isEmpty && !before.any fun y => y.queued && (x.hbm || c.affords y)

/-- The header of an extended source decides before anything is written (R322, R410). -/
def Xfer.headerStatus (x : Xfer) : Nat :=
  let h := headerAt (x.image.take 64)
  if !x.sext then 0
  else if x.unread.any (fun u => decide (u.1 < 64)) then 0x52
  else if !h.valid || !h.ckp || h.fmt != x.sfmt || h.rows != x.rows || h.cols != x.ncol then 0x50
  else 0

/-- The first header of an extended destination is written before its data (R324). -/
def State.openTile (s : State) (x : Xfer) : State × Xfer :=
  if x.opened then (s, x)
  else
    let st := x.headerStatus
    if st ≠ 0 then (s, { x with status := st })
    else if !x.dext then (s, { x with opened := true })
    else
      let r := s.writeSide x x.daddr x.firstHeader
      (r.1, { x with opened := true, status := r.2.status })

/-- CHUNK_ADMISSION (R326, R327): the chunk takes its bytes from the bucket, and an engine.
[DESIGN CHOICE, log 49: unsafe] -/
def execChunkAdmission (cluster xfer : Nat) (s : State) : Host.Outcome State Fault Refusal :=
  if 160 ≤ cluster then .fault (.noSuchUnit cluster)
  else match (s.cluster cluster).xfer xfer with
    | none => .next s
    | some x =>
      if !(s.cluster cluster).admits x then .next s
      else
        let n := x.chunkBytes x.admitted
        let e := (choose s.fresh 60000 (s.cluster cluster).freeEngines).getD 0
        let s := if x.hbm then s.onCluster cluster fun c => { c with tokens := c.tokens - n } else s
        let lo := 65536 * x.admitted
        .next (s.putXfer cluster { x with
          admitted := x.admitted + 1
          runs := x.runs ++ [{ engine := e, lo := lo, hi := lo + n, wrote := 0, reads := (0, 0), writes := (0, 0) }] })

/-- A decrement of the barrier by some bytes (R329); the last one carries the binding. -/
def State.decrementBy (s : State) (x : Xfer) (bytes : Option Nat) (last : Bool) : State :=
  match x.bar with
  | none => s
  | some b =>
    let id := s.nextId
    (s.addOp x.by_ (.decrement b.object.1 b.object.2 bytes x.id (if last then some b else none))).push (.barrierDecrement id)

/-- A part of the image can not be read. -/
def Xfer.blind (x : Xfer) (part : Nat × Nat) : Bool :=
  x.unread.any fun u => decide (u.1 < part.2) && decide (part.1 < u.1 + u.2)

/-- The header line of an extended source has been read, or there is none. -/
def Xfer.headKnown (x : Xfer) : Bool := !x.sext || x.has 0 64

/-- The run of an engine. -/
def Xfer.runOn (x : Xfer) (engine : Nat) : Option EngineRun := x.runs.find? fun r => r.engine == engine

/-- A run replaced; one that has read its chunk and written its blocks is over, and its engine free. -/
def Xfer.putRun (x : Xfer) (r : EngineRun) : Xfer :=
  let x := { x with runs := x.runs.map fun q => if q.engine = r.engine then r else q }
  if decide (x.reached r = r.hi) && (x.current r).isNone && !x.keeps r then
    { x with runs := x.runs.filter fun q => q.engine != r.engine }
  else x

/-- A run may read a line. -/
def State.canRead (s : State) (x : Xfer) (r : EngineRun) : Bool :=
  x.status == 0 && !x.cancelled && decide (x.reached r < r.hi) && !s.holdsSource x

/-- What a run needs to write its block has been read and the header allows it, or the tile is still to be opened (R322,
R324). -/
def Xfer.canWrite (x : Xfer) (r : EngineRun) : Bool :=
  x.status == 0 && (!x.cancelled || decide (0 < r.wrote)) &&
    (match x.current r with
     | none => false
     | some b => x.headKnown && x.has (x.blockNeed b).1 (x.blockNeed b).2)

/-- A run can open its tile, or write a line of its block that is not the last one. -/
def Xfer.writesMore (x : Xfer) (r : EngineRun) : Bool :=
  x.canWrite r && (!x.opened || (match x.current r with
    | none => false
    | some b => x.headerStatus == 0 && !x.blind (x.blockNeed b) && decide (r.wrote + 1 < (x.blockPieces b).length)))

/-- A run can finish a block, or its chunk: it has read up to its goal and written all lines of the block but the last one, and
what other chunks must have read for it they have read (R326). -/
def Xfer.canFinish (x : Xfer) (r : EngineRun) : Bool :=
  x.status == 0 && (!x.cancelled || decide (0 < r.wrote)) && !x.keeps r && (x.headKnown || r.lo == 0) &&
    (match x.current r with
     | none => true
     | some b => x.has (x.blockNeed b).1 (max (x.blockNeed b).1 (min r.lo (x.blockNeed b).2))) &&
    decide (x.goal r ≤ x.reached r) && !x.writesMore r

/-- The engine of a run has not stopped for a pre-emption (R340). -/
def State.runGoesOn (s : State) (cluster : Nat) (r : EngineRun) : Bool := !s.stopped (copyEngine cluster r.engine)

/-- The runs of a transfer that can finish a block, or their chunk. -/
def State.finishers (s : State) (cluster : Nat) (x : Xfer) : List EngineRun :=
  if s.holdsDest x then [] else x.runs.filter fun r => s.runGoesOn cluster r && x.canFinish r

/-- Where a run reads next in a scratchpad: cluster scratchpad, offset. -/
def Xfer.readPlace (x : Xfer) (r : EngineRun) : Option (Bool × Nat) :=
  if x.src.isSome then none
  else (x.pieces.find? fun p => decide (p.2.1 ≤ x.reached r) && decide (x.reached r < p.2.1 + p.2.2.1)).map fun p =>
    (x.ssp == 2, p.1 + (x.reached r - p.2.1))

/-- Where a run writes next in a scratchpad. -/
def Xfer.writePlace (x : Xfer) (r : EngineRun) : Option (Bool × Nat) :=
  if x.dst.isSome then none
  else if !x.opened then (if x.dext then some (x.dsp == 2, x.daddr) else none)
  else (x.current r).bind fun b => ((x.blockPieces b).drop r.wrote).flatten.head?.map fun p => (x.dsp == 2, p.1)

/-- A burst with one more line: up to eight lines of one bank make one burst (R127). -/
def burstWith (burst : Nat × Nat) (place : Option (Bool × Nat)) : Nat × Nat :=
  match place with
  | none => (0, 0)
  | some p =>
    let k := bankOf p.1 p.2
    if burst.1 == k && burst.2 % 8 != 0 then (k, burst.2 + 1) else (k, 1)

/-- One line that an engine reads for its chunk (R326). -/
def State.engineRead (s : State) (cluster xfer engine : Nat) : State :=
  match (s.cluster cluster).xfer xfer with
  | none => s
  | some x =>
    match x.runOn engine with
    | none => s
    | some r =>
      if s.canRead x r then
        let t := s.readOne x r
        t.1.putXfer cluster (t.2.putRun { r with reads := burstWith r.reads (x.readPlace r) })
      else s

/-- The first header of the destination, or one line but the last of the block in hand, that an engine writes (R324, R326). -/
def State.engineWrite (s : State) (cluster xfer engine : Nat) : State :=
  match (s.cluster cluster).xfer xfer with
  | none => s
  | some x =>
    match x.runOn engine with
    | none => s
    | some r =>
      if !x.writesMore r || s.holdsDest x then s
      else if !x.opened then let t := s.openTile x; t.1.putXfer cluster t.2
      else
        let ps := match x.current r with | some b => x.blockPieces b | none => []
        let w := s.writePieces x ((ps.drop r.wrote).take 1).flatten
        match w.2 with
        | .ok =>
          w.1.putXfer cluster (x.putRun { r with wrote := r.wrote + 1, writes := burstWith r.writes (x.writePlace r) })
        | e => w.1.putXfer cluster { x with status := e.status }

/-- The block in hand of a run, everything that it needs read: the rest of it is written and granted, its flags join those of
the transfer, and it decrements the barrier, once (R323, R326, R329, R330).
[DESIGN CHOICE, log 49: unsafe; DESIGN CHOICE, log 53: unsafe] -/
def State.grantBlock (s : State) (cluster : Nat) (x : Xfer) (r : EngineRun) (b : Nat) : State :=
  if x.headerStatus ≠ 0 then s.putXfer cluster { x with status := x.headerStatus }
  else if x.blind (x.blockNeed b) then s.putXfer cluster { x with status := 0x52 }
  else
    let span := x.blockSpan b
    let w := s.writePieces x ((x.blockPieces b).drop r.wrote).flatten
    let es := x.partFlags span.1 span.2
    let y := { x with flags := x.flags ||| flagsOf es, offer := Offer.keep x.offer (offerOf x.by_.osn es) }
    match w.2 with
    | .ok =>
      let n := if x.reread then 0 else span.2 - span.1
      let y := { y with granted := b :: y.granted, done := y.done + n }.putRun { r with wrote := 0 }
      let t := w.1.putXfer cluster y
      if x.reread then t else t.decrementBy x (some n) false
    | e => w.1.putXfer cluster { y with status := e.status }

/-- A run finishes its block, or its chunk where no block is left (R326). -/
def State.finishRun (s : State) (cluster : Nat) (x : Xfer) (r : EngineRun) : State :=
  let t := s.readTo x r (x.goal r) (r.hi - r.lo)
  let u := t.1.openTile t.2
  if u.2.status ≠ 0 then u.1.putXfer cluster u.2
  else match u.2.current r with
    | none => u.1.putXfer cluster (u.2.putRun r)
    | some b => u.1.grantBlock cluster u.2 r b

/-- BLOCK_COMPLETE (R326, R329): of the runs that can finish a block one does; chunks go on in any order.
[DESIGN CHOICE, log 49: unsafe; DEDUCED, log 56: unsafe] -/
def execBlockComplete (cluster xfer : Nat) (s : State) : Host.Outcome State Fault Refusal :=
  if 160 ≤ cluster then .fault (.noSuchUnit cluster)
  else match (s.cluster cluster).xfer xfer with
    | none => .next s
    | some x =>
      match choose s.fresh 61000 (s.finishers cluster x) with
      | none => .next s
      | some r => .next (s.finishRun cluster x r)

/-- Every block has been granted. -/
def Xfer.moved (x : Xfer) : Bool := x.opened && decide (x.granted.length = x.blockCount) && x.has 0 x.srcBytes

/-- The transfer waits for its verification (R322, R410). -/
def Xfer.toVerify (x : Xfer) : Bool := x.moved && x.sext && !x.verified && x.status == 0 && !x.cancelled

/-- The source tile is read again and the data rewritten by the engine that verifies it (R323). -/
def Xfer.rereading (x : Xfer) : Xfer :=
  { x with
    firstFold := some x.dataFold, reread := true, parts := [], unread := [], granted := []
    seen := [], runs := x.runs.map fun r => { r with lo := 0, hi := x.srcBytes, wrote := 0 } }

/-- TILE_VERIFICATION (R322, R323, R410): the carried sums are compared; a first mismatch rereads the tile, a second one
ends the transfer; a tile with a substituted line is not verified. -/
def execTileVerification (cluster xfer : Nat) (s : State) : Host.Outcome State Fault Refusal :=
  if 160 ≤ cluster then .fault (.noSuchUnit cluster)
  else match (s.cluster cluster).xfer xfer with
    | none => .next s
    | some x =>
      if !x.toVerify then .next s
      else if x.blind (x.srcRow x.rows, x.srcBytes) then .next (s.putXfer cluster { x with status := 0x52 })
      else if x.subst || x.passes then .next (s.putXfer cluster { x with verified := true })
      else if x.reread then .next (s.putXfer cluster { x with status := 0x51 })
      else .next (s.putXfer cluster x.rereading)

/-- Checksum lines, then the header: the last writes of an extended destination (R324). -/
def State.closeTile (s : State) (x : Xfer) : State × Wrote :=
  if !x.dext then (s, .ok)
  else
    let r := s.writeSide x x.ckAddress x.checksums
    match r.2 with
    | .ok => r.1.writeSide x x.daddr x.header
    | w => (r.1, w)

/-- The transfer can end: it has failed, it is cancelled and its running chunks stand at block boundaries, or all is done (R330,
R339). -/
def Xfer.ends (x : Xfer) : Bool :=
  x.status != 0 || (x.cancelled && x.runs.all fun r => r.wrote == 0) || (x.moved && (x.verified || !x.sext))

/-- The transfer can end now: what its folds still have to read is not held (R96, R108, R332). -/
def State.canEnd (s : State) (x : Xfer) : Bool :=
  x.ends && (x.dst.isNone || x.has 0 x.srcBytes || !s.holdsSource x)

/-- The summary and the kept results of a context with one more completed transfer (R335). -/
def Ctx.completed (c : Ctx) (x : Xfer) : Ctx :=
  let first : Option (Nat × Nat × Nat) :=
    if x.status = 0 then c.sumFail
    else match c.sumFail with
      | some f => if f.1 < x.id then some f else some (x.id, x.status, x.handle)
      | none => some (x.id, x.status, x.handle)
  { c with
    sumFail := first, sumFlags := c.sumFlags ||| x.flags, sumOffer := Offer.keep c.sumOffer x.offer
    sumDone := min (c.sumDone + 1) (2 ^ 24 - 1)
    results := ((x.handle, x.status, x.flags.toNat, x.done) :: c.results).take 64 }

/-- The core learns that a transfer has ended (R333, R335). -/
def State.reportXfer (s : State) (x : Xfer) : State :=
  let core := x.by_.core
  let s := s.onCore core fun c =>
    let c := { c with xfers := c.xfers.filter fun o => o.2.2 != x.id }
    if x.by_.handler then { c with hand := c.hand.completed x } else { c with main := c.main.completed x }
  if !x.by_.handler && s.sameLaunch x.by_ then s.onLaunch fun l => l.merge x.by_.lidx x.flags x.offer else s

/-- The folds of a transfer settle (R107, R108, R332): what was not read is read for them, what can not be read folds as
zero. -/
def State.foldXfer (s : State) (x : Xfer) : State :=
  if x.dst.isNone then s
  else
    let r := s.readAll x
    r.1.settleFold x.by_ x.id r.2.folds

/-- The binding of the barrier goes with the last decrement that is still on its way; where none is, it ends (R245). -/
def State.handOver (s : State) (x : Xfer) : State :=
  let mine (p : Pending) : Bool := match p.op with | .decrement _ _ _ source _ => source == x.id | _ => false
  match s.ops.reverse.find? mine with
  | some p =>
    (match p.op with
     | .decrement die obj bytes source _ => s.replaceOp p.id (.decrement die obj bytes source x.bar)
     | _ => s)
  | none => s.releaseAll x.by_.core [x.bar]

/-- A transfer ends with a status (R329, R330, R333, R335): the last decrement or the failure, folds, counts and results. -/
def State.endXfer (s : State) (cluster : Nat) (x : Xfer) : State :=
  let last := 64 * (1 + Xfer.ckCount x.dfmt x.rowsD x.ncolD)
  let s := if x.status ≠ 0 then s.decrementBy x none true
    else if x.dext then s.decrementBy x (some last) true
    else s
  let y := if x.status = 0 ∧ x.dext then { x with done := x.done + last } else x
  let s := if x.status = 0 ∧ ¬x.dext then s.handOver y else s
  let s := s.releaseAll y.by_.core [if y.freed then none else y.src, y.dst]
  ((s.onCluster cluster fun c => { c with xfers := c.xfers.filter fun z => z.id != y.id }).reportXfer y).foldXfer y

/-- TRANSFER_COMPLETE (R324, R330, R339). -/
def execTransferComplete (cluster xfer : Nat) (s : State) : Host.Outcome State Fault Refusal :=
  if 160 ≤ cluster then .fault (.noSuchUnit cluster)
  else match (s.cluster cluster).xfer xfer with
    | none => .next s
    | some x =>
      if !s.canEnd x then .next s
      else if x.status ≠ 0 then .next (s.endXfer cluster x)
      else if x.cancelled then .next (s.endXfer cluster { x with status := 0x5C })
      else
        let r := s.closeTile x
        .next (r.1.endXfer cluster { x with status := r.2.status })

/-- An error of an engine's buffers that can not be corrected: the transfer of the chunk that it runs ends with status 0x5F
(R340). -/
def State.bufferFault (s : State) (cluster engine : Nat) : State :=
  match (s.cluster cluster).xfers.find? fun x => (x.runOn engine).isSome with
  | none => s
  | some x => if x.status = 0 then s.putXfer cluster { x with status := 0x5F } else s

/-- ENGINE_FAULT (R340): a mismatch of the engine's control is a die machine check, and the transfer of its chunk ends with
status 0x5F. -/
def execEngineFault (cluster engine : Nat) (s : State) : Host.Outcome State Fault Refusal :=
  if 160 ≤ cluster then .fault (.noSuchUnit cluster)
  else if 8 ≤ engine then .fault (.noSuchUnit engine)
  else .next ((s.bufferFault cluster engine).dieCheck (cluster / 20) 3 (8 * cluster + engine))

/-! The words (R334 to R339). -/

/-- A record as XFER reads it, before its formats are known. [DEDUCED, log 54: unsafe] -/
def Xfer.parse (dw : List Nat) (by_ : Issuer) (id : Nat) (jkey : W64) : Xfer :=
  let d (i : Nat) : Nat := dw.getD i 0
  { id := id, by_ := by_, handle := 0, ssp := bits (d 0) 62 2, dsp := bits (d 1) 62 2, saddr := bits (d 0) 0 48
    daddr := bits (d 1) 0 48, rows := bits (d 2) 48 16, ncol := bits (d 2) 0 24, sfmt := bits (d 2) 36 4
    dfmt := bits (d 2) 32 4, sext := false, dext := false, spitch := bits (d 3) 32 32, dpitch := bits (d 3) 0 32
    op := bits (d 4) 58 3, raw := (d 4).testBit 57, tile := (d 4).testBit 56, dtscale := BitVec.ofNat 32 (bits (d 4) 0 32)
    src := none, dst := none, bar := none, jkey := jkey, hbm := false, admitted := 0, runs := [], parts := [], unread := []
    seen := [], freed := false, opened := false, granted := [], done := 0, reread := false, verified := false, subst := false, firstFold := none
    flags := 0, offer := none, cancelled := false, status := 0 }

/-- The lowest doubleword with a reserved field that is not zero (R317). -/
def reservedDw (dw : List Nat) : Option Nat :=
  let d (i : Nat) : Nat := dw.getD i 0
  [bits (d 0) 48 14, bits (d 1) 48 14, bits (d 2) 40 8 + bits (d 2) 24 8, 0, bits (d 4) 61 3 + bits (d 4) 32 24,
    bits (d 5) 48 16, d 6, d 7].findIdx? (· != 0)

/-- The banks of the core scratchpad that a side touches: rows of some length at a pitch. -/
def sideBanks (rows : List (Nat × Nat)) : List Nat :=
  (rows.flatMap fun r => (List.range ((r.1 + r.2 - 1) / 2 ^ 19 - r.1 / 2 ^ 19 + 1)).map (r.1 / 2 ^ 19 + ·)).eraseDups

/-- End of the highest row. -/
def spanEnd (rows : List (Nat × Nat)) : Nat := maxOf (rows.map fun r => r.1 + r.2)

/-- Bytes of a space's offset range (R319): 0 global, 1 core, 2 cluster. -/
def spaceSize (sp : Nat) : Nat := match sp with | 1 => 8388608 | 2 => 16777216 | _ => 2 ^ 48

/-- Doubleword that fixes the format of a side: its address for the core scratchpad (R317). [DEDUCED, log 50: unsafe] -/
def formatDw (sp i : Nat) : Nat := if sp = 1 then i else 2

/-- The first of several conditions that holds, as a status and a doubleword. [DEDUCED, log 50: unsafe] -/
def firstHolding : List (Bool × Nat × Nat) → Option (Nat × Nat)
  | [] => none
  | c :: cs => if c.1 then some c.2 else firstHolding cs

/-- The lowest of the sides' doublewords whose side fails. -/
def lowestSide (a b : Bool) (i j : Nat) : Nat := if a then (if b then min i j else i) else j

/-- The checks of R319 on the fields of the record alone, in their order. [DEDUCED, log 50: unsafe] -/
def Xfer.fieldChecks (x : Xfer) (dw : List Nat) : Option (Nat × Nat) :=
  let beyond (sp a : Nat) : Bool := decide (spaceSize sp ≤ a)
  firstHolding
    [((reservedDw dw).isSome, 0x40, (reservedDw dw).getD 0),
     (decide (4 ≤ x.op), 0x40, 4),
     (x.rows == 0 || x.ncol == 0, 0x40, 2),
     (x.ssp == 3 || x.dsp == 3, 0x40, lowestSide (x.ssp == 3) (x.dsp == 3) 0 1),
     (beyond x.ssp x.saddr || beyond x.dsp x.daddr, 0x40, lowestSide (beyond x.ssp x.saddr) (beyond x.dsp x.daddr) 0 1)]

/-- The checks of R319 that need the formats of the sides, in their order. [DEDUCED, log 50: unsafe] -/
def Xfer.formChecks (x : Xfer) (bfmt : List Byte) : Option (Nat × Nat) :=
  let noCk (ext : Bool) (fmt : Nat) : Bool := ext && (ckFmt? fmt).isNone
  let odd (fmt n : Nat) : Bool := !x.raw && isMx fmt && n % 32 != 0
  let mixed (sp : Nat) (rows : List (Nat × Nat)) : Bool :=
    sp == 1 && (let fs := ((sideBanks rows).filter (· < 16)).map fun b => bfmt.getD b 0
                fs.any fun f => f != fs.headD 0)
  let unit := if x.tile then 64 else if 2 ≤ x.op then 8 else 1
  let offGrid (n : Nat) : Bool := n % unit != 0
  let used := x.tile || decide (1 < x.rows)
  let short (pitch rb : Nat) : Bool :=
    if x.tile then decide (pitch < 64 * linesFor rb)
    else decide (x.op ≤ 1) && !x.raw && used && decide (pitch < rb)
  let outside (sp : Nat) (rows : List (Nat × Nat)) : Bool := sp != 0 && decide (spaceSize sp < spanEnd rows)
  firstHolding
    [(decide (2 ^ 32 ≤ x.count), 0x40, 2),
     (x.raw && (x.op != 0 || x.tile), 0x41, 4),
     (decide (2 ≤ x.op) && x.dsp != 0, 0x41, 1),
     (decide (2 ≤ x.op) && x.tile, 0x41, 4),
     (decide (2 ≤ x.op) && x.sfmt != 14 && x.sfmt != 15, 0x41, formatDw x.ssp 0),
     (noCk x.sext x.sfmt || noCk x.dext x.dfmt, 0x41,
      lowestSide (noCk x.sext x.sfmt) (noCk x.dext x.dfmt) (formatDw x.ssp 0) (formatDw x.dsp 1)),
     (odd x.sfmt x.ncol || odd x.dfmt x.ncolD, 0x41,
      lowestSide (odd x.sfmt x.ncol) (odd x.dfmt x.ncolD) (formatDw x.ssp 0) (formatDw x.dsp 1)),
     (x.op == 1 && (decide (1024 < x.rows) || decide (1024 < x.ncol) || decide (65536 < x.rows * x.rbS)), 0x41, 2),
     (mixed x.ssp x.spanS, 0x42, 0),
     (mixed x.dsp x.spanD, 0x42, 1),
     (offGrid x.saddr, 0x43, 0),
     (offGrid x.daddr, 0x43, 1),
     (used && (offGrid x.spitch || offGrid x.dpitch), 0x43, 3),
     (short x.spitch x.rbS || short x.dpitch x.rbD, 0x43, 2),
     (outside x.ssp x.spanS, 0x44, 0),
     (outside x.dsp x.spanD, 0x44, 1)]

/-- The C attribute of the range that holds an address, where the range table can tell (R318); none while a walk is
under way. -/
def State.peekC (s : State) (va : Nat) : Except State Bool :=
  match s.lookup va with
  | .wait t => .error t
  | .miss _ => .ok false
  | .hit _ d => .ok (d.perm.getLsbD 7)

/-- Format of a side, and whether it is extended, by its space (R318). -/
def State.sideForm (s : State) (sp a fmt : Nat) (tile : Bool) : Except State (Nat × Bool) :=
  match sp with
  | 1 =>
    let b := (s.cregAt (0x020 + a / 2 ^ 19 % 16)).toNat
    .ok (b % 16, tile && decide (128 ≤ b))
  | 2 => .ok (fmt, tile)
  | _ =>
    if !tile then .ok (fmt, false)
    else match s.peekC a with
      | .error t => .error t
      | .ok c => .ok (fmt, c)

/-- A global access of a transfer is translated: a side that is not global needs none. -/
def State.bindSide (s : State) (sp a len : Nat) (need : BitVec 9) : Except State (State × Option Bound) :=
  if sp ≠ 0 then .ok (s, none)
  else match s.translate a len need true with
    | .stop t => .error t
    | .ok t b =>
      if s.here.inHandler && need == permW && b.versioned then .error (t.fault 7 (BitVec.ofNat 64 a) 0)
      else .ok (t, some b)

/-- The barrier of a transfer is translated (R328). -/
def State.bindBarrier (s : State) (va : Nat) : Except State (State × Option Bound) :=
  if va = 0 then .ok (s, none)
  else match s.translate va 64 permS false with
    | .stop t => .error t
    | .ok t b => if va % 64 ≠ 0 then .error (t.misaligned (BitVec.ofNat 64 va)) else .ok (t, some b)

/-- Source, destination and barrier of a transfer are translated in this order (R328, R336). -/
def State.bindXfer (s : State) (x : Xfer) (bar : Nat) : Except State (State × Xfer) :=
  match s.bindSide x.ssp x.saddr (spanEnd x.spanS - x.saddr) permR with
  | .error t => .error t
  | .ok (s, src) =>
    match s.bindSide x.dsp x.daddr (spanEnd x.spanD - x.daddr) permW with
    | .error t => .error t
    | .ok (s, dst) =>
      match s.bindBarrier bar with
      | .error t => .error t
      | .ok (s, b) => .ok (s, { x with src := src, dst := dst, bar := b, hbm := src.isSome || dst.isSome })

/-- A transfer leaves for its cluster (R326, R335, R336): handle, window and place in the fold order. -/
def State.sendXfer (s : State) (x : Xfer) : State :=
  let c := s.here
  let x := { x with handle := c.ctx.handle.toNat }
  let s := s.onCluster (clusterOf s.cur) fun c => { c with xfers := c.xfers ++ [x] }
  let s := s.onHere fun c =>
    ({ c with xfers := c.xfers ++ [(c.inHandler, x.handle, x.id)] }).setCtx
      { c.ctx with handle := c.ctx.handle + 1, window := min (c.ctx.window + 1) 32768 }
  let s := { s with nextId := s.nextId + 1 }
  let s := s.takeSr x.converts
  if x.dst.isSome then s.foldPlace x.by_ x.id else s

/-- XFER on a record whose fields passed their own checks. [DEDUCED, log 50: unsafe] -/
def State.xferFormed (s : State) (d l : BitVec 5) (x : Xfer) (bar : Nat) : State :=
  let port := s.here.sPort d.toNat
  match x.formChecks s.bankFormats with
  | some (st, i) => (s.timed port 24 l.toNat (resultWord st i)).traceQ 0
  | none =>
    if 64 ≤ s.here.buffered then s.freezeFull
    else if 64 ≤ s.here.xfers.length then s.stall
    -- a reduction converts nothing: past its checks its destination has the source's format
    else match s.bindXfer { x with dfmt := if 2 ≤ x.op then x.sfmt else x.dfmt } bar with
      | .error t => t
      | .ok (t, y) =>
        let va := if x.ssp = 0 then x.saddr else if x.dsp = 0 then x.daddr else bar
        t.counted ([y.src, y.dst, y.bar].filterMap id) fun t =>
          ((t.sendXfer y).timedNow port 24 l.toNat (resultWord 0 t.here.ctx.handle.toNat)).traceQ va

/-- XFER (R319, R336): the record is read at issue. -/
def execXfer (d a l : BitVec 5) (s : State) : Host.Outcome State Fault Refusal :=
  let off := s.reg a
  .next (if !blockOffset off then s.misaligned off
    else if s.badAt s.cur false off.toNat 64 then s.fault 1 (padTval false off.toNat) 1
    else
      let dw := (chunksOf 8 (s.ownRead false off.toNat 64)).map bytesToNat
      let x := Xfer.parse dw s.issuer s.nextId s.jkey
      match x.fieldChecks dw with
      | some (st, i) => (s.timed (s.here.sPort d.toNat) 24 l.toNat (resultWord st i)).traceQ 0
      | none =>
        match s.sideForm x.ssp x.saddr x.sfmt x.tile, s.sideForm x.dsp x.daddr x.dfmt x.tile with
        | .error t, _ => t
        | _, .error t => t
        | .ok f, .ok g =>
          s.xferFormed d l { x with sfmt := f.1, sext := f.2, dfmt := g.1, dext := g.2 }
            (bits (dw.getD 5 0) 0 48))

/-- A handle's age: 0 the latest one issued; none outside the window (R335). -/
def Ctx.age (x : Ctx) (h : Nat) : Option Nat :=
  let n := (x.handle.toNat + 65535 - h % 65536) % 65536
  if n < x.window then some n else none

/-- Outstanding transfers of the executing context: handle and number. -/
def Core.ownXfers (c : Core) : List (Nat × Nat) := (c.xfers.filter fun o => o.1 == c.inHandler).map (·.2)

/-- The summary of XWAIT (R337). [DEDUCED, log 54: unsafe] -/
def Ctx.summary (x : Ctx) : Nat :=
  let f := x.sumFail.getD (0, 0, 0)
  2 ^ 56 * f.2.1 + 2 ^ 40 * f.2.2 + 2 ^ 24 * x.sumFlags.toNat + min x.sumDone (2 ^ 24 - 1)

/-- XWAIT (R337): the bundle waits for the transfers up to a handle, or for all of the window; then the summary lands with
the flags, and is cleared. -/
def execXwait (d a l : BitVec 5) (s : State) : Host.Outcome State Fault Refusal :=
  let v := s.reg a
  let c := s.here
  let x := c.ctx
  let limit : Option Nat := if flagOf v 63 then some 0 else x.age (fieldOf v 0 16)
  let waits := match limit with
    | none => false
    | some n => c.ownXfers.any fun o => match x.age o.1 with | some m => decide (n ≤ m) | none => false
  .next (if fieldOf v 16 47 ≠ 0 then s.misaligned v
    else if waits then (s.onHere fun c => { c with wdStart := s.time, wdHeld := false }).stall
    else if 64 ≤ c.buffered then s.freezeFull
    else
      (s.onHere fun c =>
        (c.send (c.sPort d.toNat) (c.timedLatency 24 l.toNat)
          { Landing.of x.summary with timed := true, flags := x.sumFlags, offer := x.sumOffer }).setCtx
          { x with sumFail := none, sumFlags := 0, sumOffer := none, sumDone := 0 }).traceQ 0)

/-- The state of a transfer as XSTAT reports it (R338). -/
def State.xferWord (s : State) (h : Nat) : Nat :=
  let c := s.here
  let x := c.ctx
  match x.age h with
  | none => 2 ^ 54
  | some _ =>
    match c.ownXfers.find? (fun o => o.1 == h) with
    | some o =>
      match (s.cluster (clusterOf s.cur)).xfer o.2 with
      | some y => 2 ^ 40 * y.flags.toNat + y.done % 2 ^ 32
      | none => 0
    | none =>
      match x.results.find? (fun r => r.1 == h) with
      | some r => 2 ^ 56 * r.2.1 + 2 ^ 55 + 2 ^ 40 * r.2.2.1 + r.2.2.2 % 2 ^ 32
      | none => 2 ^ 55 + 2 ^ 54

/-- XSTAT (R338). -/
def execXstat (d a l : BitVec 5) (s : State) : Host.Outcome State Fault Refusal :=
  let v := s.reg a
  .next (if 2 ^ 16 ≤ v.toNat then s.misaligned v
    else (s.timed (s.here.sPort d.toNat) 24 l.toNat (s.xferWord v.toNat)).traceQ 0)

/-- Transfers of the executing context are cancelled (R339). -/
def State.cancelXfers (s : State) (pick : Nat × Nat → Bool) : State :=
  let ids := (s.here.ownXfers.filter pick).map (·.2)
  (s.onCluster (clusterOf s.cur) fun c =>
    { c with xfers := c.xfers.map fun y => if ids.contains y.id then { y with cancelled := true } else y }).traceQ 0

/-- XCANCEL (R339). -/
def execXcancel (a : BitVec 5) (s : State) : Host.Outcome State Fault Refusal :=
  let v := s.reg a
  .next (if 2 ^ 16 ≤ v.toNat then s.misaligned v else s.cancelXfers fun o => o.1 == v.toNat)

/-- XCANCEL.ALL (R339). -/
def execXcancelAll (s : State) : Host.Outcome State Fault Refusal := .next (s.cancelXfers fun _ => true)

end Sys2Proof.Machine
end

