-- ==== Sys2Proof/Machine/Fabric.lean ====
section
/-! DEFINITION. The fabric (R421 to R437): ports and routing, remote operations from both ends, fabric barriers, and the
fabric words. What other packages do comes in as events. -/

namespace Sys2Proof.Machine

/-! Packages and ports (R421, R424, R425). -/

/-- Index of this package (R387). -/
def Hub.index (h : Hub) : Nat := fieldOf h.hid 0 16

/-- Packages of the pod. -/
def Fabric.size (f : Fabric) : Nat := f.ex * f.ey * f.ez

/-- Coordinates of a package (R6). -/
def Fabric.coords (f : Fabric) (p : Nat) : Nat × Nat × Nat := (p % f.ex, p / f.ex % f.ey, p / (f.ex * f.ey))

/-- Package at coordinates. -/
def Fabric.at_ (f : Fabric) (x y z : Nat) : Nat := x + f.ex * (y + f.ey * z)

/-- A port; in its reset state it is up, or unused along a dimension of extent 1. -/
def Fabric.port (f : Fabric) (n : Nat) : FabPort :=
  let e := match n / 4 with | 0 => f.ex | 1 => f.ey | _ => f.ez
  (Sparse.get? f.ports n).getD { state := if e = 1 then 3 else 0, retrains := 0, failures := [], replays := 0, run := 0, since := 0 }

/-- A port replaced. -/
def Fabric.setPort (f : Fabric) (n : Nat) (p : FabPort) : Fabric := { f with ports := Sparse.set f.ports n p }

/-- The neighbour that a port reaches (R421). -/
def Fabric.neighbour (f : Fabric) (own n : Nat) : Nat :=
  let c := f.coords own
  let step (a e : Nat) : Nat := if n / 2 % 2 = 0 then (a + 1) % e else (a + e - 1) % e
  match n / 4 with
  | 0 => f.at_ (step c.1 f.ex) c.2.1 c.2.2
  | 1 => f.at_ c.1 (step c.2.1 f.ey) c.2.2
  | _ => f.at_ c.1 c.2.1 (step c.2.2 f.ez)

/-- Direction in which a packet leaves: dimension order, the shorter way round, + on a tie (R424). -/
def Fabric.direction (f : Fabric) (own dst : Nat) : Option Nat :=
  let a := f.coords own
  let b := f.coords dst
  let dir (dim a b e : Nat) : Nat := let n := (b + e - a) % e; 2 * dim + (if n ≤ e - n then 0 else 1)
  if a.1 ≠ b.1 then some (dir 0 a.1 b.1 f.ex)
  else if a.2.1 ≠ b.2.1 then some (dir 1 a.2.1 b.2.1 f.ey)
  else if a.2.2 ≠ b.2.2 then some (dir 2 a.2.2 b.2.2 f.ez)
  else none

/-- A port that may carry packets, now or after its retraining. -/
def FabPort.usable (p : FabPort) : Bool := decide (p.state ≤ 1)

/-- The port that a packet takes (R424, R425): of a direction's two ports the one that the hash picks unless the other
one alone is up; the other way round the ring where both are down; none where both ways are cut.
[PRESUMED, log 74: unsafe] -/
def Fabric.route (f : Fabric) (own dst core cls : Nat) : Option Nat :=
  let bit := (hash64 (BitVec.ofNat 64 (2 ^ 15 * core + 2 ^ 4 * dst + cls))).toNat % 2
  let pick (d : Nat) : Option Nat :=
    let p := 2 * d + bit
    let q := 2 * d + (1 - bit)
    if (f.port p).state = 0 then some p
    else if (f.port q).state = 0 then some q
    else if (f.port p).usable then some p
    else if (f.port q).usable then some q
    else none
  match f.direction own dst with
  | none => none
  | some d => match pick d with
    | some p => some p
    | none => pick (if d % 2 = 0 then d + 1 else d - 1)

/-- One dimension of a packet's path can be travelled, one way round its ring or the other: by ports that are not down where the
packet leaves this package, and over packages that are alive (R424, R425). `at_` places a coordinate of the ring. -/
def Fabric.legFree (f : Fabric) (own dim a b e : Nat) (at_ : Nat → Nat) : Bool :=
  let hops (up : Bool) : Nat := if up then (b + e - a) % e else (a + e - b) % e
  let next (up : Bool) (n : Nat) : Nat := at_ (if up then (a + n + 1) % e else (a + e - (n + 1)) % e)
  let leaves (up : Bool) : Bool :=
    let d := 2 * dim + (if up then 0 else 1)
    at_ a != own || (f.port (2 * d)).usable || (f.port (2 * d + 1)).usable
  a == b || [true, false].any fun up => leaves up && (List.range (hops up)).all fun n => !f.dead.contains (next up n)

/-- A package can be reached along its path in dimension order (R425). [DEDUCED, log 75: unsafe] -/
def Fabric.reaches (f : Fabric) (own dst : Nat) : Bool :=
  let a := f.coords own
  let b := f.coords dst
  f.legFree own 0 a.1 b.1 f.ex (fun x => f.at_ x a.2.1 a.2.2) && f.legFree own 1 a.2.1 b.2.1 f.ey (fun y => f.at_ b.1 y a.2.2) &&
    f.legFree own 2 a.2.2 b.2.2 f.ez (fun z => f.at_ b.1 b.2.1 z)

/-- A destination can not be reached (R425). -/
def State.unreachable (s : State) (dst : Nat) : Bool := !s.fabric.reaches s.hub.index dst

/-- A port changes its state (R402, R425). -/
def State.portState (s : State) (n : Nat) (p : FabPort) : State :=
  (s.onFabric fun f => f.setPort n p).hubEvent 0x1A (n + 2 ^ 64 * p.state)

/-- FLIT_REPLAY (R422, R437): the port counts one more replay; the sixteenth one in a row of the same flit has it retrain (R425).
[DEDUCED, log 75: unsafe] -/
def execFlitReplay (replay : FlitReplay) (s : State) : Host.Outcome State Fault Refusal :=
  if 12 ≤ replay.port then .fault (.noSuchUnit replay.port)
  else
    let p := s.fabric.port replay.port
    let q := { p with replays := min (p.replays + 1) (2 ^ 32 - 1), run := if replay.again then p.run + 1 else 0 }
    .next (if 16 ≤ q.run ∧ p.state = 0 then
        s.portState replay.port { q with state := 1, retrains := p.retrains + 1, run := 0 }
      else s.onFabric fun f => f.setPort replay.port q)

/-- PORT_RETRAIN (R425): the port goes out of service to retrain. -/
def execPortRetrain (port : Nat) (s : State) : Host.Outcome State Fault Refusal :=
  if 12 ≤ port then .fault (.noSuchUnit port)
  else
    let p := s.fabric.port port
    .next (if p.state = 0 then s.portState port { p with state := 1, retrains := p.retrains + 1 } else s)

/-! Summaries and completion (R427, R429, R430). -/

/-- The first failure since the summary was last read is kept (R430). -/
def Ctx.fabricFailed (x : Ctx) (st op : Nat) (osn : W64) : Ctx :=
  { x with fabFail := some (x.fabFail.getD (st, op, fieldOf osn 0 16)) }

/-- A context of a core changed. -/
def State.onSide (s : State) (core : Nat) (handler : Bool) (f : Ctx → Ctx) : State :=
  s.onCore core fun c => if handler then { c with hand := f c.hand } else { c with main := f c.main }

/-- A failure of a fabric word of a context. -/
def State.fabricFail (s : State) (by_ : Issuer) (st op : Nat) : State :=
  s.onSide by_.core by_.handler fun x => x.fabricFailed st op by_.osn

/-- A decrement, or without a byte count a failure with cause 1, goes to a barrier and takes its binding along (R329,
R330). -/
def State.toBarrier (s : State) (by_ : Issuer) (source : Nat) (bar : Option Bound) (bytes : Option Nat) : State :=
  match bar with
  | none => s
  | some b =>
    let id := s.nextId
    (s.addOp by_ (.decrement b.object.1 b.object.2 bytes source (some b))).push (.barrierDecrement id)

/-- A remote operation in flight. -/
def Fabric.remote (f : Fabric) (id : Nat) : Option Remote := f.remotes.find? fun r => r.id == id

/-- A remote operation replaced. -/
def State.putRemote (s : State) (r : Remote) : State :=
  s.onFabric fun f => { f with remotes := f.remotes.map fun o => if o.id = r.id then r else o }

/-- Op numbers of the fabric words (R436). -/
def Op.fabricOp : Op → Nat
  | .fput _ _ _ _ _ _ _ _ _ _ _ _ => 0x10
  | .fget _ _ _ _ _ _ _ _ _ => 0x11
  | .cpost _ _ => 0x14
  | _ => 0x12

/-- Packets of a remote operation: 512 bytes each of a put or a message, one request of a get. -/
def Op.packets : Op → Nat
  | .fput _ _ _ _ _ _ _ len _ _ _ _ => (len + 511) / 512
  | _ => 1

/-- Every packet of the operation has left. -/
def Remote.sentAll (r : Remote) : Bool := decide (r.op.packets ≤ r.left)

/-- The last byte of the local side of a put has been read, and its binding released (R245). -/
def Remote.readAll (r : Remote) : Bool := (match r.op with | .fput _ _ _ _ _ _ _ _ _ _ _ _ => true | _ => false) && r.sentAll

/-- A remote operation completes with a status (R427, R429, R430): the barrier, the group's outstanding count, the binding
of the local side, the send unit and the summary. -/
def State.completeRemote (s : State) (r : Remote) (st : Nat) : State :=
  let st := if r.failed = 0 then st else r.failed
  let (len, group, l, bar) : Nat × W32 × Option Bound × Option Bound := match r.op with
    | .fput _ _ _ _ _ _ _ n g _ l b => (n, g, l, b)
    | .fget _ _ _ _ _ n g l b => (n, g, l, b)
    | _ => (0, 0, none, none)
  let s := s.onFabric fun f => { f with remotes := f.remotes.filter fun o => o.id != r.id }
  let s := s.onCore r.by_.core fun c =>
    { c with sends := c.sends.filter (· != r.id), fabOps := c.fabOps.filter fun o => o.2 != r.id }
  let l := if r.readAll then none else l
  let s := if group = 0 then s else s.onHub fun h => h.outstanding group false
  let s := if st = 0 then s else s.fabricFail r.by_ st r.op.fabricOp
  (s.toBarrier r.by_ r.id bar (if st = 0 then some len else none)).releaseAll r.by_.core [l]

/-! Reading and writing through a binding with what R406 and R410 say of poison. -/

/-- Bytes read through a range, block by block: of a poisoned block zeros in a tolerant range, otherwise the read fails.
`take` reads a run; `fuel` bounds the blocks. [DESIGN CHOICE, log 73: unsafe] -/
def State.consume (s : State) (b : Bound) (take : State → Nat → Nat → List Byte) : Nat → Nat → Nat →
    State × List Byte × Bool
  | 0, _, _ => (s, [], true)
  | fuel + 1, off, n =>
    if n = 0 then (s, [], true)
    else
      let k := min n (64 - (b.pa + off) % 64)
      let pa := s.redirect b off
      let bad := s.unreadable (s.keyNo b.key) pa k
      let t := s.noteAccess (s.keyNo b.key) pa k
      if bad && !b.perm.getLsbD 6 then (t, [], false)
      else
        let bytes := if bad then List.replicate k 0 else take t off k
        let t := if bad then t.onPlatform Platform.substituted else t
        let r := State.consume t b take fuel (off + k) (n - k)
        (r.1, bytes ++ r.2.1, r.2.2)

/-- Local bytes of an FPUT (R429). [DESIGN CHOICE, log 73: unsafe] -/
def State.localRead (s : State) (by_ : Issuer) (lsp laddr : Nat) (l : Option Bound) (off n : Nat) :
    State × List Byte × Bool :=
  match l with
  | some b => s.consume b (fun t o k => t.globalRead by_ b o k) (n / 64 + 2) off n
  | none => (s, s.agentRead by_.core (lsp == 2) (laddr + off) n, true)

/-- Local bytes of an FGET written: the status (R406, R429).
[DESIGN CHOICE, log 73: unsafe; DESIGN CHOICE, log 126: unsafe] -/
def State.localWrite (s : State) (by_ : Issuer) (lsp laddr : Nat) (l : Option Bound) (off : Nat) (bytes : List Byte) :
    State × Nat :=
  match l with
  | some b =>
    let r := s.globalWrite by_ b off bytes
    (match r.2 with
     | .refused => (r.1.noteRefused (r.1.redirect b off) bytes.length 2, 0x8D)
     | _ => (r.1, 0))
  | none => (s.agentWrite by_.core (lsp == 2) (laddr + off) bytes, 0)

/-! Sending (R423, R424, R429). -/

/-- The next SEQ of an outgoing stream is taken. -/
def State.takeSeq (s : State) (cls core pkg : Nat) : State × Nat :=
  let k := (cls, core, pkg)
  let seq := match s.fabric.seqs.find? (fun e => e.1 == k) with | some e => e.2 | none => 0
  (s.onFabric fun f => { f with seqs := (k, (seq + 1) % 2 ^ 29) :: f.seqs.filter fun e => e.1 != k }, seq)

/-- Class of a packet to a package. -/
def PacketKind.cls : PacketKind → Nat
  | .put => 0
  | .get => 1
  | .message => 4

/-- The header flit of a packet (R423). A packet leaves on the lower of its class's two virtual channels (R424), which take the
numbers 2 × CLASS and the one after; the layout of ARG is left open. [DESIGN CHOICE, log 77: safe] -/
def State.headerFlit (s : State) (dst cls : Nat) (group : W32) (rid addr : Nat) (user : W32) (seq bytes : Nat) : BitVec 256 :=
  let field (lo w v : Nat) : Nat := 2 ^ lo * (v % 2 ^ w)
  BitVec.ofNat 256 (field 245 11 dst + field 234 11 s.hub.index + field 230 4 cls + field 226 4 (2 * cls) +
    field 221 5 ((bytes + 31) / 32) + field 189 32 group.toNat + field 173 16 rid + field 125 48 addr +
    field 93 32 user.toNat + field 64 29 seq + fieldOf (Config.freeWord s.fresh seq (9700 + cls)) 0 64)

/-- A packet from a core, or from engine 640 for those of the package itself, leaves through its port (R423, R424). -/
def State.transmit (s : State) (dst core cls : Nat) (group : W32) (rid addr : Nat) (user : W32) (seq : Nat) (data : List Byte)
    (packet : Option Packet) : State :=
  s.onFabric fun f => { f with
    sent := { dst := dst, port := f.route s.hub.index dst core cls, cls := cls
              header := s.headerFlit dst cls group rid addr user seq data.length, data := data, time := s.time
              packet := packet } :: f.sent }

/-- A packet of a remote operation leaves. -/
def State.emit (s : State) (dst : Nat) (p : Packet) : State :=
  s.transmit dst p.core (PacketKind.cls p.kind) p.group p.rid p.addr p.user p.seq p.bytes (some p)

/-- A packet of the package's own engines leaves, with the next SEQ of its stream: a get response (2), an acknowledgement (3), part
of a collective (5), a barrier flit (6) or a notice (7). -/
def State.sendOwn (s : State) (dst cls : Nat) (group user : W32) (data : List Byte) : State :=
  let q := s.takeSeq cls 640 dst
  q.1.transmit dst 640 cls group 0 0 user q.2 data none

/-- The death notice leaves over every port in service (R425). -/
def State.sendNotice (s : State) : State :=
  let t := s.onFabric fun f => { f with told := true }
  let ports := (List.range 12).filter fun n => (s.fabric.port n).state == 0
  ports.foldl (fun t n => t.sendOwn (s.fabric.neighbour s.hub.index n) 7 0 0 []) t

/-- The notice is still to leave. -/
def State.noticeDue (s : State) : Bool := s.fabric.notice && !s.fabric.told

/-- Class of a remote operation's packets. -/
def Op.cls : Op → Nat
  | .fput _ _ _ qf _ _ _ _ _ _ _ _ => if qf then 4 else 0
  | _ => 1

/-- Package that a remote operation is addressed to. -/
def Op.package : Op → Nat
  | .fput _ _ pkg _ _ _ _ _ _ _ _ _ => pkg
  | .fget _ _ pkg _ _ _ _ _ _ => pkg
  | _ => 0

/-- What an FPUT reads next: its offset from the start of the local side and its length, at most up to the next 64-byte
boundary and the end of its packet. [DEDUCED, log 69: safe] -/
def Remote.piece (r : Remote) : Nat × Nat :=
  match r.op with
  | .fput _ laddr _ _ _ _ _ len _ _ l _ =>
    let off := 512 * r.left + r.buf.length
    let base := match l with | some b => b.pa | none => laddr
    (off, min (min (512 * (r.left + 1)) len - off) (64 - (base + off) % 64))
  | _ => (0, 0)

/-- The bytes of a get may be written at its local side (R101, R429). -/
def State.writesLocal (s : State) (op : Nat) : Bool :=
  match s.fabric.remote op with
  | some ⟨_, b, .fget _ _ _ _ _ len _ (some l) _, _, _, _, _, _, _⟩ => !s.writeHeld b l len
  | _ => true

/-- What a put reads next in global memory is held until the issuing strand's earlier writes have landed (R101, R429). -/
def State.holdsLocal (s : State) (r : Remote) : Bool :=
  match r.op with
  | .fput _ _ _ _ _ _ _ _ _ _ (some b) _ => s.readHeld r.by_ (b.pa + r.piece.1) r.piece.2
  | _ => false

/-- Two operations send in one stream (R424). -/
def Remote.sameStream (a b : Remote) : Bool :=
  a.op.cls == b.op.cls && a.by_.core == b.by_.core && a.op.package == b.op.package

/-- Packets of an operation's stream that have been sent and not been acknowledged (R424). -/
def State.unacked (s : State) (r : Remote) : Nat :=
  ((s.fabric.remotes.filter (·.sameStream r)).map fun o => o.left - o.acked).foldl (· + ·) 0

/-- An operation can read or send on: the operations before it in its stream have sent everything, and fewer than 256 packets of the
stream are unacknowledged (R424). [DEDUCED, log 69: safe] -/
def State.canSend (s : State) (r : Remote) : Bool :=
  !r.sentAll && r.failed == 0 && decide (s.unacked r < 256) && !s.unreachable r.op.package && !s.holdsLocal r &&
    s.fabric.remotes.all fun o => !(o.sameStream r && decide (o.id < r.id)) || o.sentAll

/-- Operations that can send on (R429). -/
def State.senders (s : State) : List Nat := (s.fabric.remotes.filter s.canSend).map (·.id)

/-- A packet of a remote operation leaves with the next SEQ of its stream; the last one of a put releases its local side (R245). -/
def State.sendPacket (s : State) (r : Remote) (rid addr len start red : Nat) (group user : W32) (bytes : List Byte) : State :=
  let sent := { r with left := r.left + 1, buf := [] }
  let s := if sent.readAll then s.releaseAll r.by_.core [match r.op with | .fput _ _ _ _ _ _ _ _ _ _ l _ => l | _ => none] else s
  let q := s.takeSeq r.op.cls r.by_.core r.op.package
  let kind : PacketKind := if r.op.cls = 0 then .put else if r.op.cls = 4 then .message else .get
  (q.1.emit r.op.package
    { kind := kind, source := s.hub.index, core := r.by_.core, op := r.id, seq := q.2, group := group, rid := rid, addr := addr
      len := len, start := start, red := red, user := user, bytes := bytes }).putRemote sent

/-- An operation takes its next step in sending (R429): a get sends its request; a put reads its next piece, and with the last
one of a packet sends the packet. A block that can not be read ends the put. [DEDUCED, log 69: safe] -/
def State.sendNext (s : State) (op : Nat) : State :=
  match s.fabric.remote op with
  | none => s
  | some r =>
    match r.op with
    | .fget _ _ _ rid roff len group _ _ => s.sendPacket r rid roff len roff 0 group 0 []
    | .fput lsp laddr _ qf rid roff red len group user l _ =>
      let d := s.localRead r.by_ lsp laddr l r.piece.1 r.piece.2
      let buf := r.buf ++ d.2.1
      let n := min 512 (len - 512 * r.left)
      if !d.2.2 then d.1.completeRemote r 0x8C
      else if buf.length < n then d.1.putRemote { r with buf := buf }
      else d.1.sendPacket r rid (if qf then roff else roff + 512 * r.left) len roff red group user buf
    | _ => s

/-- Operations whose destination can no longer be reached complete with status 0x88 (R425). -/
def State.cutOff (s : State) : State :=
  (s.fabric.remotes.filter fun r => s.unreachable r.op.package).foldl (fun t r => t.completeRemote r 0x88) s

/-- PORT_RETRAINING_END (R425): back in service, or a failed retraining; after three within a second the port is down,
before that it retrains again. [DEDUCED, log 75: unsafe] -/
def execPortRetrainingEnd (port : Nat) (ok : Bool) (s : State) : Host.Outcome State Fault Refusal :=
  if 12 ≤ port then .fault (.noSuchUnit port)
  else
    let p := s.fabric.port port
    .next (if p.state ≠ 1 then s
      else if ok then s.portState port { p with state := 0 }
      else
        let fs := s.time :: p.failures.filter fun t => decide (s.time ≤ t + 1000000000)
        if 3 ≤ fs.length then (s.portState port { p with state := 2, failures := fs, since := s.time }).cutOff
        else s.onFabric fun f => f.setPort port { p with failures := fs, retrains := p.retrains + 1 })

/-- The acknowledgement of a packet of a put, or of a whole message, has come (R424, R429): the operation completes with the last
one. What answers nothing that has been sent can not arrive. -/
def State.acknowledged (s : State) (r : Remote) : State :=
  let n := if r.op.cls = 4 then r.op.packets else 1
  if r.left < r.acked + n then s
  else if r.sentAll ∧ r.op.packets ≤ r.acked + n then s.completeRemote r 0
  else s.putRemote { r with acked := r.acked + n }

/-- FABRIC_COMPLETION (R429): an acknowledgement, or the last response of a get with its bytes. -/
def execFabricCompletion (op : Nat) (status : BitVec 8) (bytes : List (BitVec 8)) (s : State) :
    Host.Outcome State Fault Refusal :=
  match s.fabric.remote op with
  | none => .next s
  | some r =>
    if status ≠ 0 then .next (s.completeRemote r status.toNat)
    else match r.op with
    | .fget lsp laddr _ _ _ len _ l _ =>
      if r.got + bytes.length ≠ len then .next s
      else
        let w := s.localWrite r.by_ lsp laddr l r.got bytes
        .next (w.1.completeRemote r w.2)
    | _ => .next (s.acknowledged r)

/-- GET_RESPONSE_ARRIVAL (R429): bytes of a get that are not the last ones. [DESIGN CHOICE, log 77: safe] -/
def execGetResponseArrival (op : Nat) (bytes : List (BitVec 8)) (s : State) : Host.Outcome State Fault Refusal :=
  match s.fabric.remote op with
  | none => .next s
  | some r =>
    match r.op with
    | .fget lsp laddr _ _ _ len _ l _ =>
      if len ≤ r.got + bytes.length then .next s
      else
        let w := s.localWrite r.by_ lsp laddr l r.got bytes
        .next (w.1.putRemote { r with got := r.got + bytes.length, failed := if r.failed = 0 then w.2 else r.failed })
    | _ => .next s

/-- A packet of an operation is sent again; its fifth failure completes the operation (R423). -/
def State.resend (s : State) (r : Remote) (dst : Nat) (p : Packet) : State :=
  let n := (Sparse.get? r.tries p.seq).getD 0
  if 4 ≤ n then s.completeRemote r 0x88
  else (s.putRemote { r with tries := Sparse.set r.tries p.seq (n + 1) }).emit dst p

/-- The packets of an operation as they were last sent, with their destination and the time. -/
def lastSent (op : Nat) : List Sent → List (Nat × Nat × Packet)
  | [] => []
  | p :: ps =>
    match p.packet with
    | some k => if k.op = op then (p.dst, p.time, k) :: (lastSent op ps).filter fun q => q.2.2.seq != k.seq else lastSent op ps
    | none => lastSent op ps

/-- PACKET_TIMEOUT (R423): a packet that the operation sent 20 µs ago or more was discarded at its destination; which one is the
choice of the fabric. -/
def execPacketTimeout (op : Nat) (s : State) : Host.Outcome State Fault Refusal :=
  let due := (lastSent op s.fabric.sent).filter fun p => decide (p.2.1 + 20000 ≤ s.time)
  .next (match s.fabric.remote op, choose s.fresh 46000 due with
    | some r, some p => s.resend r p.1 p.2.2
    | _, _ => s)

/-! Packets from other packages (R424, R428). -/

/-- Issuer of what another package does here: no strand, and no handler of this package. -/
def State.stranger (s : State) : Issuer :=
  { core := 640, handler := true, lidx := 0, osn := 0, mode := 0, src := 0, pc := 0, dslot := 0, phase := 0
    launch := match s.hub.launch with | some l => l.ident | none => 0 }

/-- The phase can not be re-executed (R113). -/
def State.spoil (s : State) : State := s.onLaunch fun l => { l with marked := true }

/-- The packets of an answer: a get's bytes in packets of up to 512, anything else in one without data (R423). -/
def answerParts (bytes : List Byte) : List (List Byte) := if bytes.isEmpty then [[]] else chunksOf 512 bytes

/-- An answer goes back: get responses, or an acknowledgement (R423, R429). -/
def State.reply (s : State) (p : Packet) (st : Nat) (bytes : List Byte) : State :=
  (answerParts bytes).foldl (fun s part =>
    (s.onFabric fun f => { f with answers := f.answers ++ [(p.source, p.op, st, part)] }).sendOwn p.source
      (if p.kind = .get then 2 else 3) p.group 0 part) s

/-- A group handle carried by a packet is stale here (R39, R428). -/
def Hub.strangerGroup (h : Hub) (handle : W32) : Bool :=
  let g := h.group (handle.toNat % 65536)
  g.state == 0 || g.inc.toNat != fieldOf handle 16 8

/-- Checks 2 to 6 of R428 on an access of some bytes: the binding, or the status. -/
def State.strangerBind (s : State) (rid off n : Nat) (write : Bool) : Except Nat Bound :=
  match s.hub.dir.flatMap (·.2) |>.find? (fun d => d.rid == rid) with
  | none => .error 0x81
  | some d =>
    let va := d.vbase + off
    if d.vlimit < va + n then .error 0x82
    else if d.perm.getLsbD 3 || !(d.perm.getLsbD (if write then 1 else 0)) then .error 0x83
    else if write && d.perm.getLsbD 5 then .error 0x84
    else if va < d.rbase ∨ d.rlimit < va + n then .error 0x85
    else .ok (d.bind va)

/-- The binding of a put packet's bytes: the checks are made on the whole put, so that one that fails writes nothing (R428). -/
def State.putBind (s : State) (p : Packet) : Except Nat Bound :=
  match s.strangerBind p.rid p.start p.len true with
  | .error st => .error st
  | .ok _ => s.strangerBind p.rid p.addr p.bytes.length true

/-- A put packet is applied (R428, R429): its status. [DESIGN CHOICE, log 126: unsafe] -/
def State.applyPut (s : State) (p : Packet) : State × Nat :=
  match s.putBind p with
  | .error st => (s, st)
  | .ok b =>
    let by_ := s.stranger
    let r := if p.red = 0 then s.globalWrite by_ b 0 p.bytes
      else (chunksOf 8 p.bytes).zipIdx.foldl (fun acc d =>
        let r := acc.1.globalReduce by_ b (8 * d.2) p.red (BitVec.ofNat 64 (bytesToNat d.1))
        (r.1, acc.2.worse r.2)) (s, .ok)
    match r.2 with
    | .refused => ((r.1.noteRefused (r.1.redirect b 0) p.bytes.length 2).spoil, 0x8D)
    | _ => (r.1.spoil, 0)

/-- A get request is served with committed values of versioned ranges and memory's of others (R429): its status and
bytes. [DESIGN CHOICE, log 126: unsafe] -/
def State.applyGet (s : State) (p : Packet) : State × Nat × List Byte :=
  match s.strangerBind p.rid p.addr p.len false with
  | .error st => (s, st, [])
  | .ok b =>
    let r := s.consume b (fun t o k => (List.range k).map fun i => t.boundByte b (o + i)) (p.len / 64 + 2) 0 p.len
    if r.2.2 then (r.1, 0, r.2.1) else (r.1, 0x8C, [])

/-- A queue message is delivered (R305, R306, R429): its status; one that the NoC loses is refused (R316). -/
def State.applyMessage (s : State) (p : Packet) : State × Nat :=
  if s.fabric.lost.contains (bits p.addr 0 10) then
    (s.onFabric fun f => { f with lost := f.lost.erase (bits p.addr 0 10) }, 0x86)
  else
  let first := natToBytes 8 (messageHeader p.user p.core 3 (p.addr.testBit 13) (p.bytes.length / 64 + 1)) ++
    natToBytes 8 p.source ++ List.replicate 48 0
  let r := s.deliverTo (bits p.addr 0 10) (bits p.addr 10 3) (first :: chunksOf 64 p.bytes) true
  match r.2 with
  | .refused => (s, 0x86)
  | _ => (r.1.spoil, 0)

/-- Stream of an arriving packet (R424). -/
def streamOf (p : Packet) : Nat × Nat × Nat := (PacketKind.cls p.kind, p.core, p.source)

/-- What has arrived of the message of a stream (R423, R424). -/
def Fabric.soFar (f : Fabric) (k : Nat × Nat × Nat) : List Byte :=
  match f.parts.find? (fun e => e.1 == k) with | some e => e.2 | none => []

/-- A packet is checked and applied, and answered; a message once all of its packets have arrived (R428, R429).
[DEDUCED, log 69: safe] -/
def State.applyPacket (s : State) (p : Packet) : State :=
  let k := streamOf p
  let bytes := if p.kind = .message then s.fabric.soFar k ++ p.bytes else p.bytes
  let others := s.fabric.parts.filter fun e => e.1 != k
  if p.kind = .message ∧ bytes.length < p.len then s.onFabric fun f => { f with parts := (k, bytes) :: others }
  else if p.group ≠ 0 ∧ s.hub.strangerGroup p.group then (s.onFabric fun f => { f with parts := others }).reply p 0x87 []
  else match p.kind with
    | .put => let r := s.applyPut p; r.1.reply p r.2 []
    | .get => let r := s.applyGet p; r.1.reply p r.2.1 r.2.2
    | .message =>
      let r := (s.onFabric fun f => { f with parts := others }).applyMessage { p with bytes := bytes }
      r.1.reply p r.2 []

/-- SEQ expected next of a stream. -/
def Fabric.expected (f : Fabric) (k : Nat × Nat × Nat) : Nat :=
  match f.expect.find? (fun e => e.1 == k) with | some e => e.2 | none => 0

/-- A packet reads a descriptor that an update has locked: it waits for the update (R248). -/
def State.awaitsUpdate (s : State) (p : Packet) : Bool := p.kind != .message && s.lockedRid p.rid

/-- Packets that arrived early are applied once they are next; `fuel` bounds them. -/
def State.drainStream (s : State) (k : Nat × Nat × Nat) : Nat → State
  | 0 => s
  | fuel + 1 =>
    let next := s.fabric.expected k
    match s.fabric.early.find? (fun p => streamOf p == k && p.seq == next) with
    | none => s
    | some p =>
      if s.awaitsUpdate p then s
      else
        let t := s.onFabric fun f => { f with
          early := f.early.filter (· != p), expect := (k, (next + 1) % 2 ^ 29) :: f.expect.filter fun e => e.1 != k }
        State.drainStream (t.applyPacket p) k fuel

/-- Packets that an update of their range held back, and that no update locks any more, are applied (R248). -/
def State.resumePackets (s : State) : State :=
  (s.fabric.early.map streamOf).eraseDups.foldl (fun t k => t.drainStream k (t.fabric.early.length + 1)) s

/-- Some packet that was held back can be applied. -/
def State.packetsDue (s : State) : Bool :=
  s.fabric.early.any fun p => p.seq == s.fabric.expected (streamOf p) && !s.awaitsUpdate p

/-- PACKET_ARRIVAL (R424, R428): packets of a stream are applied in the order of their SEQ; one that has been applied
before is discarded. [DESIGN CHOICE, log 77: safe] -/
def execPacketArrival (packet : Packet) (s : State) : Host.Outcome State Fault Refusal :=
  let k := streamOf packet
  let ahead := (packet.seq + 2 ^ 29 - s.fabric.expected k) % 2 ^ 29
  .next (if 2 ^ 28 ≤ ahead ∨ s.fabric.early.contains packet then s
    else
      let t := s.onFabric fun f => { f with early := f.early ++ [packet] }
      t.drainStream k (t.fabric.early.length + 1))

/-! Fabric barriers (R431 to R435). -/

/-- A package's coordinates in a box, if it lies in it (R431). [DEDUCED, log 75: unsafe] -/
def Fabric.boxCoords (f : Fabric) (box : BitVec 25) (p : Nat) : Option (Nat × Nat × Nat) :=
  let c := f.coords p
  let rel (a o e : Nat) : Nat := (a + e - o % e) % e
  let x := rel c.1 (fieldOf box 0 3) f.ex
  let y := rel c.2.1 (fieldOf box 3 4) f.ey
  let z := rel c.2.2 (fieldOf box 7 4) f.ez
  if x ≤ fieldOf box 11 4 ∧ y ≤ fieldOf box 15 5 ∧ z ≤ fieldOf box 20 5 then some (x, y, z) else none

/-- A box fits the pod and holds a package. -/
def Fabric.boxFits (f : Fabric) (box : BitVec 25) (own : Nat) : Bool :=
  decide (fieldOf box 11 4 < f.ex) && decide (fieldOf box 15 5 < f.ey) && decide (fieldOf box 20 5 < f.ez) &&
    (f.boxCoords box own).isSome

/-- The box of the whole pod. -/
def Fabric.wholeBox (f : Fabric) : BitVec 25 :=
  BitVec.ofNat 25 (2 ^ 11 * (f.ex - 1) + 2 ^ 15 * (f.ey - 1) + 2 ^ 20 * (f.ez - 1))

/-- Box coordinates of a package's parent in the tree of a box; none at the root (R433). -/
def treeParent (box : BitVec 25) (c : Nat × Nat × Nat) : Option (Nat × Nat × Nat) :=
  let hx := (fieldOf box 11 4 + 1) / 2
  let hy := (fieldOf box 15 5 + 1) / 2
  let hz := (fieldOf box 20 5 + 1) / 2
  let toward (a h : Nat) : Nat := if a < h then a + 1 else a - 1
  if c.1 ≠ hx then some (toward c.1 hx, c.2.1, c.2.2)
  else if c.2.1 ≠ hy then some (hx, toward c.2.1 hy, c.2.2)
  else if c.2.2 ≠ hz then some (hx, hy, toward c.2.2 hz)
  else none

/-- Packages of a box. -/
def Fabric.inBox (f : Fabric) (box : BitVec 25) : List Nat :=
  (List.range f.size).filter fun p => (f.boxCoords box p).isSome

/-- Children of a package in the tree of a box. -/
def Fabric.treeChildren (f : Fabric) (box : BitVec 25) (own : Nat) : List Nat :=
  match f.boxCoords box own with
  | none => []
  | some me => (f.inBox box).filter fun p => match f.boxCoords box p with
    | some c => treeParent box c == some me
    | none => false

/-- The package is the root of a box. -/
def Fabric.isRoot (f : Fabric) (box : BitVec 25) (own : Nat) : Bool :=
  match f.boxCoords box own with | some c => (treeParent box c).isNone | none => false

/-- The package at coordinates of a box (R431). -/
def Fabric.boxPackage (f : Fabric) (box : BitVec 25) (c : Nat × Nat × Nat) : Nat :=
  f.at_ ((c.1 + fieldOf box 0 3) % f.ex) ((c.2.1 + fieldOf box 3 4) % f.ey) ((c.2.2 + fieldOf box 7 4) % f.ez)

/-- The package to which a package of a box sends its arrivals; none for the root (R433). -/
def Fabric.treeUp (f : Fabric) (box : BitVec 25) (own : Nat) : Option Nat :=
  ((f.boxCoords box own).bind (treeParent box)).map (f.boxPackage box)

/-- Number by which flits name an entry: GEN, INC and GID (R434). -/
def FabEntry.key (e : FabEntry) : Nat := 2 ^ 24 * e.gen + 2 ^ 16 * e.inc.toNat + e.gid

/-- An entry by its GID. -/
def Fabric.entry (f : Fabric) (gid : Nat) (pod : Bool) : Option FabEntry :=
  f.entries.find? fun e => e.gid == gid && e.pod == pod

/-- An entry replaced, or put in. -/
def Fabric.setEntry (f : Fabric) (e : FabEntry) : Fabric :=
  { f with entries := f.entries.filter (fun o => o.gid != e.gid || o.pod != e.pod) ++ [e] }

/-- An entry without a round. [DEDUCED, log 71: unsafe] -/
def FabEntry.fresh (gid : Nat) (inc : BitVec 8) (pod : Bool) : FabEntry :=
  { gid := gid, inc := inc, gen := 0, isOpen := false, box := 0, need := 0, recs := [], nextRecs := [], children := []
    sentUp := false, since := 0, pod := pod, join := false }

/-- The entry is active: it holds an open round, or arrivals for the next one. [DEDUCED, log 71: unsafe] -/
def FabEntry.active (e : FabEntry) : Bool := e.isOpen || !e.children.isEmpty

/-- All 1,024 active entries of the hub are taken (R432). -/
def Fabric.entriesFull (f : Fabric) : Bool := decide (1024 ≤ (f.entries.filter (·.active)).length)

/-- The package's own arrival is complete. -/
def FabEntry.complete (e : FabEntry) : Bool := e.isOpen && !e.join && (e.pod || decide (e.recs.length = e.need))

/-- The handle that flits of an entry carry (R434). -/
def FabEntry.handle (e : FabEntry) : W32 := BitVec.ofNat 32 (2 ^ 16 * e.inc.toNat + e.gid)

/-- A flit of a round goes to a package, with GID, INC and GEN (R424, R434). -/
def State.sendFlit (s : State) (e : FabEntry) (dst : Nat) : State := s.sendOwn dst 6 e.handle (BitVec.ofNat 32 e.gen) []

/-- Flits of a round go to several packages. -/
def State.sendFlits (s : State) (e : FabEntry) (dsts : List Nat) : State := dsts.foldl (fun s p => s.sendFlit e p) s

/-- An arrival moves up the tree once the package and its children have arrived; at the root the round completes (R433). -/
def State.climb (s : State) (e : FabEntry) : State :=
  let own := s.hub.index
  let kids := s.fabric.treeChildren e.box own
  if e.complete && !e.sentUp && kids.all e.children.contains then
    let t := s.onFabric fun f => f.setEntry { e with sentUp := true }
    match s.fabric.treeUp e.box own with
    | none => t.push (.fabricBarrierRelease e.key)
    | some up => t.sendFlit e up
  else s.onFabric fun f => f.setEntry e

/-- A recorded FBAR no longer counts as outstanding (R430). -/
def State.endFbar (s : State) (r : FbarRec) : State :=
  s.onCore r.by_.core fun c => { c with fabOps := c.fabOps.filter fun o => o.2 != r.id }

/-- A recorded FBAR fails with a status: its object with cause 1, and the summary of its context (R432, R434). -/
def State.failFbar (s : State) (r : FbarRec) (st : Nat) : State :=
  ((s.endFbar r).fabricFail r.by_ st 0x12).toBarrier r.by_ r.id r.obj none

/-- A round ends: the group's outstanding count falls (R432). -/
def State.endRound (s : State) (e : FabEntry) : State :=
  if e.isOpen && !e.pod then s.onHub fun h => h.outstanding (BitVec.ofNat 32 (2 ^ 16 * e.inc.toNat + e.gid)) false else s

/-- An FBAR joins the round of its entry, or opens one (R432). [DEDUCED, log 70: unsafe] -/
def State.joinRound (s : State) (e : FabEntry) (r : FbarRec) : State :=
  let handle : W32 := BitVec.ofNat 32 (2 ^ 16 * e.inc.toNat + e.gid)
  let s := if e.isOpen then s else s.onHub fun h => h.outstanding handle true
  let e := if e.isOpen then e
    else { e with isOpen := true, box := r.box, need := (s.hub.group e.gid).memb, since := s.time, sentUp := false }
  if !e.join ∧ e.recs.length < e.need then s.climb { e with recs := e.recs ++ [r] }
  else s.climb { e with nextRecs := e.nextRecs ++ [r] }

/-- FBARs that a round held join the next one. [DEDUCED, log 71: unsafe] -/
def State.joinHeld (s : State) (gid : Nat) (rs : List FbarRec) : State :=
  rs.foldl (fun s r => match s.fabric.entry gid false with | some e => s.joinRound e r | none => s) s

/-- The entry without a round, its generation as given. -/
def FabEntry.closed (e : FabEntry) (gen : Nat) : FabEntry :=
  { e with isOpen := false, gen := gen, recs := [], nextRecs := [], children := [], sentUp := false, need := 0, join := false }

/-- Recorded FBARs in ascending logical index. -/
def byFbarIndex (rs : List FbarRec) : List FbarRec :=
  let ins (l : List FbarRec) (r : FbarRec) : List FbarRec :=
    l.takeWhile (fun o => decide (o.by_.lidx ≤ r.by_.lidx)) ++ r :: l.dropWhile (fun o => decide (o.by_.lidx ≤ r.by_.lidx))
  rs.foldl ins []

/-- A round is broken (R434); a broken round of the phase controller fails the launch (R435). [DEDUCED, log 71: unsafe] -/
def State.breakRound (s : State) (e : FabEntry) : State :=
  if !e.isOpen then s
  else
    let t := (s.endRound e).onFabric fun f => f.setEntry (e.closed e.gen)
    if e.pod then t.failLaunch 0x08 0 [0, 0, 0, 0]
    else ((byFbarIndex e.recs).foldl (fun t r => t.failFbar r 0x8A) t).joinHeld e.gid e.nextRecs

/-- The package breaks a round, and tells the other packages of its box (R434). -/
def State.breakHere (s : State) (e : FabEntry) : State :=
  let others := (s.fabric.inBox e.box).filter fun p => p != s.hub.index && !s.fabric.dead.contains p
  if e.isOpen then (s.sendFlits e others).breakRound e else s

/-- The entry that a flit's number names. -/
def Fabric.entryByKey (f : Fabric) (key : Nat) : Option FabEntry := f.entries.find? fun e => e.key == key

/-- FABRIC_BARRIER_ARRIVAL (R433, R434): an arrival of a child; before the package's own first FBAR it opens the entry.
A flit of another incarnation or generation is discarded. -/
def execFabricBarrierArrival (entry child : Nat) (s : State) : Host.Outcome State Fault Refusal :=
  let gid := entry % 65536
  .next (match s.fabric.entryByKey entry with
    | some e => if e.children.contains child then s else s.climb { e with children := e.children ++ [child] }
    | none =>
      if (s.fabric.entry gid false).isSome ∨ 2 ^ 24 ≤ entry ∨ s.fabric.entriesFull then s
      else s.onFabric fun f => f.setEntry
        { FabEntry.fresh gid (BitVec.ofNat 8 (entry / 65536)) false with children := [child] })

/-- FABRIC_BARRIER_RELEASE (R432, R435): the release goes on to the children, GEN advances, each recorded object receives one arrival in ascending logical
index, and the next round starts with the FBARs that were held. -/
def execFabricBarrierRelease (entry : Nat) (s : State) : Host.Outcome State Fault Refusal :=
  match s.fabric.entryByKey entry with
  | none => .next s
  | some e =>
    if !e.isOpen || !e.sentUp then .next s
    else
      let t := s.sendFlits e (s.fabric.treeChildren e.box s.hub.index)
      let t := (t.endRound e).onFabric fun f => f.setEntry (e.closed ((e.gen + 1) % 65536))
      if e.pod then .next (t.onLaunch fun l => { l with podDone := true })
      else
        .next (((byFbarIndex e.recs).foldl (fun t r =>
          let t := t.endFbar r
          match r.obj with
          | none => t
          | some b =>
            let id := t.nextId
            (t.addOp r.by_ (.fabricArrive b.object.1 b.object.2 (some b))).push (.syncOperation r.by_.core id)) t).joinHeld
          e.gid e.nextRecs)

/-- A round has stayed open longer than the launch's wait limit, or a package of its box is dead (R434). -/
def State.breaks (s : State) (e : FabEntry) : Bool :=
  e.isOpen && !e.join &&
    ((match s.hub.launch with
      | some l => decide (1000 * l.wlim < s.time - e.since)
      | none => false) ||
    s.fabric.dead.any fun p => (s.fabric.boxCoords e.box p).isSome)

/-- ROUND_BREAK (R434): here, where the round has stayed open too long or a package of its box is dead, or elsewhere, at another
package that has told this one. -/
def execRoundBreak (round : BrokenRound) (s : State) : Host.Outcome State Fault Refusal :=
  .next (match s.fabric.entryByKey round.entry with
    | some e => if round.elsewhere then (if e.join then s else s.breakRound e) else if s.breaks e then s.breakHere e else s
    | none => s)

/-- All ports of the package have been down for 20 µs (R425). -/
def State.cutFromPod (s : State) : Bool :=
  let ports := ((List.range 12).map s.fabric.port).filter fun p => p.state != 3
  s.fabric.ports.any (fun p => p.2.state == 2) && !ports.isEmpty && ports.all fun p => p.state == 2 && decide (p.since + 20000 ≤ s.time)

/-- PACKAGE_DEATH (R425): the death of another package, or of this one once all its ports have been down for 20 µs, is recorded;
operations to the package, or through it alone, complete with status 0x88, and rounds whose box holds it break (R434).
[DEDUCED, log 75: unsafe; DESIGN CHOICE, log 77: safe] -/
def execPackageDeath (package : Nat) (s : State) : Host.Outcome State Fault Refusal :=
  if s.fabric.size ≤ package then .fault (.noSuchUnit package)
  else if s.fabric.dead.contains package ∨ (package = s.hub.index ∧ !s.cutFromPod) then .next s
  else
    let t := (s.onFabric fun f => { f with dead := f.dead ++ [package] }).hubEvent 0x19 package
    let t := t.cutOff
    .next ((t.fabric.entries.filter t.breaks).foldl (fun t e => t.breakRound e) t)

/-! The words (R426, R427, R436, R437). -/

/-- The eight doublewords of a fabric record. -/
structure FabRecord where
  /-- LSP. -/
  lsp : Nat
  /-- LADDR. -/
  laddr : Nat
  /-- PKG. -/
  pkg : Nat
  /-- QF. -/
  qf : Bool
  /-- RID. -/
  rid : Nat
  /-- ROFF. -/
  roff : Nat
  /-- OP. -/
  op : Nat
  /-- LEN. -/
  len : Nat
  /-- BAR. -/
  bar : Nat
  /-- GROUP. -/
  group : W32
  /-- USER. -/
  user : W32
  /-- A reserved field is not zero. -/
  reserved : Bool
  deriving DecidableEq, Repr

/-- A record as it stands in the scratchpad (R426). [DEDUCED, log 72: unsafe] -/
def FabRecord.parse (bs : List Byte) : FabRecord :=
  let d (i : Nat) : Nat := bytesToNat ((bs.drop (8 * i)).take 8)
  { lsp := bits (d 0) 62 2, laddr := bits (d 0) 0 48, pkg := bits (d 1) 53 11, qf := (d 1).testBit 52
    rid := bits (d 1) 0 16, roff := bits (d 2) 0 48, op := bits (d 3) 32 3, len := bits (d 3) 0 32
    bar := bits (d 4) 0 48, group := BitVec.ofNat 32 (d 5), user := BitVec.ofNat 32 (d 6)
    reserved := [bits (d 0) 48 14, bits (d 1) 16 36, bits (d 2) 48 16, bits (d 3) 35 29, bits (d 4) 48 16,
      bits (d 5) 32 32, bits (d 6) 32 32, d 7].any (· != 0) }

/-- A record is malformed (R6, R427). -/
def State.malformed (s : State) (r : FabRecord) (get : Bool) : Bool :=
  r.reserved || r.lsp == 3 || decide (s.fabric.size ≤ r.pkg) || r.pkg == s.hub.index ||
    (if r.qf && !get then
      r.op != 0 || r.len % 64 != 0 || decide (r.len < 64) || decide (8192 < r.len) || r.laddr % 64 != 0 || r.rid != 0 ||
        decide (639 < r.roff % 1024)
    else
      r.qf || r.len == 0 || decide (2 ^ 24 < r.len) || r.len % 8 != 0 || r.laddr % 8 != 0 || r.roff % 8 != 0 ||
        decide (2 < r.op)) ||
    (get && r.op != 0) ||
    (r.lsp != 0 && decide (spaceSize r.lsp < r.laddr + r.len))

/-- The operation that a record asks for. -/
def FabRecord.toOp (r : FabRecord) (get : Bool) (l bar : Option Bound) : Op :=
  if get then .fget r.lsp r.laddr r.pkg r.rid r.roff r.len r.group l bar
  else .fput r.lsp r.laddr r.pkg r.qf r.rid r.roff r.op r.len r.group r.user l bar

/-- An operation with its local side and barrier bound reaches the hub, and joins its stream (R427, R429). -/
def State.sendRemote (s : State) (r : FabRecord) (get : Bool) (l bar : Option Bound) : State :=
  let by_ := s.issuer
  let id := s.nextId
  let op := r.toOp get l bar
  let s := { s with nextId := id + 1 }
  if r.group ≠ 0 ∧ s.hub.checkGroup (r.group.setWidth 64) ≠ 0 then
    (((s.fabricFail by_ 0x87 op.fabricOp).toBarrier by_ id bar none).releaseAll by_.core [l]).spoil
  else
    let s := if r.group = 0 then s else s.onHub fun h => h.outstanding r.group true
    let m : Remote :=
      { id := id, by_ := by_, op := op, left := 0, acked := 0, buf := [], tries := [], got := 0, failed := 0 }
    let t := ((s.onFabric fun f => { f with remotes := f.remotes ++ [m] }).onHere fun c =>
      { c with sends := c.sends ++ [id], fabOps := c.fabOps ++ [(c.inHandler, id)] }).spoil
    if t.unreachable r.pkg then t.push (.fabricCompletion id 0x88 []) else t

/-- FPUT and FGET (R426 to R429). R246 lists the local destination of an FGET as a read side, and R429 has it written alone: the model
asks W of it. [DEDUCED, log 135: unsafe] -/
def State.fabricWord (s : State) (a : BitVec 5) (get : Bool) : State :=
  let off := s.reg a
  if !blockOffset off then s.misaligned off
  else if s.badAt s.cur false off.toNat 64 then s.fault 1 (padTval false off.toNat) 1
  else if 16 ≤ s.here.sends.length then s.stall
  else
    let r := FabRecord.parse (s.ownRead false off.toNat 64)
    if s.malformed r get then ((s.fabricFail s.issuer 0x80 (if get then 0x11 else 0x10)).spoil).traceQ 0
    else match s.bindSide r.lsp r.laddr r.len (if get then permW else permR) with
      | .error t => t
      | .ok (t, l) =>
        if get && (match l with | some b => b.versioned | none => false) then t.fault 7 (BitVec.ofNat 64 r.laddr) 0
        else match t.bindBarrier r.bar with
          | .error t => t
          | .ok (t, bar) =>
            t.counted ([l, bar].filterMap id) fun t =>
              (t.sendRemote r get l bar).traceQ (if r.lsp = 0 then r.laddr else r.bar)

/-- FPUT (R429). -/
def execFput (a : BitVec 5) (s : State) : Host.Outcome State Fault Refusal := .next (s.fabricWord a false)

/-- FGET (R429). -/
def execFget (a : BitVec 5) (s : State) : Host.Outcome State Fault Refusal := .next (s.fabricWord a true)

/-- An FBAR at the hub (R432). [DEDUCED, log 70: unsafe] -/
def State.fbarArrives (s : State) (handle : W32) (r : FbarRec) : State :=
  let gid := handle.toNat % 65536
  let old := s.fabric.entry gid false
  if !(old.any (·.active)) ∧ s.fabric.entriesFull then s.failFbar r 0x89
  else if s.hub.checkGroup (handle.setWidth 64) ≠ 0 then s.failFbar r 0x87
  else
    let inc := BitVec.ofNat 8 (fieldOf handle 16 8)
    let e := match old with
      | some e => if e.inc = inc then e else FabEntry.fresh gid inc false
      | none => FabEntry.fresh gid inc false
    if e.isOpen && !e.join && e.box != r.box then (s.breakHere e).failFbar r 0x8A
    else s.joinRound e r

/-- The local object of an FBAR is translated (R351, R431). -/
def State.bindLocal (s : State) (v : W64) : Except State (State × Option Bound) :=
  if v = 0 then .ok (s, none)
  else match s.translate v.toNat 64 permS false with
    | .stop t => .error t
    | .ok t b => .ok (t, some b)

/-- An operation leaves the send unit, which has its acknowledgement (R307, R436). -/
def State.leaveSends (s : State) (core op : Nat) : State :=
  (s.dropOp op).onCore core fun c => { c with sends := c.sends.filter (· != op) }

/-- The hub arbiter takes an FBAR (R432). [DEDUCED, log 70: unsafe] -/
def State.serveFbar (s : State) (op : Nat) : State :=
  match s.findOp op with
  | some ⟨_, b, .fbar handle box obj⟩ =>
    (s.leaveSends b.core op).fbarArrives handle { by_ := b, id := op, box := box, obj := obj }
  | _ => s

/-- FBAR (R431, R432). -/
def execFbar (d a b : BitVec 5) (s : State) : Host.Outcome State Fault Refusal :=
  let handle := s.reg a
  let box : BitVec 25 := (s.reg d).setWidth 25
  let v := s.reg b
  .next (match s.bindLocal v with
    | .error t => t
    | .ok (t, obj) =>
      if 2 ^ 24 ≤ handle.toNat ∨ handle.toNat % 65536 = 0 then t.misaligned handle
      else if !t.fabric.boxFits box t.hub.index then t.misaligned (s.reg d)
      else if v.toNat % 64 ≠ 0 then t.misaligned v
      else if 16 ≤ t.here.sends.length then t.stall
      else t.counted (obj.toList) fun t =>
        ((t.addOp t.issuer (.fbar (handle.setWidth 32) box obj)).onHere fun c =>
          { c with sends := c.sends ++ [t.nextId], fabOps := c.fabOps ++ [(c.inHandler, t.nextId)] }).traceQ v.toNat)

/-- Summary word of a context (R430, R437). -/
def Core.fabricWord (c : Core) : Nat :=
  let outs := (c.fabOps.filter fun o => o.1 == c.inHandler).length
  match c.ctx.fabFail with
  | none => 2 ^ 16 * min outs 65535
  | some f => 2 ^ 56 * f.1 + 2 ^ 50 * f.2.1 + 2 ^ 16 * min outs 65535 + f.2.2

/-- Word of a port (R437). -/
def State.portWord (s : State) (n : Nat) : Nat :=
  let p := s.fabric.port n
  2 ^ 52 * p.state + 2 ^ 40 * s.fabric.neighbour s.hub.index n + 2 ^ 32 * min p.retrains 255 + min p.replays (2 ^ 32 - 1)

/-- Word of the pod (R437). [DEDUCED, log 76: unsafe] -/
def State.podWord (s : State) (handle : W64) : Nat :=
  let f := s.fabric
  let gen := match f.entry (handle.toNat % 65536) false with
    | some e => if e.inc.toNat = fieldOf handle 16 8 then e.gen else 0
    | none => 0
  2 ^ 40 * s.hub.index + 2 ^ 37 * (f.ex - 1) + 2 ^ 32 * (f.ey - 1) + 2 ^ 27 * (f.ez - 1) + 2 ^ 16 * min f.dead.length 2047 +
    gen

/-- FSTAT (R437). -/
def execFstat (d a l : BitVec 5) (s : State) : Host.Outcome State Fault Refusal :=
  let v := s.reg a
  let c := s.here
  let port := c.sPort d.toNat
  .next (if 2 ^ 8 ≤ v.toNat then s.misaligned v
    else if 64 ≤ c.buffered then s.freezeFull
    else match fieldOf v 0 4 with
      | 0 => ((s.onHere fun c => c.setCtx { c.ctx with fabFail := none }).timedNow port 24 l.toNat c.fabricWord).traceQ 0
      | 1 => (s.timedNow port 24 l.toNat
          (if 12 ≤ fieldOf v 4 4 then 2 ^ 56 * 0x8F else s.portWord (fieldOf v 4 4))).traceQ 0
      | 2 => (s.timedNow port 24 l.toNat (s.podWord v)).traceQ 0
      | _ => (s.timedNow port 24 l.toNat (2 ^ 56 * 0x8F)).traceQ 0)

/-- Bytes of an entry image that lie in the scratchpad: all 256, or up to its end. -/
def imageBytes (offset : Nat) : Nat := min 256 (8388608 - offset)

/-- The entry that a CPOST posts; what would lie beyond the end of the scratchpad is left open. [DEDUCED, log 76: unsafe] -/
def State.postedEntry (s : State) (image : List Byte) : List W64 :=
  (List.range 32).map fun i =>
    if 8 * i < image.length then BitVec.ofNat 64 (bytesToNat ((image.drop (8 * i)).take 8))
    else (Config.freeWord s.fresh i 9500).setWidth 64

/-- The whole image of a CPOST is at the hub arbiter: it joins the collective list of the launch that posted it, or finds it
full (R448). [DEDUCED, log 76: unsafe] -/
def State.postEntry (s : State) (by_ : Issuer) (image : List Byte) : State :=
  match s.hub.launch with
  | some l =>
    if l.ident ≠ by_.launch then s
    else if 64 ≤ l.collectives.length then s.fabricFail by_ 0x8B 0x14
    else s.onLaunch fun l => { l with collectives := l.collectives ++ [s.postedEntry image] }
  | none => s

/-- A CPOST takes its next step: a bank grants the next line of its image, or the hub arbiter takes the whole one (R448). -/
def State.servePost (s : State) (op : Nat) : State :=
  match s.findOp op with
  | some ⟨_, b, .cpost off image⟩ =>
    if image.length < imageBytes off then
      s.replaceOp op (.cpost off (image ++ s.agentRead b.core false (off + image.length) 64))
    else (s.leaveSends b.core op).postEntry b image
  | _ => s

/-- CPOST (R448): the copy of the image begins. -/
def execCpost (a : BitVec 5) (s : State) : Host.Outcome State Fault Refusal :=
  let off := s.reg a
  .next (if !blockOffset off then s.misaligned off
    else if 16 ≤ s.here.sends.length then s.stall
    else
      (((s.addOp s.issuer (.cpost off.toNat [])).onHere fun c => { c with sends := c.sends ++ [s.nextId] }).spoil).traceQ 0)

end Sys2Proof.Machine
end

