-- ==== Sys2Proof/Machine/Lintel.lean ====
section
/-! DEFINITION. Lintel nodes (R361 to R379): tags and their directories, held operands, matching and combination, results
and returned operands, and the lintel words. -/

namespace Sys2Proof.Machine

/-! Tags and directories (R361 to R363). -/

/-- A register holds a tag (R361). -/
def tagForm (v : W64) : Bool := decide (v.toNat < 2 ^ 32) && fieldOf v 16 8 == 0

/-- TNUM of a tag. -/
def tagNumber (tag : W32) : Nat := fieldOf tag 0 16

/-- INC of a tag. -/
def tagInc (tag : W32) : BitVec 8 := BitVec.ofNat 8 (fieldOf tag 24 8)

/-- Home node of a tag number (R362). -/
def homeNode (tnum : Nat) : Nat := (hash64 (BitVec.ofNat 64 tnum)).toNat % 160

/-- A directory entry; one not listed is closed with INC 0. -/
def Node.entry (x : Node) (tnum : Nat) : DirEntry :=
  (Sparse.get? x.dir tnum).getD { isOpen := false, inc := 0, held := none, tomb := false }

/-- A directory entry replaced; the undo log keeps it as it stood before its first change of the phase, and a full log
marks the phase (R379). -/
def State.setEntry (s : State) (tnum : Nat) (e : DirEntry) : State :=
  let n := homeNode tnum
  let x := s.node n
  let logged := (Sparse.get? x.undo tnum).isSome
  let y := { x with
    dir := Sparse.set x.dir tnum e
    undo := if logged then x.undo else Sparse.set x.undo tnum (x.entry tnum) }
  let t := s.setNode n y
  if !logged && decide (4096 ≤ x.undo.length) then t.onLaunch fun l => { l with marked := true } else t

/-- The tag that an entry stands for has this incarnation and is open. -/
def DirEntry.admits (e : DirEntry) (tag : W32) : Bool := e.isOpen && e.inc == tagInc tag

/-- Slots in use: in the store, or in the overflow area (R365). -/
def Node.slots (x : Node) (overflow : Bool) : List Nat :=
  x.dir.filterMap fun e => match e.2.held with
    | some h => if h.1 == overflow then some h.2.1 else none
    | none => none

/-- The slot that a first operand takes: the lowest free one of the store, else of the overflow area (R365). -/
def Node.freeSlot (x : Node) : Option (Bool × Nat) :=
  match (List.range 256).find? (fun n => !(x.slots false).contains n) with
  | some n => some (false, n)
  | none => ((List.range 2048).find? (fun n => !(x.slots true).contains n)).map fun n => (true, n)

/-! Order (R367). -/

/-- The key of an operand. -/
def Operand.key (o : Operand) : List Nat :=
  [o.by_.lidx.toNat, o.by_.launch.toNat, o.by_.phase.toNat, o.by_.osn.toNat, bitAt o.by_.handler 0, o.by_.core]

/-- Keys compared part by part. [DEDUCED, log 63: unsafe] -/
def keyBelow : List Nat → List Nat → Bool
  | a :: as, b :: bs => decide (a < b) || (a == b && keyBelow as bs)
  | _, _ => false

/-- Left and right operand: the lower key is left; of equal keys the one that the node saw first.
[DEDUCED, log 63: unsafe] -/
def leftRight (held arriving : Operand) : Operand × Operand :=
  if keyBelow arriving.key held.key then (arriving, held) else (held, arriving)

/-! Combination of plain operands (R368). -/

/-- Bytes of a lane. -/
def laneBytes (cop : Nat) : Nat := if cop = 0 ∨ cop = 7 ∨ cop = 8 then 8 else 4

/-- An integer sum modulo 2^w, with OF where the exact sum lies outside the format. -/
def laneSum (w l r : Nat) : Rounded :=
  let x := signed w l + signed w r
  { code := wrap w x, flags := if x < -(2 ^ (w - 1) : Nat) ∨ (2 ^ (w - 1) : Nat) ≤ x then flagOF else 0 }

/-- The signed minimum or maximum of two lanes. -/
def laneBest (max : Bool) (w l r : Nat) : Rounded :=
  { code := if (decide (signed w l ≤ signed w r)) != max then l else r, flags := 0 }

/-- One result lane. -/
def combineLane (cop l r : Nat) : Rounded :=
  match cop with
  | 0 => laneSum 64 l r
  | 1 => laneSum 32 l r
  | 2 => addRounded Rnd.nearest 1 (decodeFloat 1 l) (decodeFloat 1 r)
  | 3 => minMaxCode false Rnd.nearest 1 l r
  | 4 => minMaxCode true Rnd.nearest 1 l r
  | 5 => laneBest false 32 l r
  | 6 => laneBest true 32 l r
  | 7 => laneBest false 64 l r
  | _ => laneBest true 64 l r

/-- What a combination gives: the result bytes and the flags by lane. -/
abbrev Combined := List Byte × List (Nat × BitVec 8)

/-- Two lists of lanes combined. -/
def combineLanes (cop : Nat) (l r : List Nat) : List Rounded := List.zipWith (combineLane cop) l r

/-- Two plain operands combined. -/
def combinePlain (cop : Nat) (l r : List Byte) : Combined :=
  if cop = 9 then (l ++ r, [])
  else
    let n := laneBytes cop
    let ys := combineLanes cop ((chunksOf n l).map bytesToNat) ((chunksOf n r).map bytesToNat)
    (ys.flatMap fun y => natToBytes n y.code, ys.zipIdx.map fun y => (y.2, y.1.flags))

/-! Extended tiles (R369). -/

/-- Lines from one row of a contiguous extended tile to the next. [DEDUCED, log 62: unsafe] -/
def extPitch (fmt n : Nat) : Nat := max 1 (linesFor (rowBytes fmt n))

/-- Lines of a contiguous extended tile (R214, R369). [DEDUCED, log 62: unsafe] -/
def extLines (fmt m n : Nat) : Nat := (m + 1) * extPitch fmt n + Xfer.ckCount fmt m n

/-- An extended tile: header, rows of elements with scale bytes, row and column checksums and corner. -/
structure ExtTile where
  /-- Header. -/
  header : TileHeader
  /-- Rows. -/
  rows : List (List (Nat × Nat))
  /-- Row checksums, column checksums, corner. -/
  cks : List Nat × List Nat × Nat
  deriving DecidableEq, Repr

/-- The tile that lines hold. [DEDUCED, log 62: unsafe] -/
def extTileOf (bs : List Byte) : ExtTile :=
  let h := headerAt (bs.take 64)
  let p := 64 * extPitch h.fmt h.cols
  let ck := ckFmt h.fmt
  let row (i : Nat) : List Byte := (bs.drop (p * (i + 1))).take (rowBytes h.fmt h.cols)
  let at_ (line n : Nat) : List Nat := (List.range n).map fun i => unpack ck (bs.drop (p * (h.rows + 1) + 64 * line)) i
  { header := h
    rows := (List.range h.rows).map fun i => rowElems h.fmt h.cols (row i)
    cks := (at_ 0 h.rows, at_ (ckLines h.fmt h.rows) h.cols,
      (at_ (ckLines h.fmt h.rows + ckLines h.fmt h.cols) 1).headD 0) }

/-- Element values of a tile. -/
def ExtTile.values (t : ExtTile) : List (List Num) :=
  t.rows.map fun r => r.map (elemValue Rnd.nearest t.header.fmt (decodeFloat 1 t.header.tscale.toNat))

/-- The lines of a tile, padding bytes zero. -/
def ExtTile.bytes (t : ExtTile) : List Byte :=
  let p := 64 * extPitch t.header.fmt t.header.cols
  padTo p 0 t.header.bytes ++ (t.rows.flatMap fun r => padTo p 0 (packRow t.header.fmt r)) ++
    checksumLines t.header.fmt t.cks

/-- The check of an extended operand on arrival (R322 steps 1 to 3, R369). -/
def Operand.sound (o : Operand) : Bool :=
  let h := headerAt (o.bytes.take 64)
  h.valid && h.ckp && h.fmt == o.fmt && o.bytes.length == 64 * extLines h.fmt h.rows h.cols &&
    (let t := extTileOf o.bytes
     checksumsOf h.fmt t.values == t.cks)

/-- The header of a result (R369). [DEDUCED, log 64: unsafe] -/
def resultHeader (node : Nat) (l r : ExtTile) (rows : Nat) : TileHeader :=
  { l.header with
    valid := true, ckp := true, subst := l.header.subst || r.header.subst, rows := rows, pkind := 2, punit := node }

/-- Two extended tiles combined lane by lane: FP32 only. -/
def combineTiles (node cop : Nat) (l r : ExtTile) : Combined :=
  let ys := List.zipWith (fun a b => combineLanes cop (a.map (·.1)) (b.map (·.1))) l.rows r.rows
  let t : ExtTile :=
    { header := resultHeader node l r l.header.rows, rows := ys.map fun y => y.map fun e => (e.code, 0), cks := ([], [], 0) }
  ({ t with cks := checksumsOf t.header.fmt t.values }.bytes, ys.flatten.zipIdx.map fun y => (y.2, y.1.flags))

/-- Rows of L, then rows of R: row checksums copied, the others added exactly for integers and regenerated for floats. -/
def catTiles (node : Nat) (l r : ExtTile) : ExtTile :=
  let t : ExtTile :=
    { header := resultHeader node l r (2 * l.header.rows), rows := l.rows ++ r.rows, cks := ([], [], 0) }
  let sums := checksumsOf t.header.fmt t.values
  let add (a b : Nat) : Nat := (a + b) % 2 ^ 32
  if ckFmt t.header.fmt = 13 then
    { t with cks := (l.cks.1 ++ r.cks.1, List.zipWith add l.cks.2.1 r.cks.2.1, add l.cks.2.2 r.cks.2.2) }
  else { t with cks := (l.cks.1 ++ r.cks.1, sums.2.1, sums.2.2) }

/-- The combination of two operands of one form; none where a CAT result is too long (R368, R369). -/
def combineOperands (node : Nat) (l r : Operand) : Option Combined :=
  if !l.ext then some (combinePlain l.cop l.bytes r.bytes)
  else
    let a := extTileOf l.bytes
    let b := extTileOf r.bytes
    if l.cop = 9 then
      (if 128 < extLines a.header.fmt (2 * a.header.rows) a.header.cols then none else some ((catTiles node a b).bytes, []))
    else some (combineTiles node l.cop a b)

/-- Destinations agree (R370): the queue with its handler flag, or virtual address and RID. -/
def MeetDest.agrees : MeetDest → MeetDest → Bool
  | .queue c q h, .queue d r g => c == d && q == r && h == g
  | .memory a, .memory b => a.va == b.va && a.rid == b.rid
  | _, _ => false

/-- Two partners may combine (R364). -/
def Operand.matches (h o : Operand) : Bool :=
  h.cop == o.cop && h.ts == o.ts && h.bytes.length == o.bytes.length && h.ext == o.ext && h.dest.agrees o.dest &&
    (!h.ext ||
      (let a := headerAt (h.bytes.take 64)
       let b := headerAt (o.bytes.take 64)
       a.fmt == b.fmt && a.rows == b.rows && a.cols == b.cols && a.tscale == b.tscale))

/-! Results and returns (R370 to R372). -/

/-- The first entry of a lintel message (R370). -/
def meetEntry (tag : W32) (src kind : Nat) (h : Bool) (st cop : Nat) (ts : Bool) (flags : BitVec 8) (lines : Nat)
    (llidx rlidx : W64) : List Byte :=
  natToBytes 8 (messageHeader tag src kind h (1 + lines)) ++
    natToBytes 8 (2 ^ 56 * st + 2 ^ 52 * cop + bitAt ts 51 + 2 ^ 40 * flags.toNat + 2 ^ 32 * lines) ++
    natToBytes 8 llidx.toNat ++ natToBytes 8 rlidx.toNat ++ List.replicate 32 0

/-- A message of a node leaves for its queue. -/
def State.sendMessage (s : State) (by_ : Issuer) (m : Message) : State :=
  let id := s.nextId
  (s.addOp by_ (.message m)).push (.messageArrival m.core id)

/-- The binding of an operand's destination is released (R245, R376). -/
def State.releaseDest (s : State) (o : Operand) : State :=
  match o.dest with
  | .memory b => s.release o.by_.core b
  | .queue _ _ _ => s

/-- return_op of R364 and R370: the operand goes back, its place in the fold order holds nothing.
[DEDUCED, log 64: unsafe] -/
def State.returnOperand (s : State) (o : Operand) (st : Nat) : State :=
  let bytes := if st = 0x71 ∨ st = 0x7A then [] else o.bytes
  let first := meetEntry o.tag o.by_.core 2 false st o.cop o.ts 0 (bytes.length / 64) o.by_.lidx 0
  ((s.releaseDest o).settleFold o.by_ o.id []).sendMessage o.by_
    { core := o.by_.core, q := o.rq, entries := first :: chunksOf 64 bytes, tag := some o.tag.toNat, remote := false }

/-- The folds of both partners: the result's at the place of the strand to which it is attributed, nothing at the other
one's. -/
def State.settleMeet (s : State) (l r : Operand) (units : List (W64 × W64)) : State :=
  let w := meetWriter l r
  (s.settleFold l.by_ l.id (if w.id = l.id then units else [])).settleFold r.by_ r.id (if w.id = r.id then units else [])

/-- The writes of a result to global memory, line by line; of an extended tile the header with VALID = 0 comes first and the
header itself last (R324, R370). -/
def meetLines (ext : Bool) (bytes : List Byte) : List (Nat × List Byte) :=
  let ls := (chunksOf 64 bytes).zipIdx.map fun x => (64 * x.2, x.1)
  match ext, ls with
  | true, (o, h) :: rest => (o, openHeader (Config.openHeader (BitVec.ofNat 512 (bytesToNat h))).toNat) :: rest ++ [(o, h)]
  | _, ls => ls

/-- The node has made the last write of a result: the folds settle, the destinations are released, and after a refused write
the result goes back with 0x7B (R107, R370). [DESIGN CHOICE, log 65: unsafe] -/
def State.meetWritten (s : State) (l r : Operand) (b : Bound) (back : Message) (bytes : List Byte) (refused : Bool) : State :=
  let t := ((s.settleMeet l r ((foldUnits b.va bytes).map fun u => u.words 0)).releaseDest l).releaseDest r
  if refused then t.sendMessage r.by_ back else t

/-- A line of a result finds a poisoned block of its plain range (R370). R406 refuses partial writes alone, and a result's
lines are whole blocks; R370 has the write of a result refused. [DESIGN CHOICE, log 65: unsafe] -/
def State.resultRefused (s : State) (b : Bound) (o : Nat) : Bool :=
  !b.versioned && s.unreadable (s.keyNo b.key) (s.redirect b o) 64

/-- A node makes the next write of a result (R324, R370, R406). [DESIGN CHOICE, log 65: unsafe] -/
def State.writeResult (s : State) (op : Nat) : State :=
  match s.findOp op with
  | some ⟨_, _, .meetWrite n l r back bytes left refused⟩ =>
    (match r.dest, left with
     | .memory b, (o, line) :: rest =>
       let t := if s.resultRefused b o then (s.countRefused (s.keyNo b.key) (s.redirect b o), .refused)
         else s.globalWrite (meetWriter l r).by_ b o line
       let t1 := if t.2 = .refused then t.1.noteRefused (t.1.redirect b o) line.length 1 else t.1
       let bad := refused || t.2 == .refused
       if rest.isEmpty then (t1.dropOp op).meetWritten l r b back bytes bad
       else t1.replaceOp op (.meetWrite n l r back bytes rest bad)
     | _, _ => s.dropOp op)
  | _ => s

/-- deliver of R364: the result goes to its destination, and the flags join the phase flags; where the message handler sent
R, the write makes the phase not re-executable (R102, R113, R370, R372). [DESIGN CHOICE, log 65: unsafe] -/
def State.deliverMeet (s : State) (l r : Operand) (y : Combined) : State :=
  let lines := y.1.length / 64
  let flags := flagsOf y.2
  let s := if r.by_.handler || !s.sameLaunch r.by_ then s
    else s.onLaunch fun x => x.merge r.by_.lidx flags (offerOf r.by_.osn y.2)
  let entry (kind st : Nat) (h : Bool) : List Byte :=
    meetEntry r.tag r.by_.core kind h st r.cop r.ts flags lines l.by_.lidx r.by_.lidx
  match r.dest with
  | .queue core q h =>
    s.sendMessage r.by_
      { core := core, q := q, entries := entry 1 0 h :: chunksOf 64 y.1, tag := some r.tag.toNat, remote := false }
  | .memory _ =>
    let t := if r.by_.handler then s.onLaunch fun l => { l with marked := true } else s
    t.addOp r.by_ (.meetWrite (homeNode (tagNumber r.tag)) l r
      { core := r.by_.core, q := r.rq, entries := entry 2 0x7B false :: chunksOf 64 y.1, tag := some r.tag.toNat
        remote := false } y.1 (meetLines r.ext y.1) false)

/-- A held operand goes back with a status, and its late partner is expected (R366, R379). -/
def State.expelOperand (s : State) (node tnum st : Nat) : State :=
  let e := (s.node node).entry tnum
  match e.held with
  | none => s
  | some h => (s.setEntry tnum { e with held := none, tomb := true }).returnOperand h.2.2 st

/-- An operand that a node holds is lost: it goes back with 0x7A, and the die supervisor records it (R379). -/
def State.operandLost (s : State) (node tnum : Nat) : State :=
  match ((s.node node).entry tnum).held with
  | none => s
  | some _ => (s.expelOperand node tnum 0x7A).dieEvent (node / 20) 0x08 0x3FF (4 + 2 ^ 64 * tnum)

/-- Physical address of a slot of a node's overflow area (R365, R393). [DESIGN CHOICE, log 128: unsafe] -/
def State.overflowSlot (s : State) (node slot : Nat) : Nat :=
  let base := match s.hub.launch with | some l => l.lintelBase | none => 0
  2 ^ 37 * (node / 20) + base % 2 ^ 36 + node % 20 * 2 ^ 24 + 8192 * slot

/-- The node reads an operand that it holds in its overflow area; one in a block that can not be read is lost (R379, R410). -/
def State.readSlot (s : State) (tnum : Nat) : State :=
  let n := homeNode tnum
  match ((s.node n).entry tnum).held with
  | some (true, slot, _) =>
    let pa := s.overflowSlot n slot
    if s.areaLost pa 8192 then (s.noteLost pa 8192).operandLost n tnum else s
  | _ => s

/-! Matching (R364 to R366). -/

/-- arrive of R364. -/
def State.arriveOperand (s : State) (o : Operand) : State :=
  let tnum := tagNumber o.tag
  let n := homeNode tnum
  let admitted := ((s.node n).entry tnum).admits o.tag && !(o.ext && !o.sound)
  let s := if admitted then s.readSlot tnum else s
  let e := (s.node n).entry tnum
  if !e.admits o.tag then s.returnOperand o 0x71
  else if o.ext && !o.sound then s.returnOperand o 0x77
  else if e.tomb then (s.setEntry tnum { e with tomb := false }).returnOperand o 0x74
  else match e.held with
    | none =>
      match (s.node n).freeSlot with
      | none => s.returnOperand o 0x76
      | some slot => s.setEntry tnum { e with held := some (slot.1, slot.2, { o with time := s.time }) }
    | some (_, _, h) =>
      let t := s.setEntry tnum { e with held := none }
      if !h.matches o then (t.returnOperand h 0x75).returnOperand o 0x75
      else
        let p := leftRight h o
        match combineOperands n p.1 p.2 with
        | none => (t.returnOperand h 0x75).returnOperand o 0x75
        | some y => t.deliverMeet p.1 p.2 y

/-- A message or a result of the tag has not been delivered yet (R371, R372, R375). -/
def State.tagAwaits (s : State) (tag : W32) : Bool :=
  (s.ops.any fun p => match p.op with
    | .message m => m.tag == some tag.toNat
    | .meetWrite _ _ r _ _ _ _ => r.tag == tag
    | _ => false) ||
    (s.node (homeNode (tagNumber tag))).offers.any fun m => m.2.tag == some tag.toNat

/-- MTAGF at the home node (R375): the status. The close is on its way to the hub, where the pool entry is closing until then.
[DEDUCED, log 68: unsafe] -/
def State.freeTag (s : State) (tag : W32) : State × Nat :=
  let tnum := tagNumber tag
  let e := (s.node (homeNode tnum)).entry tnum
  if !e.admits tag then (s, 0x71)
  else if e.held.isSome || s.tagAwaits tag then (s, 0x72)
  else
    ((s.setEntry tnum { isOpen := false, inc := e.inc + 1, held := none, tomb := false }).onHub fun h =>
      { h with tags := Sparse.set h.tags tnum (.closing, e.inc + 1) }, 0)

/-- The close of a tag number reaches the hub arbiter (R375). -/
def State.closeTag (s : State) (tnum : Nat) : State :=
  match Sparse.get? s.hub.tags tnum with
  | some (.closing, inc) => s.onHub fun h => { h with tags := Sparse.set h.tags tnum (.free, inc) }
  | _ => s

/-- Tag numbers whose close is on its way. -/
def Hub.closing (h : Hub) : List Nat := (h.tags.filter fun t => t.2.1 = .closing).map (·.1)

/-- The result of MSTAT (R377). -/
def State.tagState (s : State) (tag : W32) : Nat :=
  let tnum := tagNumber tag
  let x := s.node (homeNode tnum)
  let e := x.entry tnum
  let held := match e.held with
    | none => 0
    | some h => 2 ^ 46 * (if h.1 then 2 else 1) + 2 ^ 35 * h.2.2.by_.core
  2 ^ 56 * (if e.admits tag then 0 else 0x71) + 2 ^ 48 * e.inc.toNat + held + bitAt e.tomb 45 +
    2 ^ 16 * (x.slots false).length + min (x.slots true).length 4095

/-- `n` lines of a tile source are read (R376). [DEDUCED, log 66: safe] -/
def State.readLines (s : State) (o : Operand) (rest : Option (Nat × Nat)) (n : Nat) : Operand :=
  match rest with
  | none => o
  | some r => { o with bytes := o.bytes ++ s.agentRead o.by_.core false r.1 (64 * min n r.2) }

/-- The lines that are left after `n` more have been read. -/
def linesAfter (rest : Option (Nat × Nat)) (n : Nat) : Option (Nat × Nat) :=
  match rest with
  | some r => if r.2 ≤ n then none else some (r.1 + 64 * n, r.2 - n)
  | none => none

/-- A bank grants the read of the payload of a QPUT, or of the next line of a tile source (R310, R376).
[DESIGN CHOICE, log 46: safe; DEDUCED, log 66: safe] -/
def State.readPayload (s : State) (op : Nat) : State :=
  match s.findOp op with
  | some ⟨_, b, .put core q h user off _⟩ => s.replaceOp op (.put core q h user off (some (s.agentRead b.core false off 64)))
  | some ⟨_, _, .meet o rest⟩ => s.replaceOp op (.meet (s.readLines o rest 1) (linesAfter rest 1))
  | _ => s

/-- MEET_ARRIVAL (R364, R365, R375 to R377): the node applies an operand, an MTAGF or an MSTAT; of an operand the
acknowledgement starts back. A stopped node applies nothing (R379). -/
def execMeetArrival (op : Nat) (s : State) : Host.Outcome State Fault Refusal :=
  match s.findOp op with
  | none => .next s
  | some p =>
    match p.op with
    | .meet o rest =>
      if (s.node (homeNode (tagNumber o.tag))).stopped then .next s
      else
        let t := (s.replaceOp op (.ack none none)).push (.sendAcknowledgement p.by_.core op)
        .next (t.arriveOperand (s.readLines o rest 128))
    | .tagFree tag =>
      if (s.node (homeNode (tagNumber tag))).stopped then .next s
      else
        let t := (s.dropOp op).freeTag tag
        .next (t.1.answer p.by_.core op (BitVec.ofNat 512 (2 ^ 56 * t.2)))
    | .tagStat tag =>
      if (s.node (homeNode (tagNumber tag))).stopped then .next s
      else .next ((s.dropOp op).answer p.by_.core op (BitVec.ofNat 512 (s.tagState tag)))
    | _ => .next s

/-- The orphan timeout in nanoseconds (R366). [PRESUMED, log 67: unsafe] -/
def State.orphanTime (s : State) : Nat :=
  match s.hub.launch with
  | some l => if l.mto = 0 then 1000000 else 1000 * l.mto
  | none => 1000000

/-- Tag numbers of a node whose held operand has waited too long (R366). -/
def State.orphans (s : State) (node : Nat) : List Nat :=
  (s.node node).dir.filterMap fun e => match e.2.held with
    | some h => if s.orphanTime < s.time - h.2.2.time then some e.1 else none
    | none => none

/-- ORPHAN_SCAN (R366). -/
def execOrphanScan (node : Nat) (s : State) : Host.Outcome State Fault Refusal :=
  if 160 ≤ node then .fault (.noSuchUnit node)
  else .next ((s.orphans node).foldl (fun t n => t.expelOperand node n 0x73) s)

/-- A node offers a message to its queue; a refused one waits for the next offer (R306, R372). -/
def State.offerMessage (s : State) (node : Nat) (m : Message) : State :=
  let r := s.deliverTo m.core m.q m.entries m.remote
  match r.2 with
  | .refused => s.setNode node { s.node node with offers := (s.node node).offers ++ [(s.time + holdTime, m)] }
  | _ => r.1

/-- RESULT_REOFFER (R372): the messages that were refused 256 cycles ago are offered again. -/
def execResultReoffer (node : Nat) (s : State) : Host.Outcome State Fault Refusal :=
  if 160 ≤ node then .fault (.noSuchUnit node)
  else
    let x := s.node node
    let due := x.offers.filter fun m => decide (m.1 ≤ s.time)
    .next (due.foldl (fun t m => t.offerMessage node m.2)
      (s.setNode node { x with offers := x.offers.filter fun m => !decide (m.1 ≤ s.time) }))

/-- A message arrives; one of a lintel node that is refused is offered again by the node (R306, R372). -/
def State.messageArrives (s : State) (m : Message) : State :=
  match m.tag with
  | some tag => s.offerMessage (homeNode (tag % 65536)) m
  | none => (s.deliverTo m.core m.q m.entries m.remote).1

/-- MESSAGE_ARRIVAL (R306, R310, R370): a QPUT or a message of a node arrives at its queue. -/
def execMessageArrival (core op : Nat) (s : State) : Host.Outcome State Fault Refusal :=
  if 640 ≤ core then .fault (.noSuchUnit core)
  else match s.findOp op with
    | none => .next s
    | some p =>
      match p.op with
      | .put c q h user off payload => .next (s.putArrives p c q h user off payload)
      | .message m => .next ((s.dropOp op).messageArrives m)
      | _ => .next s

/-! The words (R373 to R378). -/

/-- The lowest free tag number from `n` on; `fuel` bounds the search (R374). [DEDUCED, log 68: unsafe] -/
def Hub.freeTag (h : Hub) : Nat → Nat → Option Nat
  | 0, _ => none
  | fuel + 1, n =>
    if 65535 < n then none
    else match Sparse.get? h.tags n with
      | some (.allocated, _) => Hub.freeTag h fuel (n + 1)
      | some (.closing, _) => Hub.freeTag h fuel (n + 1)
      | _ => some n

/-- MTAGA (R374). -/
def execMtaga (d l : BitVec 5) (s : State) : Host.Outcome State Fault Refusal :=
  .next ((s.timedOp (s.here.sPort d.toNat) 24 l.toNat .tagAsk).traceQ 0)

/-- An MTAGA at the hub arbiter: the lowest free tag number becomes allocated and its open leaves for the home node, or the
answer is that none is free (R374). -/
def State.allocateTag (s : State) (op : Nat) : State :=
  match s.findOp op with
  | some ⟨_, b, .tagAsk⟩ =>
    (match s.hub.freeTag (s.hub.tags.length + 1) 0 with
     | none => (s.dropOp op).answer b.core op (BitVec.ofNat 512 (2 ^ 56 * 0x70))
     | some n =>
       let inc := match Sparse.get? s.hub.tags n with | some t => t.2 | none => 0
       (s.onHub fun h => { h with tags := Sparse.set h.tags n (.allocated, inc) }).replaceOp op (.tagOpen n inc))
  | _ => s

/-- The home node applies the open of an allocated tag, and its result is formed (R374). -/
def State.openTag (s : State) (op : Nat) : State :=
  match s.findOp op with
  | some ⟨_, b, .tagOpen n inc⟩ =>
    (((s.dropOp op).setEntry n { (s.node (homeNode n)).entry n with isOpen := true, inc := inc }).answer b.core op
      (BitVec.ofNat 512 (2 ^ 24 * inc.toNat + n)))
  | _ => s

/-- A question about a tag goes to its home node (R375, R377). -/
def State.askNode (s : State) (d a l : BitVec 5) (op : W32 → Op) : State :=
  let v := s.reg a
  if !tagForm v then s.misaligned v
  else
    let id := s.nextId
    ((s.timedOp (s.here.sPort d.toNat) 24 l.toNat (op (v.setWidth 32))).push (.meetArrival id)).traceQ 0

/-- MTAGF (R375). -/
def execMtagf (d a l : BitVec 5) (s : State) : Host.Outcome State Fault Refusal := .next (s.askNode d a l .tagFree)

/-- MSTAT (R377). -/
def execMstat (d a l : BitVec 5) (s : State) : Host.Outcome State Fault Refusal := .next (s.askNode d a l .tagStat)

/-- The destination register is well formed (R376, check 2). -/
def meetDestForm (v : W64) : Bool :=
  fieldOf v 48 12 == 0 &&
    (if flagOf v 63 then fieldOf v 0 48 % 64 == 0
     else fieldOf v 14 34 == 0 && decide (fieldOf v 0 10 ≤ 639))

/-- A format suits a combination (R376, check 4). -/
def suits (cop fmt : Nat) : Bool :=
  match cop with
  | 0 => fmt == 15
  | 1 => fmt == 13
  | 2 => fmt == 1
  | 3 => fmt == 1
  | 4 => fmt == 1
  | 5 => fmt == 13
  | 6 => fmt == 13
  | 7 => fmt == 14
  | 8 => fmt == 14
  | _ => true

/-- Result lines as the destination is translated for them (R376, check 8). -/
def resultLines (cop lines : Nat) : Nat := if cop = 9 then 2 * lines else lines

/-- An operand leaves for its home node (R376). -/
def State.sendOperand (s : State) (o : Operand) (rest : Option (Nat × Nat)) : State :=
  let o := { o with id := s.nextId, by_ := s.issuer }
  let t := (s.addOp o.by_ (.meet o rest)).push (.meetArrival o.id)
  let t := t.onHere fun c => { c with sends := c.sends ++ [o.id] }
  match o.dest with
  | .memory b => (t.foldPlace o.by_ o.id).traceQ b.va
  | .queue _ _ _ => t.traceQ 0

/-- The destination of a MEET (R376, check 8), and the operand on its way to it. -/
def State.meetTo (s : State) (b : BitVec 5) (lines : Nat) (o : Operand) (rest : Option (Nat × Nat)) : State :=
  let v := s.reg b
  let va := fieldOf v 0 48
  if flagOf v 63 then
    match s.translate va (64 * resultLines o.cop lines) (permW ||| permM) true with
    | .stop t => t
    | .ok t x =>
      if t.here.inHandler && x.versioned then t.fault 7 (BitVec.ofNat 64 va) 0
      else if 16 ≤ t.here.sends.length then t.stall
      else t.counted [x] fun t => t.sendOperand { o with dest := .memory x } rest
  else if 16 ≤ s.here.sends.length then s.stall
  else s.sendOperand { o with dest := .queue (fieldOf v 0 10) (fieldOf v 10 3) (flagOf v 13) } rest

/-- An operand as a MEET begins it. -/
def State.meetOperand (s : State) (a b : BitVec 5) (cop : Nat) (ts ext : Bool) (fmt : Nat) (bytes : List Byte) : Operand :=
  { id := 0, by_ := s.issuer, tag := (s.reg a).setWidth 32, cop := cop, ts := ts, ext := ext, fmt := fmt, bytes := bytes
    dest := .queue 0 0 false, rq := fieldOf (s.reg b) 60 3, time := 0 }

/-- MEET of a vector register (R373, R376). -/
def execMeet (d a b : BitVec 5) (x : BitVec 1) (o : BitVec 4) (s : State) : Host.Outcome State Fault Refusal :=
  .next (if 10 ≤ o.toNat then s.illegal
    else s.mainOnly
      (if !tagForm (s.reg a) then s.misaligned (s.reg a)
       else if !meetDestForm (s.reg b) then s.misaligned (s.reg b)
       else s.meetTo b 1 (s.meetOperand a b o.toNat false false 0 (natToBytes 64 (s.vec (x == 1) d).toNat)) none))

/-- The operand register of a tile source is well formed (R376, check 3). -/
def meetTileForm (v : W64) : Bool :=
  let off := fieldOf v 0 23
  let n := fieldOf v 32 8
  v.toNat == off + 2 ^ 32 * n && off % 64 == 0 && n != 0 && decide (n ≤ 128) && decide (off + 64 * n ≤ 8388608)

/-- The banks that some lines touch agree in their format bytes. -/
def oneFormat (bfmt : List Byte) (off n : Nat) : Bool :=
  (sideBanks [(off, n)]).all fun b => bfmt.getD b 0 == bfmt.getD (off / 2 ^ 19) 0

/-- MEET of a tile in the scratchpad (R373, R376), whose lines are read after the issue. -/
def execMeetT (d a b : BitVec 5) (o : BitVec 4) (s : State) : Host.Outcome State Fault Refusal :=
  let v := s.reg d
  let off := fieldOf v 0 23
  let n := fieldOf v 32 8
  let bfmt := s.bankFormats
  let f := (bfmt.getD (off / 2 ^ 19) 0).toNat
  let fmt := f % 16
  let ext := decide (128 ≤ f)
  let cop := o.toNat
  .next (if 10 ≤ cop then s.illegal
    else if !tagForm (s.reg a) then s.misaligned (s.reg a)
    else if !meetDestForm (s.reg b) then s.misaligned (s.reg b)
    else if !meetTileForm v then s.misaligned v
    else if !suits cop fmt then s.illegalWith 1
    else if ext && ((ckFmt? fmt).isNone || cop ≤ 1 || (5 ≤ cop && cop ≤ 8)) then s.illegalWith 2
    else if cop = 9 ∧ 64 < n then s.illegalWith 3
    else if !oneFormat bfmt off (64 * n) then s.illegalWith 4
    else s.meetTo b n (s.meetOperand a b cop true ext fmt []) (some (off, n)))

end Sys2Proof.Machine
end

