-- ==== Sys2Proof/Machine/Ranges.lean ====
section
/-! DEFINITION. Updates of the range directory (R240 to R258): validity of descriptors, the range instructions with their
first step at the hub arbiter, the invalidation that follows, the drain of counts, compaction moves, and RFENCE. The first
and second step of an update are taken at issue, or once an update or a move that it meets has completed. -/

namespace Sys2Proof.Machine

/-! Descriptors (R241, R242). -/

/-- A combination of permission bits that R241 allows. -/
def permAllowed (perm : BitVec 9) : Bool :=
  if perm.getLsbD 3 then perm &&& 0b111110110#9 == 0
  else !(perm.getLsbD 2 && (perm.getLsbD 1 || perm.getLsbD 5))

/-- A physical interval lies inside one stack of the HBM region (R242). -/
def inHbm (pa n : Nat) : Bool := decide (pa < 2 ^ 40) && decide (pa % 2 ^ 36 + n ≤ 48 * 2 ^ 30)

/-- A physical interval lies inside the object space of one die, which holds some objects (R242, R341). -/
def inSync (pa n objects : Nat) : Bool :=
  pa / 2 ^ 48 == 1 && bits pa 43 5 == 0 && decide (pa % 2 ^ 40 + n ≤ 64 * objects)

/-- A descriptor is valid where a die has some objects (R241, R341); slot 0 is the device's own (R409).
[DEDUCED, log 86: unsafe] -/
def Desc.valid (d : Desc) (keys : List (Nat × Nat)) (objects : Nat) : Bool :=
  let n := d.vlimit - d.vbase
  let sync := d.perm.getLsbD 3
  decide (d.vbase < d.vlimit) && decide (d.vbase ≤ d.rbase) && decide (d.rbase ≤ d.rlimit) &&
    decide (d.rlimit ≤ d.vlimit) && permAllowed d.perm &&
    (if sync then inSync d.poff n objects else inHbm d.poff n && d.key != 0 && (Sparse.get? keys d.key).isSome)

/-- The descriptors of a set. -/
def Hub.set_ (h : Hub) (n : Nat) : List Desc := (Sparse.get? h.dir n).getD []

/-- Every descriptor of the job. -/
def Hub.descs (h : Hub) : List Desc := h.dir.flatMap (·.2)

/-- A descriptor put into its place by VBASE (R243). -/
def insertDesc (d : Desc) : List Desc → List Desc
  | [] => [d]
  | e :: es => if d.vbase < e.vbase then d :: e :: es else e :: insertDesc d es

/-- RIDs that a descriptor holds or that an update has not freed yet (R257). -/
def State.ridsInUse (s : State) : List Nat := s.hub.descs.map (·.rid) ++ s.updates.flatMap (·.freed)

/-- The lowest RID from `n` on that is free; `fuel` bounds the search. -/
def lowestRid (used : List Nat) : Nat → Nat → Option Nat
  | 0, _ => none
  | fuel + 1, n => if 65535 < n then none else if used.contains n then lowestRid used fuel (n + 1) else some n

/-- Version with which a new descriptor of a RID starts: one beyond the last one that the RID had (R244).
[DEDUCED, log 88: unsafe] -/
def Hub.nextVersion (h : Hub) (rid : Nat) : Nat :=
  match Sparse.get? h.versions rid with | some v => (v + 1) % 256 | none => 0

/-! Invalidation (R248 step 2). -/

/-- A core without its entries of some RIDs. -/
def Core.forget (c : Core) (rids : List Nat) : Core :=
  { c with
    table := c.table.filter fun d => !rids.contains d.rid
    codeEntry := if c.codeEntry.any (fun d => rids.contains d.rid) then none else c.codeEntry
    walkMiss := [] }

/-- Every core drops its entries of some RIDs. -/
def State.invalidate (s : State) (rids : List Nat) : State :=
  { s with cores := s.cores.map fun c => (c.1, c.2.forget rids) }

/-- Descriptors of a set replaced: old ones by RID removed, new ones put in. The undo log counts the changes (R250). -/
def State.install (s : State) (set : Nat) (old new : List Desc) : State :=
  let rids := old.map (·.rid)
  let s := s.onHub fun h =>
    let kept := (h.set_ set).filter fun d => !rids.contains d.rid
    { h with
      dir := Sparse.set h.dir set (new.foldl (fun l d => insertDesc d l) kept)
      versions := (old ++ new).foldl (fun vs d => Sparse.set vs d.rid d.version) h.versions
      dirUndo := h.dirUndo + max old.length new.length }
  if 4096 < s.hub.dirUndo then s.onLaunch fun l => { l with marked := true } else s

/-- An update passes its first two steps (R248): the directory shows the new descriptors, the cores have dropped theirs,
and the old ones stay locked. [DEDUCED, log 39: unsafe] -/
def State.beginUpdate (s : State) (id : Nat) (by_ : Issuer) (set : Nat) (old new : List Desc) (freed : List Nat)
    (move : Bool) : State :=
  let u : RangeUpd := { set := set, old := old, made := new.map (·.rid), freed := freed, move := move }
  let s := (s.install set old new).invalidate (old.map (·.rid))
  let t : State := { s with ops := (s.ops.filter fun p => p.id != id) ++ [{ id := id, by_ := by_, op := .range u }] }
  t.push (.rangeUpdate by_.core id)

/-! RFENCE (R256). -/

/-- An operation of a context that RFENCE waits for. -/
def Pending.fenced (p : Pending) (core : Nat) (handler : Bool) (since before : Nat) : Bool :=
  p.by_.core == core && p.by_.handler == handler && decide (since ≤ p.id) && decide (p.id < before) &&
    (match p.op with
     | .rangeAsk _ _ _ => true
     | .range _ => true
     | .rangeFence _ => true
     | _ => false)

/-- Range instructions of a context before a number are under way; those of the strands that the core held before are not
its own. -/
def State.rangesPending (s : State) (core : Nat) (handler : Bool) (before : Nat) : Bool :=
  let c := s.core core
  let since := (if handler then c.hand else c.main).since
  s.ops.any (fun p => p.fenced core handler since before) ||
    s.hub.moves.any fun m =>
      m.by_.core == core && m.by_.handler == handler && decide (since ≤ m.id) && decide (m.id < before)

/-- The failure of the lowest operation number. -/
def firstFail : List (Nat × Nat × Nat × W64) → Option (Nat × Nat × Nat × W64)
  | [] => none
  | f :: fs => match firstFail fs with
    | none => some f
    | some g => if g.2.2.1 < f.2.2.1 then some g else some f

/-- The result of an RFENCE, which clears the record of failures before it. [DEDUCED, log 41: unsafe] -/
def Ctx.fenceResult (x : Ctx) (before count : Nat) : Ctx × Nat :=
  let mine := x.rfail.filter fun f => decide (f.2.2.1 < before)
  let y := { x with rfail := x.rfail.filter fun f => !decide (f.2.2.1 < before) }
  match firstFail mine with
  | none => (y, resultWord 0 (min count (2 ^ 56 - 1)))
  | some f => (y, 2 ^ 56 * f.1 + 2 ^ 50 * f.2.1 + f.2.2.2.toNat % 2 ^ 50)

/-- A context of a core changed. -/
def State.onContext (s : State) (core : Nat) (handler : Bool) (f : Ctx → Ctx) : State :=
  s.onCore core fun c => if handler then { c with hand := f c.hand } else { c with main := f c.main }

/-- The fences that wait for nothing more are answered, oldest first; `fuel` bounds them. -/
def State.serveFences (s : State) (core : Nat) (handler : Bool) : Nat → State
  | 0 => s
  | fuel + 1 =>
    let mine (p : Pending) : Bool := p.by_.core == core && p.by_.handler == handler &&
      (match p.op with | .rangeFence _ => !s.rangesPending core handler p.id | _ => false)
    match s.ops.find? mine with
    | none => s
    | some p =>
      match p.op with
      | .rangeFence count =>
        let c := s.core core
        let r := (if handler then c.hand else c.main).fenceResult p.id count
        let t := ((s.onContext core handler fun _ => r.1).dropOp p.id).answer core p.id (BitVec.ofNat 512 r.2)
        State.serveFences t core handler fuel
      | _ => s

/-- The fences of a context are served. -/
def State.settleFences (s : State) (by_ : Issuer) : State := s.serveFences by_.core by_.handler (s.ops.length + 1)

/-- A failure of an instruction that has no result of its own (R256); nobody asks for that of a strand that has left. -/
def State.rangeFailed (s : State) (by_ : Issuer) (id st op : Nat) : State :=
  s.onContext by_.core by_.handler fun x =>
    if id < x.since then x else { x with rfail := x.rfail ++ [(st, op, id, by_.osn)] }

/-! The first step (R252, R254, R257). -/

/-- How the first step of a range instruction ends. -/
inductive Stepped where
  /-- It waits for an update or a move of its range. -/
  | waits
  /-- It fails with a status. -/
  | failed (st : Nat)
  /-- It has been applied, with the value of its result. -/
  | applied (s : State) (val : Nat)

/-- A page address of 48 bits (R254). -/
def pageForm (v : W64) : Bool := fieldOf v 0 12 == 0 && fieldOf v 48 16 == 0

/-- The form of the operands (R254, R257). -/
def RangeWord.formed : RangeWord → Bool
  | .split p => pageForm p
  | .merge _ => true
  | .remove => true
  | .window _ base lim => pageForm base && pageForm lim
  | .protect form v =>
    let mask : W64 := match form with | 0 => 0x3FF01FF#64 | 1 => 0x1FF#64 | _ => 0x3FF0000#64
    v &&& ~~~mask == 0
  | .move q => fieldOf q 0 12 == 0 && fieldOf q 52 12 == 0

/-- Op number of a range instruction (R253). -/
def RangeWord.op : RangeWord → Nat
  | .split _ => 1
  | .merge _ => 2
  | .remove => 3
  | .window _ _ _ => 4
  | .protect _ _ => 5
  | .move _ => 7

/-- A descriptor with its version advanced. -/
def Desc.advanced (d : Desc) : Desc := { d with version := (d.version + 1) % 256 }

/-- RSPLIT of a descriptor (R257). -/
def State.rangeSplit (s : State) (id : Nat) (by_ : Issuer) (set : Nat) (x : Desc) (p : Nat) : Stepped :=
  if ¬(x.vbase < p ∧ p < x.vlimit) then .failed 0x22
  else match lowestRid s.ridsInUse (s.ridsInUse.length + 1) 1 with
    | none => .failed 0x23
    | some rid =>
      let lower := { x with vlimit := p, rbase := min x.rbase p, rlimit := min x.rlimit p }
      let upper := { x with vbase := p, poff := x.poff + (p - x.vbase), rbase := max x.rbase p, rlimit := max x.rlimit p,
                            rid := rid, version := s.hub.nextVersion rid }
      .applied (s.beginUpdate id by_ set [x] [lower.advanced, upper] [] false) rid

/-- RMERGE of two neighbours (R257). -/
def State.rangeMerge (s : State) (id : Nat) (by_ : Issuer) (set : Nat) (x : Desc) (upper : W64) : Stepped :=
  match (s.hub.set_ set).find? fun d => d.vbase == x.vlimit with
  | none => .failed 0x20
  | some y =>
    let emptyX := x.rbase == x.rlimit
    let emptyY := y.rbase == y.rlimit
    if s.lockedRid y.rid || s.hub.moves.any (·.rid == y.rid) then .waits
    else if y.rid ≠ upper.toNat % 65536 ∨ 65536 ≤ upper.toNat then .failed 0x27
    else if y.poff ≠ x.poff + (x.vlimit - x.vbase) ∨ y.perm ≠ x.perm ∨ y.key ≠ x.key then .failed 0x27
    else if (x.rlimit ≠ x.vlimit ∨ y.rbase ≠ y.vbase) ∧ !emptyX ∧ !emptyY then .failed 0x27
    else
      let w := if emptyX then (y.rbase, y.rlimit) else if emptyY then (x.rbase, x.rlimit) else (x.rbase, y.rlimit)
      let z := { x with vlimit := y.vlimit, rbase := w.1, rlimit := w.2 }
      .applied (s.beginUpdate id by_ set [x, y] [z.advanced] [y.rid] false) x.rid

/-- RRES (R257). -/
def State.rangeWindow (s : State) (id : Nat) (by_ : Issuer) (set : Nat) (x : Desc) (grow : Bool) (base lim : Nat) :
    Stepped :=
  let old := grow && x.rbase != x.rlimit
  let b := if old then min base x.rbase else base
  let l := if old then max lim x.rlimit else lim
  if ¬(x.vbase ≤ b ∧ b ≤ l ∧ l ≤ x.vlimit) then .failed 0x22
  else .applied (s.beginUpdate id by_ set [x] [{ x with rbase := b, rlimit := l }.advanced] [] false) 0

/-- Objects of each die (R341). -/
def State.objects (s : State) : Nat := match s.hub.launch with | some l => l.objects | none => 0

/-- RPROT (R257). -/
def State.rangeProtect (s : State) (id : Nat) (by_ : Issuer) (set : Nat) (x : Desc) (form : Nat) (v : W64) : Stepped :=
  let perm := if form = 2 then x.perm else v.setWidth 9
  let key := if form = 1 then x.key else fieldOf v 16 10
  let y := { x with perm := perm, key := key }
  let fixed : BitVec 9 := 0b110101000#9
  if (perm ^^^ x.perm) &&& fixed ≠ 0 ∨ !y.valid s.hub.keys s.objects then .failed 0x25
  else .applied (s.beginUpdate id by_ set [x] [y.advanced] [] false) 0

/-- Moves that have not completed; one runs, sixteen may wait (R251). -/
def State.rangeMove (s : State) (id : Nat) (by_ : Issuer) (set : Nat) (x : Desc) (q : Nat) : Stepped :=
  let die (pa : Nat) : Nat := stackOf pa / 2
  if x.perm.getLsbD 3 ∨ !inHbm q (x.vlimit - x.vbase) ∨ die q ≠ die x.poff then .failed 0x28
  else if s.hub.moves.any (·.rid == x.rid) then .failed 0x26
  else if 17 ≤ s.hub.moves.length then .failed 0x26
  else
    let m : Move := { id := id, by_ := by_, set := set, rid := x.rid, version := x.version
                      source := x.physical x.rbase, poff := q
                      base := q + (x.rbase - x.vbase), mark := none, aborted := false }
    .applied ((s.dropOp id).onHub fun h => { h with moves := h.moves ++ [m] }) 0

/-- The ranges that a range instruction concerns: that of its address, and for an RMERGE the one behind it. -/
def State.touched (s : State) (set va : Nat) (w : RangeWord) : List Nat :=
  match descAt (s.hub.set_ set) va with
  | none => []
  | some x => x.rid ::
    (match w with
     | .merge _ => ((s.hub.set_ set).filter fun d => d.vbase == x.vlimit).map (·.rid)
     | _ => [])

/-- An earlier instruction waits for its first step: one of the same core, whose instructions take it in issue order (R249), or
one on the same range, whose updates run one at a time in hub-arbiter order (R248). -/
def State.askedBefore (s : State) (id core set va : Nat) (w : RangeWord) (sameCore : Bool) : Bool :=
  let mine := s.touched set va w
  s.ops.any fun p => decide (p.id < id) &&
    (match p.op with
     | .rangeAsk set' va' w' => p.by_.core == core || (!sameCore && (s.touched set' va' w').any mine.contains)
     | _ => false)

/-- The word is an RMOVE. -/
def RangeWord.isMove : RangeWord → Bool
  | .move _ => true
  | _ => false

/-- The first step of a range instruction (R248, R252, R254): an RMOVE of a range that is queued or moving does not wait
for the range. One that the hub sees while an RINV waits for the move that it has stopped still meets a range that is moving:
it fails with 0x26, and not with the 0x20 of a range that an RINV has removed. [DEDUCED, log 39: unsafe] -/
def State.rangeStep (s : State) (id : Nat) (by_ : Issuer) (set va : Nat) (w : RangeWord) : Stepped :=
  let here := descAt (s.hub.set_ set) va
  let moving := here.any fun x => s.hub.moves.any (·.rid == x.rid)
  if !w.formed then .failed 0x21
  else if s.askedBefore id by_.core set va w true then .waits
  else if (s.lockedAt set va || s.askedBefore id by_.core set va w false) && !(moving && w.isMove) then .waits
  else match here with
    | none => .failed 0x20
    | some x =>
      match w with
      | .move q => s.rangeMove id by_ set x q.toNat
      | .remove =>
        if moving then .waits
        else .applied (s.beginUpdate id by_ set [x] [] [x.rid] false) 0
      | .split p => if moving then .waits else s.rangeSplit id by_ set x p.toNat
      | .merge u => if moving then .waits else s.rangeMerge id by_ set x u
      | .window g b l => if moving then .waits else s.rangeWindow id by_ set x g b.toNat l.toNat
      | .protect f v => if moving then .waits else s.rangeProtect id by_ set x f v

/-- An RINV that meets a move stops it at its next block boundary (R252). [DEDUCED, log 40: unsafe] -/
def State.abortMove (s : State) (set va : Nat) (w : RangeWord) : State :=
  match w, descAt (s.hub.set_ set) va with
  | .remove, some x => s.onHub fun h => { h with moves := h.moves.map fun m =>
      if m.rid = x.rid then { m with aborted := true } else m }
  | _, _ => s

/-- A range instruction without a result of its own is counted, and its failure is kept (R256). -/
def State.rangeEnds (s : State) (by_ : Issuer) (id : Nat) (w : RangeWord) (r : Stepped) : State :=
  match r with
  | .waits => s
  | .applied t _ => t
  | .failed st =>
    match w with
    | .split _ => s
    | .merge _ => s
    | _ => s.rangeFailed by_ id st w.op

/-- The result word of a first step (R254). -/
def Stepped.word : Stepped → Nat
  | .waits => 0
  | .failed st => resultWord st 0
  | .applied _ v => resultWord 0 v

/-! The updates' events. -/

/-- Every count of the old descriptors is zero in every cluster (R248 step 3). -/
def State.drainedCounts (s : State) (u : RangeUpd) : Bool :=
  s.clusters.all fun c => u.old.all fun d => c.2.count (d.rid, d.version) == 0

/-- The units of a moved range take their new addresses in the list of plain writes. -/
def Launch.rebase (l : Launch) (from_ dest n : Nat) : Launch :=
  let at_ (pa : Nat) : Nat := if from_ ≤ pa ∧ pa < from_ + n then dest + (pa - from_) else pa
  { l with pwrites := l.pwrites.map fun w => { w with pa := at_ w.pa } }

/-- The move at the head of the queue is over (R251). -/
def State.endMove (s : State) : State := s.onHub fun h => { h with moves := h.moves.drop 1 }

/-- The descriptor that holds the address of a write of the phase now, in the set through which it was written (R250). -/
def State.holder (s : State) (w : ShadowWrite) : Option Desc := descAt (s.hub.set_ w.set) w.va

/-- The writes of the phase at the backing of the descriptors that hold their addresses now (R250, R251). -/
def State.movedWrites (s : State) (l : Launch) : List ShadowWrite :=
  l.writes.map fun w => match s.holder w with
    | some d => { w with pa := d.physical w.va, key := d.key }
    | none => w

/-- The last step of a move is over: nothing redirects any more, and the phase's writes lie at the new backing.
[DEDUCED, log 40: unsafe] -/
def State.finishMove (s : State) : State := (s.onLaunch fun l => { l with writes := s.movedWrites l }).endMove

/-! The directory in memory (R240). -/

/-- A descriptor as the directory holds it (R240). -/
def Desc.bytes (d : Desc) : List Byte :=
  [2 ^ 48 * d.rid + d.vbase, d.vlimit % 2 ^ 48, d.poff, d.rbase, d.rlimit, 2 ^ 32 * d.key + d.perm.toNat, 0, 0].flatMap
    (natToBytes 8)

/-- The descriptors of a set are written to the directory in memory, from the set's first entry on; one beyond the set's
entries that would fall on another set's has no place there, and the set's entries behind the last one are cleared.
[DESIGN CHOICE, log 123: unsafe] -/
def State.writeSet (s : State) (set : Nat) : State :=
  match s.hub.launch with
  | none => s
  | some l =>
    match l.dirSets.find? fun x => x.1 == set with
    | none => s
    | some x =>
      let taken (n : Nat) : Bool := l.dirSets.any fun y => y.1 != set && decide (y.2.1 ≤ n) && decide (n < y.2.1 + y.2.2)
      let ds := s.hub.set_ set
      let images := ds.map Desc.bytes ++ List.replicate (x.2.2 - ds.length) (List.replicate 64 0)
      images.zipIdx.foldl (fun s d =>
        if taken (x.2.1 + d.2) then s else s.putDevice (l.dirBase + 64 * (x.2.1 + d.2)) d.1) s

/-- RANGE_UPDATE (R248, R252): an instruction that waited takes its first step if it can; an update whose counts have
drained completes, and its descriptors stand in memory. Otherwise the event comes again. [DEDUCED, log 39: unsafe] -/
def execRangeUpdate (core op : Nat) (s : State) : Host.Outcome State Fault Refusal :=
  match s.findOp op with
  | none => .next s
  | some p =>
    match p.op with
    | .rangeAsk set va w =>
      let s := s.abortMove set va w
      match s.rangeStep op p.by_ set va w with
      | .waits => .next (s.push (.rangeUpdate core op))
      | r =>
        let t := (s.dropOp op).answer p.by_.core op (BitVec.ofNat 512 r.word)
        let r := match r with
          | .applied _ _ => t.rangeStep op p.by_ set va w
          | x => x
        .next ((t.rangeEnds p.by_ op w r).settleFences p.by_)
    | .range u =>
      .next (if s.drainedCounts u then
          (((if u.move then s.finishMove else s).dropOp op).writeSet u.set).settleFences p.by_
        else s.push (.rangeUpdate core op))
    | _ => .next s

/-- One 64-byte block copied to new backing: an uncorrectable one is written poisoned (R251). [DEDUCED, log 43: safe] -/
def State.copyBlock (s : State) (key from_ dest : Nat) : State :=
  let bad := s.unreadable key from_ 1
  let t := ((s.noteAccess key from_ 64).hbmWrite key dest (s.hbmBytes key from_ 64)).1
  if bad then t.onPlatform fun p => { p with poison := p.poison ++ [dest / 64] } else t

/-- COMPACTION_BLOCK (R251, R252): one block of 4 KiB is copied and the watermark advances; an aborted move ends here, and
behind its last block a move ends with its update. -/
def execCompactionBlock (s : State) : Host.Outcome State Fault Refusal :=
  match s.hub.moves with
  | [] => .next s
  | m :: rest =>
    match (s.hub.set_ m.set).find? fun d => d.rid == m.rid with
    | none => .next (s.endMove.settleFences m.by_)
    | some x =>
      let size := x.rlimit - x.rbase
      let w := m.mark.getD 0
      if s.updates.any (·.move) then .next s
      else if m.aborted then .next ((s.endMove.rangeFailed m.by_ m.id 0x2A 7).settleFences m.by_)
      else if size ≤ w then
        .next ((s.onHub fun h => { h with moves := { m with mark := some w } :: rest }).beginUpdate m.id m.by_ m.set [x]
          [{ x with poff := m.poff }.advanced] [] true)
      else
        let from_ := x.physical x.rbase + w
        let s := (List.range 64).foldl (fun s i => s.copyBlock (s.keyNo x.key) (from_ + 64 * i) (m.base + w + 64 * i)) s
        let s := s.onLaunch fun l => { l with pwrites := (l.rebase from_ (m.base + w) 4096).pwrites }
        .next (s.onHub fun h => { h with moves := { m with mark := some (w + 4096) } :: rest })

/-! The words (R253 to R258). -/

/-- A range instruction is counted for RFENCE (R256). [DEDUCED, log 41: unsafe] -/
def State.countRange (s : State) : State := s.onHere fun c => c.setCtx { c.ctx with rcount := c.ctx.rcount + 1 }

/-- An address operand with bits above its width raises an alignment trap (R253). -/
def State.rangeVa (s : State) (a : BitVec 5) (f : Nat → State) : State :=
  if 2 ^ 48 ≤ (s.reg a).toNat then s.misaligned (s.reg a) else f (s.reg a).toNat

/-- A range instruction without a result (R249, R257). -/
def State.rangeWord (s : State) (a : BitVec 5) (w : RangeWord) : State :=
  s.rangeVa a fun va =>
    let set := s.wantedSet
    let id := s.nextId
    let by_ := s.issuer
    let t := State.abortMove { s with nextId := id + 1 } set va w
    match t.rangeStep id by_ set va w with
    | .waits =>
      let u : State := { t with ops := t.ops ++ [{ id := id, by_ := by_, op := .rangeAsk set va w }] }
      ((u.push (.rangeUpdate s.cur id)).countRange).traceQ va
    | r => ((t.rangeEnds by_ id w r).countRange).traceQ va

/-- A range instruction with a timed result, which lands once its first step has passed (R257). -/
def State.rangeResult (s : State) (d a l : BitVec 5) (w : RangeWord) : State :=
  s.rangeVa a fun va =>
    if 64 ≤ s.here.buffered then s.freezeFull
    else
      let set := s.wantedSet
      let id := s.nextId
      let by_ := s.issuer
      let port := s.here.sPort d.toNat
      let t : State := { s with nextId := id + 1 }
      match t.rangeStep id by_ set va w with
      | .waits => (((s.askNow port 24 l.toNat (.rangeAsk set va w)).push (.rangeUpdate s.cur id)).countRange).traceQ va
      | r => (((t.rangeEnds by_ id w r).timedNow port 24 l.toNat r.word).countRange).traceQ va

/-- RLOOK (R255): what the directory shows after the first steps of all updates. -/
def State.lookWord (s : State) (set va sel : Nat) : Nat :=
  match descAt (s.hub.set_ set) va with
  | none => resultWord 0x20 0
  | some x =>
    let move := s.hub.moves.head?.filter (·.rid == x.rid)
    match sel with
    | 0 => 2 ^ 40 * x.rid + 2 ^ 30 * x.key + 2 ^ 21 * x.perm.toNat + 2 ^ 13 * x.version +
        bitAt (s.lockedRid x.rid) 2 + bitAt move.isSome 1
    | 1 => x.vbase
    | 2 => x.vlimit
    | 3 => x.poff
    | 4 => x.rbase
    | 5 => x.rlimit
    | 6 => match move with | some m => m.mark.getD 0 | none => 0
    | _ => resultWord 0x22 0

/-- RLOOK (R255). -/
def execRlook (d a b l : BitVec 5) (s : State) : Host.Outcome State Fault Refusal :=
  let v := s.reg b
  .next (s.rangeVa a fun va =>
    ((s.timed (s.here.sPort d.toNat) 24 l.toNat
      (if 8 ≤ v.toNat then resultWord 0x21 0 else s.lookWord s.wantedSet va v.toNat)).countRange).traceQ va)

/-- RSPLIT (R257). -/
def execRsplit (d a b l : BitVec 5) (s : State) : Host.Outcome State Fault Refusal :=
  .next (s.rangeResult d a l (.split (s.reg b)))

/-- RMERGE (R257). -/
def execRmerge (d a b l : BitVec 5) (s : State) : Host.Outcome State Fault Refusal :=
  .next (s.rangeResult d a l (.merge (s.reg b)))

/-- RINV (R257). -/
def execRinv (a : BitVec 5) (s : State) : Host.Outcome State Fault Refusal := .next (s.rangeWord a .remove)

/-- RRES.SET (R257). -/
def execRresSet (d a b : BitVec 5) (s : State) : Host.Outcome State Fault Refusal :=
  .next (s.rangeWord a (.window false (s.reg d) (s.reg b)))

/-- RRES.GROW (R257). -/
def execRresGrow (d a b : BitVec 5) (s : State) : Host.Outcome State Fault Refusal :=
  .next (s.rangeWord a (.window true (s.reg d) (s.reg b)))

/-- RPROT.ALL (R257). -/
def execRprotAll (a b : BitVec 5) (s : State) : Host.Outcome State Fault Refusal :=
  .next (s.rangeWord a (.protect 0 (s.reg b)))

/-- RPROT.PERM (R257). -/
def execRprotPerm (a b : BitVec 5) (s : State) : Host.Outcome State Fault Refusal :=
  .next (s.rangeWord a (.protect 1 (s.reg b)))

/-- RPROT.KEY (R257). -/
def execRprotKey (a b : BitVec 5) (s : State) : Host.Outcome State Fault Refusal :=
  .next (s.rangeWord a (.protect 2 (s.reg b)))

/-- RMOVE (R251, R257). -/
def execRmove (a b : BitVec 5) (s : State) : Host.Outcome State Fault Refusal :=
  .next (s.rangeWord a (.move (s.reg b)))

/-- RFENCE (R256): its result waits for the range instructions of the context before it. -/
def execRfence (d l : BitVec 5) (s : State) : Host.Outcome State Fault Refusal :=
  let c := s.here
  let count := c.ctx.rcount
  let clear (t : State) : State := t.onHere fun c => c.setCtx { c.ctx with rcount := 0 }
  .next (if 64 ≤ c.buffered then s.freezeFull
    else if s.rangesPending s.cur c.inHandler s.nextId then
      (clear (s.askNow (c.sPort d.toNat) 24 l.toNat (.rangeFence count))).traceQ 0
    else
      let r := c.ctx.fenceResult s.nextId count
      (clear ((s.onHere fun c => c.setCtx r.1).timedNow (c.sPort d.toNat) 24 l.toNat r.2)).traceQ 0)

end Sys2Proof.Machine
end

