-- ==== Sys2Proof/Machine/Matrix.lean ====
section
/-! DEFINITION. The matrix array of a core (R210 to R239): the words that queue its operations with their checks at issue,
the macro-sequencer's events in the core's cycles, steps with their checksum cells, drains with check, correction and
replay, and the retirement of rows. -/

namespace Sys2Proof.Machine

/-! Formats and shapes (R211, R212). -/

/-- The array accepts the format (R211). -/
def accepted (fmt : Nat) : Bool := decide (fmt ≤ 11)

/-- Accumulator class of an input format (R211). -/
def matClass (fmt : Nat) : Nat := match fmt with | 0 => 0 | 1 => 1 | 11 => 2 | _ => 3

/-- M, which is N, of a class (R211). -/
def classDim (cls : Nat) : Nat := match cls with | 0 => 32 | 1 => 64 | _ => 128

/-- Accumulator format of a class (R211). -/
def classAcc (cls : Nat) : Nat := match cls with | 0 => 0 | 2 => 13 | _ => 1

/-- Cells per element of a class (R211). -/
def classCells (cls : Nat) : Nat := match cls with | 0 => 4 | 1 => 2 | _ => 1

/-- Formats of a class (R211). -/
def classFmts (cls : Nat) : List Nat :=
  match cls with | 0 => [0] | 1 => [1] | 2 => [11] | _ => [2, 3, 4, 5, 6, 7, 8, 9, 10]

/-- Products per cell per cycle (R211). -/
def perCycle (fmt : Nat) : Nat :=
  match fmt with | 4 => 2 | 5 => 2 | 7 => 2 | 8 => 2 | 11 => 2 | 6 => 4 | 9 => 4 | 10 => 4 | _ => 1

/-- M', N' and K of a shape code for a format (R212). -/
def shapeDims (shape fmt : Nat) : Nat × Nat × Nat :=
  let m := classDim (matClass fmt)
  match shape with
  | 0 => (m, m, 16)
  | 1 => (m, m, 64)
  | 2 => (m, m, 256)
  | 3 => (m, m, 1024)
  | 4 => (m / 2, m, 256)
  | 5 => (m, m / 2, 256)
  | 6 => (m / 2, m / 2, 256)
  | _ => (m / 4, m / 4, 64)

/-- Cycles of a step (R224). -/
def stepCycles (shape fmt : Nat) : Nat := (shapeDims shape fmt).2.2 / perCycle fmt

/-! Rows (R210, R222, R231, R239). -/

namespace Matrix

/-- The array with a physical row replaced. -/
def setRow (m : Matrix) (n : Nat) (r : Nat × Nat × Nat × Nat × Bool) : Matrix := { m with rows := Sparse.set m.rows n r }

/-- The physical row that serves a position (R210). -/
def serving (m : Matrix) (pos : Nat) : Option Nat :=
  (List.range 132).find? fun n => (m.row n).1 == 0 && (m.row n).2.1 == pos

/-- The lowest-numbered idle spare (R239). -/
def spare (m : Matrix) : Option Nat := (List.range 132).find? fun n => (m.row n).1 == 1

/-- Idle spares (R236). -/
def spares (m : Matrix) : Nat := ((List.range 132).filter fun n => (m.row n).1 == 1).length

/-- Located errors count against the rows that serve some positions (R231). -/
def located (m : Matrix) (positions : List Nat) : Matrix :=
  let m := positions.foldl (fun m p => match m.serving p with
    | some n =>
      let r := m.row n
      m.setRow n (r.1, r.2.1, min (r.2.2.1 + 1) (2 ^ 32 - 1), r.2.2.2.1 + 1, r.2.2.2.2)
    | none => m) m
  { m with corr := m.corr + 1 }

/-- TROW of a row: a mark, without effect on a retired one (R238). -/
def mark (m : Matrix) (n : Nat) : Matrix :=
  let r := m.row n
  if r.1 = 2 then m else m.setRow n (r.1, r.2.1, r.2.2.1, r.2.2.2.1, true)

/-- Retirement of one row in use at a map point, and the spare-exhausted event's data where no spare is left (R239).
[DEDUCED, log 31: unsafe] -/
def retire (m : Matrix) (n : Nat) : Matrix × Option Nat :=
  let r := m.row n
  if r.1 = 0 ∧ (r.2.2.2.2 ∨ 16 ≤ r.2.2.2.1) then
    match m.spare with
    | some k =>
      let q := m.row k
      let m := (m.setRow n (2, 0xFF, r.2.2.1, r.2.2.2.1, false)).setRow k (0, r.2.1, q.2.2.1, 0, q.2.2.2.2)
      ({ m with latches := m.latches.map fun l => l.map fun l => { l with stale := true } }, none)
    | none => ({ m with spx := true }, some (n + 2 ^ 64 * r.2.2.1))
  else (m, none)

/-- A map point (R238, R239): marked spares retire, then the rows in use in ascending physical order. The data of the
events it sends. [DEDUCED, log 31: unsafe] -/
def mapPoint (m : Matrix) : Matrix × List Nat :=
  let m := (List.range 132).foldl (fun m n =>
    let r := m.row n
    if r.1 = 1 ∧ r.2.2.2.2 then m.setRow n (2, 0xFF, r.2.2.1, r.2.2.2.1, false) else m) m
  (List.range 132).foldl (fun a n =>
    let r := a.1.retire n
    (r.1, a.2 ++ r.2.toList)) (m, [])

end Matrix

/-- A core's array at a map point (R239, R356). [DEDUCED, log 31: unsafe] -/
def State.mapRows (s : State) (core : Nat) : State :=
  let c := s.core core
  let r := c.mat.mapPoint
  r.2.foldl (fun s d => s.dieEvent (dieOfCore core) 0x04 core d) (s.setCore core { c with mat := r.1 })

/-! Sets (R217, R218, R237). -/

/-- A set with every accumulator zero (R237). -/
def AccSet.zeroed (a : AccSet) : AccSet :=
  match a.cls with
  | none => a
  | some k =>
    let n := classDim k
    { a with c := List.replicate n (List.replicate n 0), rc := List.replicate n 0, cc := List.replicate n 0, corner := 0 }

/-- A cleared set: its class kept or taken, its replay record emptied, replayable (R218, R229, R237). -/
def AccSet.cleared (a : AccSet) (cls : Option Nat) : AccSet :=
  { ({ a with cls := cls.orElse fun _ => a.cls } : AccSet).zeroed with
    replay := [], replayable := true, fmts := [], spilled := false, subst := false }

/-- A step joins the replay record; the 17th makes the set not replayable (R218). -/
def AccSet.recorded (a : AccSet) (r : StepRec) : AccSet :=
  if 16 ≤ a.replay.length then { a with spilled := true, replayable := false, fmts := r.fmt :: a.fmts.filter (· != r.fmt) }
  else { a with replay := a.replay ++ [r], fmts := r.fmt :: a.fmts.filter (· != r.fmt) }

/-- A recorded step read this latch. -/
def AccSet.usesLatch (a : AccSet) (n : Nat) : Bool :=
  a.replay.any fun r => match r.a with | .latch k => k == n | _ => false

/-- The array with set `n` replaced. -/
def Matrix.putSet (m : Matrix) (n : Nat) (a : AccSet) : Matrix := { m with sets := m.sets.set n a }

/-! Operands (R216). -/

/-- Why an operand can not be used: TSTAT reason and TVAL (R216, R233). -/
structure TileFault where
  /-- Reason 3 or 4. -/
  reason : Nat
  /-- First register with the effective base. -/
  tval : W64
  deriving DecidableEq, Repr

/-- Lines of a tile with an uncorrectable error (R125, R269). [DESIGN CHOICE, log 37: unsafe] -/
def State.badTileLines (s : State) (core : Nat) (t : TileRef) (m n : Nat) : List Nat :=
  (s.padBad core t.cluster).filter fun l =>
    (tileRows t.fmt t.ext m n).zipIdx.any fun r => (List.range r.1).any fun j => t.line r.2 j == 64 * l

/-- A line of an operand is read, unless it has been (R225). -/
def State.readLine (s : State) (core : Nat) (a : Bool × Nat) : State :=
  let bytes := s.operandLine core a.1 a.2
  let note (m : Matrix) : Matrix := if m.seen.any fun l => l.1 == a then m else { m with seen := (a, bytes) :: m.seen }
  s.onCore core fun c => { c with mat := note c.mat }

/-- The header of an operand is read and checked before its data is (R216). -/
def State.readHeader (s : State) (core : Nat) (t : TileRef) (m k : Nat) : State × Option TileFault :=
  if !t.ext then (s, none)
  else
    let s := s.readLine core (t.cluster, t.line 0 0)
    let h := headerAt (s.tileLinesAt core t 0 0 1)
    (s, if !h.valid || !h.ckp then some { reason := 3, tval := t.tval }
      else if h.fmt != t.fmt || h.rows != m || h.cols != k then some { reason := 4, tval := t.tval }
      else none)

/-- An operand as the operand port has read it (R213, R214, R216); the column-checksum vector of a plain tile is formed
from the values as stored. The tile scale of a plain block-scaled tile is not given: a free value.
[DESIGN CHOICE, log 30: safe] -/
def State.fetchTile (s : State) (core : Nat) (t : TileRef) (m k : Nat) : Latch :=
  let h := headerAt (s.tileLinesAt core t 0 0 1)
  let rows := (List.range m).map fun i => s.tileRow core t k i
  let scale := if t.ext then h.tscale
    else if isMx t.fmt then (Config.freeWord s.fresh t.base 9400).setWidth 32 else 0x3F800000#32
  let cks := if t.ext then s.tileChecksums core t m (ckLines t.fmt m) k
    else
      let vals := rows.map fun r => (rowElems t.fmt k r).map (elemValue Rnd.nearest t.fmt (decodeFloat 1 scale.toNat))
      (checksumsOf t.fmt vals).2.1
  { fmt := t.fmt, rows := m, k := k, src := t, data := rows, tscale := scale
    csum := cks.map (BitVec.ofNat 64), subst := t.ext && h.subst, stale := false }

/-- Machine checks for the bad lines that an operand read touched, for the code that issued the word (R125, R263, R269). -/
def State.checkTile (s : State) (core : Nat) (handler : Bool) (t : TileRef) (m n : Nat) : State :=
  (s.badTileLines core t m n).foldl (fun s l =>
    s.onCore core fun c => c.levelCheck (if handler then 1 else 0) (padTval t.cluster (64 * l))) s

/-! Steps (R229). -/

/-- The roundings of a step: RNE whatever RM holds, FZI and FZO as sampled (R153, R229). -/
def stepRnd (mode : W64) : Rnd := { Rnd.ofMode mode 0 with rm := 0 }

/-- dotck of R229: FZI reaches the accumulator of a checksum cell as it reaches that of a data cell, once, as an input
(R146, R229). [DEDUCED, log 36: unsafe] -/
def checkDot (r : Rnd) (ck : Nat) (acc : W64) (u v : List Num) : W64 :=
  BitVec.ofNat 64 (dotck { r with fzi := false } ck (flushIn r ck acc.toNat) u v)

/-- The values of a row that enter a checksum cell. -/
def cellValues (r : Rnd) (fmt : Nat) (scale : W32) (row : List (Nat × Nat)) : List Num :=
  row.map (elemValue r fmt (decodeFloat 1 scale.toNat))

/-- A set after one step, with the flags of its elements (R229), among which UF is not. An invalid product of the tile
scales is one of every element, and offers the first. FZI leaves the tile scales as they are (R146, R229).
[DESIGN CHOICE, log 118: unsafe] -/
def AccSet.step (a : AccSet) (r : StepRec) (x y : Latch) : AccSet × List (Nat × BitVec 8) :=
  let rnd := stepRnd r.mode
  let dims := shapeDims r.shape r.fmt
  let n := classDim (matClass r.fmt)
  let ck := ckFmt r.fmt
  let rowsA := x.data.map (rowElems r.fmt dims.2.2)
  let rowsB := y.data.map (rowElems r.fmt dims.2.2)
  let (ts, invalid) : Num × Bool :=
    if isMx r.fmt then Num.mul (decodeFloat 1 x.tscale.toNat) (decodeFloat 1 y.tscale.toNat) else (.fin false 1 0, false)
  let cells : List (List Rounded) := a.c.zipIdx.map fun row => match rowsA[row.2]? with
    | none => row.1.map fun v => ({ code := v.toNat, flags := 0 } : Rounded)
    | some ra => row.1.zipIdx.map fun v => match rowsB[v.2]? with
      | none => ({ code := v.1.toNat, flags := 0 } : Rounded)
      | some rb => dot rnd r.fmt ts v.1.toNat ra rb
  let csA := x.csum.map fun v => readElem rnd ck v.toNat
  let csB := y.csum.map fun v => readElem rnd ck v.toNat
  let flags := cells.zipIdx.flatMap fun row => row.1.zipIdx.map fun v =>
    (row.2 * n + v.2, v.1.flags &&& ~~~flagUF)
  ({ a with
      c := cells.map fun row => row.map fun v => BitVec.ofNat 64 v.code
      cc := a.cc.zipIdx.map fun v => match rowsB[v.2]? with
        | none => v.1
        | some rb => checkDot rnd ck v.1 csA (cellValues rnd r.fmt y.tscale rb)
      rc := a.rc.zipIdx.map fun v => match rowsA[v.2]? with
        | none => v.1
        | some ra => checkDot rnd ck v.1 (cellValues rnd r.fmt x.tscale ra) csB
      corner := checkDot rnd ck a.corner csA csB
      subst := a.subst || x.subst || y.subst },
    flags ++ (if invalid then [(0, flagIV)] else []) ++ (if x.subst || y.subst then [(0, flagSB)] else []))

/-- The A operand of a step: a latch as it stands, or a tile. -/
def State.operandA (s : State) (core : Nat) (r : StepRec) : Option Latch :=
  let dims := shapeDims r.shape r.fmt
  match r.a with
  | .tile t => some (s.fetchTile core t dims.1 dims.2.2)
  | .latch n => (s.core core).mat.latches.getD n none

/-- Flags of an operation on their way to a cycle. -/
def Matrix.later (m : Matrix) (due : Nat) (es : List (Nat × BitVec 8)) (osn : W64) (pc : Nat) (handler : Bool) : Matrix :=
  { m with results := m.results ++
    [{ due := due, flags := flagsOf es, offer := offerOf osn es, pc := pc, handler := handler }] }

/-- A step whose operands have been read runs into its set: its results are complete 140 cycles after its end, which is
`lastEnd` (R224, R229). -/
def State.runStep (s : State) (core set : Nat) (r : StepRec) : State :=
  let dims := shapeDims r.shape r.fmt
  match s.operandA core r with
  | none => s
  | some x =>
    let y := s.fetchTile core r.b dims.2.1 dims.2.2
    let s := match r.a with | .tile t => s.checkTile core r.handler t dims.1 dims.2.2 | .latch _ => s
    let s := s.checkTile core r.handler r.b dims.2.1 dims.2.2
    let m := (s.core core).mat
    let p := (m.set_ set).step r x y
    let done := m.lastEnd + 140
    let m := (m.putSet set { p.1 with ready := done }).later done p.2 r.osn r.pc r.handler
    s.onCore core fun c => { c with mat := m }

/-! Mismatch (R233). -/

/-- The M pipe's view as the latches and sets stand (R217). [DEDUCED, log 32: unsafe] -/
def Matrix.viewed (m : Matrix) : Matrix :=
  { m with
    viewLatch := m.latches.map fun l => l.map fun l => (l.fmt, l.rows, l.k)
    viewClass := m.sets.map (·.cls) }

/-- A set with unspecified values (R12, R233). -/
def AccSet.lost (a : AccSet) (fresh : Nat) : AccSet :=
  let v (i : Nat) : W64 := (Config.freeWord fresh i 9500).setWidth 64
  { a with
    c := a.c.zipIdx.map fun row => row.1.zipIdx.map fun x => v (1000 + row.2 * 128 + x.2)
    rc := a.rc.zipIdx.map fun x => v x.2
    cc := a.cc.zipIdx.map fun x => v (200 + x.2)
    corner := v 999, replay := [], replayable := false }

/-- A tile mismatch (R233): the trap is requested, the set holds unspecified values, and the queue is discarded.
[DEDUCED, log 32: unsafe] -/
def State.mismatch (s : State) (core : Nat) (set : Option Nat) (e : TileFault) (pc : Nat) (handler : Bool) (at_ : Nat) :
    State :=
  s.onCore core fun c =>
    let m := c.mat
    let m := match set with | some n => m.putSet n ((m.set_ n).lost s.fresh) | none => m
    let m := { m.emptied with lasterr := e.reason, lastEnd := at_ }.viewed
    { c with
      mat := m
      requests := c.requests ++
        [{ code := 11, tval := e.tval, tbundle := pc, xcode := e.reason, deferred := true, epc := none,
           level := if handler then 1 else 0 }] }

/-! Drains (R231 to R234). -/

/-- Tolerance of a drain (R220). -/
def AccSet.tolerance (a : AccSet) (tolt : W64) : Nat :=
  let fmts := if a.spilled then classFmts (a.cls.getD 3) else a.fmts
  maxOf (fmts.map fun f => fieldOf tolt (4 * f) 4)

/-- Failing rows, failing columns, and the two corner checks (R231). -/
def AccSet.check (a : AccSet) (tau : Nat) : List Nat × List Nat × Bool × Bool :=
  let ck := classAcc (a.cls.getD 3)
  let n := classDim (a.cls.getD 3)
  let rows := a.c.map fun r => r.map (·.toNat)
  let col (j : Nat) : List Nat := rows.map fun r => r.getD j 0
  ((List.range n).filter fun i => !ckOk ck tau (rows.getD i []) (a.rc.getD i 0).toNat,
    (List.range n).filter fun j => !ckOk ck tau (col j) (a.cc.getD j 0).toNat,
    !ckOk ck tau (a.cc.map (·.toNat)) a.corner.toNat,
    !ckOk ck tau (a.rc.map (·.toNat)) a.corner.toNat)

/-- Outcome of a check. -/
inductive Checked where
  /-- Nothing failed. -/
  | pass
  /-- A located error: the set, corrected where it was a data element; positions; element; whether it corrected. -/
  | located (a : AccSet) (positions : List Nat) (elem : Nat) (corrected : Bool)
  /-- A failure. -/
  | failure
  deriving Repr

/-- The element of a single failing row and column, from its row checksum (R231). -/
def AccSet.corrected (a : AccSet) (i j : Nat) : AccSet :=
  let ck := classAcc (a.cls.getD 3)
  let others := ((a.c.getD i []).zipIdx.filter fun v => v.2 != j).map fun v => (decodeElem ck 0 v.1.toNat).neg
  let v := ckSum ck (decodeElem ck 0 (a.rc.getD i 0).toNat :: others)
  { a with c := a.c.set i ((a.c.getD i []).set j (BitVec.ofNat 64 v)) }

/-- check and classify of R231. -/
def AccSet.classify (a : AccSet) (tau : Nat) (nocorr : Bool) : Checked :=
  let k := a.cls.getD 3
  let n := classDim k
  let cells := classCells k
  match a.check tau with
  | ([], [], false, false) => .pass
  | (fr, fc, kc, kr) =>
    if nocorr then .failure
    else match fr, fc, kc, kr with
      | [i], [j], false, false =>
        let b := a.corrected i j
        let col := b.c.map fun r => (r.getD j 0).toNat
        if ckOk (classAcc k) tau col (b.cc.getD j 0).toNat then
          .located b ((List.range cells).map (cells * i + ·)) (i * n + j) true
        else .failure
      | [], [j], true, false => .located a [128] (n * n + j) false
      | [i], [], false, true => .located a ((List.range cells).map (cells * i + ·)) (n * n + n + i) false
      | [], [], true, true => .located a [128] (n * n + n + n) false
      | _, _, _, _ => .failure

/-- One element as a drain quantises it (R234): `e` is its index for the stochastic bits. -/
def drainRnd (jkey : W64) (q : MatEntry) (e : Nat) : Rnd :=
  Rnd.ofMode q.mode (if fieldOf q.mode 0 3 = 4 then srbits jkey q.lidx q.src e else 0)

/-- Rows drained: 0, or a limit of the dimension or more, means all (R219). -/
def drainLimit (lim dim : Nat) : Nat := if lim = 0 ∨ dim ≤ lim then dim else lim

/-- A row of a drain: codes with scale bytes, and flags by column (R234 step 2). -/
def drainRow (jkey : W64) (q : MatEntry) (fo : Nat) (dtscale : W32) (ck first : Nat) (row : List W64) :
    List (Nat × Nat) × List (Nat × BitVec 8) :=
  encodeRow (drainRnd jkey q) fo dtscale first (row.map fun v => decodeElem ck 0 v.toNat)

/-- The bytes of a data row filled up with zeros to its last line (R214, R234). -/
def drainBytes (fmt : Nat) (row : List (Nat × Nat)) : List Byte := fullLines (packRow fmt row)

/-- Quantise and write (R234) from a cycle on: the lines of the destination in their order, and the flags that land at the
drain's end. [DESIGN CHOICE, log 34: unsafe] -/
def State.drainWrite (s : State) (core set : Nat) (c : TileRef) (drainctl : W64) (q : MatEntry) (pass start : Nat)
    (extra : List (Nat × BitVec 8)) : State :=
  let a := (s.core core).mat.set_ set
  let k := a.cls.getD 3
  let n := classDim k
  let mw := drainLimit (fieldOf drainctl 8 8) n
  let nw := drainLimit (fieldOf drainctl 16 8) n
  let dtscale := BitVec.ofNat 32 (fieldOf drainctl 32 32)
  let jkey := s.jkey
  let rows := (a.c.take mw).zipIdx.map fun r =>
    drainRow jkey q c.fmt dtscale (classAcc k) (pass * n * n + r.2 * n) (r.1.take nw)
  let flags := rows.zipIdx.flatMap fun r => r.1.2.map fun e => (r.2 * n + e.1, e.2)
  let data := rows.zipIdx.flatMap fun r => c.linesOf (if c.ext then r.2 + 1 else r.2) 0 (drainBytes c.fmt r.1.1)
  let vals := rows.map fun r => r.1.map (elemValue Rnd.nearest c.fmt (decodeFloat 1 dtscale.toNat))
  let h : TileHeader := { valid := true, ckp := true, subst := a.subst, fmt := c.fmt, rows := mw, cols := nw
                          tscale := if isMx c.fmt then dtscale else 0x3F800000#32, pkind := 0, punit := core }
  let lines := if !c.ext then data
    else c.linesOf 0 0 (openHeader (Config.openHeader (BitVec.ofNat 512 (bytesToNat h.bytes))).toNat) ++ data ++
      c.linesOf (mw + 1) 0 (checksumLines c.fmt (checksumsOf c.fmt vals)) ++ c.linesOf 0 0 h.bytes
  let last := start + (lines.length + 3) / 4 - 1
  s.onCore core fun d => { d with mat :=
    { d.mat.later last (flags ++ extra) q.osn q.pc q.handler with lastEnd := last, stage := 4, writes := lines } }

/-- The destination of a drain that failed: its header line holds VALID = 0, its other lines are unspecified (R233). -/
def State.spoilTile (s : State) (core : Nat) (c : TileRef) (m n : Nat) : State :=
  let junk (i j : Nat) : List Byte :=
    let v := (Config.freeWord s.fresh (i * 256 + j) 9600).toNat
    if c.ext && i == 0 then openHeader v else natToBytes 64 v
  s.putLines core ((tileRows c.fmt c.ext m n).zipIdx.flatMap fun r =>
    c.linesOf r.2 0 ((List.range r.1).flatMap fun j => junk r.2 j))

/-- The array of a core changed. -/
def Core.onMat (c : Core) (f : Matrix → Matrix) : Core := { c with mat := f c.mat }

/-- The operation that has run leaves the queue; where a TWAIT waits for it, the watchdog restarts (R235, R270). -/
def Core.opEnded (c : Core) (time : Nat) : Core :=
  let c := if c.mat.fin && c.mat.awaited == some c.main.hmode && !c.inHandler then { c with wdStart := time, wdHeld := false }
    else c
  c.onMat Matrix.popped

/-- The operation at the front of a core's queue, the one that has run gone. -/
def State.frontOp (s : State) (core : Nat) : State × Option MatEntry :=
  let s := s.onCore core fun c => c.onMat Matrix.popped
  (s, (s.core core).mat.queue.head?)

/-- A latch loaded (R218, R228): sets whose record read it are no longer replayable. -/
def Matrix.loadLatch (m : Matrix) (n : Nat) (l : Latch) : Matrix :=
  { m with
    latches := m.latches.set n (some l)
    sets := m.sets.map fun a => if a.usesLatch n then { a with replayable := false } else a }

/-- Cycles of a TLATCH of `rows` rows of `k` elements (R224). -/
def latchCycles (t : TileRef) (rows k : Nat) : Nat := ((t.operandLines rows k).length + 7) / 8

/-! Nests (R221, R230). -/

/-- Iterations of a level of a nest (R221). -/
def nestCount (regs : List W64) (l : Nat) : Nat := fieldOf (regs.getD (4 * l) 0) 0 24

/-- Index of a level in a pass, level 1 fastest (R230). -/
def nestIndex (regs : List W64) (pass : Nat) : Nat → Nat
  | 0 => 0
  | 1 => pass % nestCount regs 1
  | l + 1 => pass / ((List.range l).map fun k => nestCount regs (k + 1)).foldl (· * ·) 1 % nestCount regs (l + 1)

/-- Passes of a nest. -/
def nestPasses (regs : List W64) : Nat := ((List.range 5).map fun k => nestCount regs (k + 1)).foldl (· * ·) 1

/-- Offset of a pass for operand `k`: 1 A, 2 B, 3 C (R230). -/
def nestOffset (regs : List W64) (pass k : Nat) : Int :=
  (List.range 5).foldl (fun o i =>
    o + (nestIndex regs pass (i + 1) : Nat) * (regs.getD (4 * (i + 1) + k) 0).toInt) 0

/-- Offset of a step of a pass for operand `k` (R230). -/
def stepOffset (regs : List W64) (pass i0 k : Nat) : Int := nestOffset regs pass k + (i0 : Int) * (regs.getD k 0).toInt

/-- NODRN: the passes of the nest are not drained (R221, R230). -/
def nestUndrained (regs : List W64) : Bool := flagOf (regs.getD 0 0) 62

/-- NOCLR: the first pass does not clear its set. -/
def nestUncleared (regs : List W64) : Bool := flagOf (regs.getD 0 0) 63

/-- The IDX field of a level in the active registers (R221). -/
def Matrix.setIdx (m : Matrix) (l v : Nat) : Matrix :=
  let r := (m.active.getD (4 * l) 0).toNat
  { m with active := m.active.set (4 * l) (BitVec.ofNat 64 (r - 2 ^ 32 * bits r 32 24 + 2 ^ 32 * (v % 2 ^ 24))) }

/-- The destination of the drain of the operation in hand, with its rows and columns (R219, R231). -/
def State.drainTarget (s : State) (core : Nat) : Option (TileRef × Nat × Nat) :=
  let m := (s.core core).mat
  let sized (set : Nat) (c : TileRef) (drainctl : W64) : TileRef × Nat × Nat :=
    let n := classDim ((m.set_ set).cls.getD 3)
    (c, drainLimit (fieldOf drainctl 8 8) n, drainLimit (fieldOf drainctl 16 8) n)
  match m.queue.head? with
  | some q =>
    (match q.op with
     | .drain set c drainctl _ => some (sized set c drainctl)
     | .nest _ set _ _ c drainctl _ regs bfmt => some (sized set (c.moved bfmt (nestOffset regs m.pass 3)) drainctl)
     | _ => none)
  | none => none

/-! Operands and steps (R216, R225, R228, R229, R232, R239). -/

/-- An operand that can not be used: the step or the load does not execute; in a replay the drain's destination is spoiled
(R216, R232, R233). -/
def State.operandFault (s : State) (core : Nat) (set : Option Nat) (e : TileFault) (pc : Nat) (handler : Bool) (at_ : Nat) :
    State :=
  let s := if (s.core core).mat.stage = 3 then
      match s.drainTarget core with | some c => s.spoilTile core c.1 c.2.1 c.2.2 | none => s
    else s
  s.mismatch core set e pc handler at_

/-- The sequencer begins to read operands, up to a cycle. -/
def State.beginJob (s : State) (core : Nat) (j : MatJob) (last : Nat) : State :=
  s.onCore core fun c => c.onMat fun m => { m with job := some j, lastEnd := last }

/-- The headers of the operands of a step. Where both fail, A is reported. [DESIGN CHOICE, log 134: unsafe] -/
def State.stepHeaders (s : State) (core : Nat) (r : StepRec) : State × Option TileFault :=
  let dims := shapeDims r.shape r.fmt
  let a : State × Option TileFault := match r.a with
    | .tile t => s.readHeader core t dims.1 dims.2.2
    | .latch _ => (s, none)
  match a.2 with
  | some e => (a.1, some e)
  | none => a.1.readHeader core r.b dims.2.1 dims.2.2

/-- A step starts at a cycle with its latch as it stands: the headers are checked, and the operands are read (R216, R229,
R232). A header that fails while a drain replays the step is reported with the bundle of the step's own word.
[DESIGN CHOICE, log 134: unsafe] -/
def State.startRead (s : State) (core set : Nat) (r : StepRec) (rest : List StepRec) (start : Nat) : State :=
  match s.stepHeaders core r with
  | (t, some e) => t.operandFault core (some set) e r.pc r.handler start
  | (t, none) => t.beginJob core (.step set r rest) (start + stepCycles r.shape r.fmt - 1)

/-- The stale latch that a step reads. -/
def Matrix.staleLatch (m : Matrix) (a : AOperand) : Option (Nat × Latch) :=
  match a with
  | .tile _ => none
  | .latch n => match m.latches.getD n none with
    | some l => if l.stale then some (n, l) else none
    | none => none

/-- A step starts at a cycle; a stale latch is reloaded from its descriptor first (R239). -/
def State.startStep (s : State) (core set : Nat) (r : StepRec) (rest : List StepRec) (start : Nat) : State :=
  match (s.core core).mat.staleLatch r.a with
  | none => s.startRead core set r rest start
  | some (n, l) =>
    match s.readHeader core l.src l.rows l.k with
    | (t, some e) => t.operandFault core (some set) e r.pc r.handler start
    | (t, none) => t.beginJob core (.load n l.src l.rows l.k (some (set, r, rest))) (start + latchCycles l.src l.rows l.k - 1)

/-- The next level-0 step of the running pass (R230). -/
def State.nestStep (s : State) (core : Nat) (q : MatEntry) (shape set : Nat) (a b : TileRef) (regs : List W64)
    (bfmt : List Byte) : State :=
  let m := (s.core core).mat
  let off (k : Nat) : Int := stepOffset regs m.pass m.inner k
  let y := b.moved bfmt (off 2)
  let r : StepRec := { shape := shape, fmt := y.fmt, a := .tile (a.moved bfmt (off 1)), b := y
                       mode := q.mode, osn := q.osn, pc := q.pc, handler := q.handler }
  (s.onCore core fun c => c.onMat fun m => m.setIdx 0 m.inner).startStep core set r [] (m.startOf q)

/-- What follows a step of the operation in hand: the operation has run, or the nest goes on (R230). -/
def Matrix.stepDone (m : Matrix) : Matrix :=
  match m.queue.head? with
  | some q =>
    (match q.op with
     | .nest _ _ _ _ _ _ _ regs _ =>
       if m.inner + 1 < nestCount regs 0 then { m with inner := m.inner + 1 }
       else if nestUndrained regs then m.drainDone (some (nestPasses regs))
       else { m with stage := 2 }
     | _ => { m with fin := true })
  | none => m

/-- The operands in hand have been read (R225): the latch is loaded or the step runs, and what waits for it starts. -/
def State.endJob (s : State) (core : Nat) : State :=
  let m := (s.core core).mat
  let closed (s : State) : State := s.onCore core fun c => c.onMat fun m => { m with job := none, seen := [] }
  match m.job with
  | none => s
  | some (.step set r rest) =>
    let s := closed (s.runStep core set r)
    if m.stage = 3 then
      match rest with
      | [] => s
      | n :: ns => s.startRead core set n ns (m.lastEnd + 1)
    else s.onCore core fun c => c.onMat fun m => (m.putSet set ((m.set_ set).recorded r)).stepDone
  | some (.load n t rows k next) =>
    let handler := match next, m.queue.head? with
      | some x, _ => x.2.1.handler
      | none, some q => q.handler
      | none, none => false
    let l := s.fetchTile core t rows k
    let s := closed ((s.checkTile core handler t rows k).onCore core fun c => c.onMat fun m => m.loadLatch n l)
    match next with
    | some (set, r, rest) => s.startRead core set r rest (m.lastEnd + 1)
    | none => s.onCore core fun c => c.onMat fun m => { m with fin := true }

/-- Lines of the operands in hand that have not been read. -/
def Matrix.unread (m : Matrix) : List (Bool × Nat) :=
  let all := match m.job with
    | none => []
    | some (.step _ r _) =>
      let dims := shapeDims r.shape r.fmt
      (match r.a with | .tile t => t.operandLines dims.1 dims.2.2 | .latch _ => []) ++ r.b.operandLines dims.2.1 dims.2.2
    | some (.load _ t rows k _) => t.operandLines rows k
  all.filter fun a => !(m.seen.any fun l => l.1 == a)

/-- One line can be read or written before the part in hand ends. -/
def Matrix.moves (m : Matrix) : Bool := decide (1 < m.writes.length) || !m.unread.isEmpty

/-- The clock domain freezes at the end of the part in hand, for lines of it have not been granted (R68, R224).
[DESIGN CHOICE, log 34: unsafe] -/
def State.arrayLate (s : State) (core : Nat) : State :=
  s.onCore core fun c =>
    let c := c.advance s.time s.fresh (max c.cycle c.mat.lastEnd)
    if c.stuck then c else c.onMat fun m => { m with late := true }

/-- The last of those lines ends the freeze, which counts as one for bank arbitration (R124, R128). -/
def State.arrayThaw (s : State) (core : Nat) : State :=
  s.onCore core fun c =>
    if c.mat.late && !c.mat.moves then
      let n := BitVec.ofNat 64 (Config.periods s.fresh)
      { c.onMat fun m => { m with late := false } with frozen := c.frozen + n, frzbank := c.frzbank + n }
    else c

/-- One line of the operands in hand is read, or one line of a drain but its last written (R225, R234).
[DESIGN CHOICE, log 34: unsafe] -/
def State.arrayLine (s : State) (core : Nat) : State :=
  let m := (s.core core).mat
  match m.writes with
  | l :: k :: ls =>
    ((s.agentWrite core l.1 l.2.1 l.2.2).onCore core fun c => c.onMat fun m => { m with writes := k :: ls }).arrayThaw core
  | _ =>
    match choose s.fresh 65000 m.unread with
    | some a => (s.readLine core a).arrayThaw core
    | none => s

/-- A part of an operation ends (R224, R230, R234): operands have been read, a drain has written its last line, or the
operation leaves the queue. -/
def State.arrayEnd (s : State) (core : Nat) : State :=
  let m := (s.core core).mat
  if m.job.isSome then s.endJob core
  else if m.stage = 4 then
    let passes := match m.queue.head? with
      | some q => (match q.op with | .nest _ _ _ _ _ _ _ regs _ => some (nestPasses regs) | _ => none)
      | none => none
    (s.putLines core m.writes).onCore core fun c => c.onMat fun m => { m with writes := [] }.drainDone passes
  else s.onCore core fun c => c.opEnded s.time

/-- One check of a drain (R231, R232). -/
def State.drainCheck (s : State) (core set : Nat) (c : TileRef) (drainctl tolt : W64) (q : MatEntry)
    (pass : Nat) : State :=
  let m := (s.core core).mat
  let a := m.set_ set
  let n := classDim (a.cls.getD 3)
  let second := m.stage == 3
  let checked := max m.lastEnd (max q.t0 a.ready) + 60
  match a.classify (a.tolerance tolt) (flagOf drainctl 0) with
  | .pass => s.drainWrite core set c drainctl q pass (checked + 1) []
  | .located b positions elem corrected =>
    (s.onCore core fun d => { d with mat := (d.mat.putSet set b).located positions }).drainWrite core set c drainctl q pass
      (checked + 1 + (if corrected then 8 else 0)) [(elem, flagCC)]
  | .failure =>
    if !second && !flagOf drainctl 1 && a.replayable then
      let s := s.onCore core fun d => { d with mat :=
        { d.mat.putSet set a.zeroed with rply := d.mat.rply + 1, stage := 3, lastEnd := checked } }
      match a.replay with
      | [] => s
      | r :: rs => s.startRead core set r rs (checked + 1)
    else
      (s.spoilTile core c (drainLimit (fieldOf drainctl 8 8) n) (drainLimit (fieldOf drainctl 16 8) n)).mismatch core
        (some set) { reason := if second then 1 else 2, tval := c.tval } q.pc q.handler checked

/-- MATRIX_STEP (R229, R230): one step of the operation in turn starts. -/
def execMatrixStep (core : Nat) (s : State) : Host.Outcome State Fault Refusal :=
  match s.frontOp core with
  | (t, some q) =>
    if (t.core core).mat.ending then .next s
    else match q.op with
    | .step set clr r =>
      let start := (t.core core).mat.startOf q
      .next ((t.onCore core fun c => c.onMat fun m =>
        if clr then m.putSet set ((m.set_ set).cleared (some (matClass r.fmt))) else m).startStep core set r [] start)
    | .nest shape set a b _ _ _ regs bfmt =>
      .next (if (t.core core).mat.stage = 1 then t.nestStep core q shape set a b regs bfmt else s)
    | _ => .next s
  | _ => .next s

/-- STEP_RESULTS_COMPLETE (R224, R229, R234): the flags that come first land, after the results that are due by their cycle
(R124). -/
def execStepResultsComplete (core : Nat) (s : State) : Host.Outcome State Fault Refusal :=
  .next (s.onCore core fun c =>
    match Matrix.firstFlags c.mat.results with
    | none => c
    | some f =>
      let c := c.advance s.time s.fresh (max c.cycle f.due)
      if c.stuck then c
      else (c.onMat fun m => { m with results := m.results.erase f }).landFlags false (if f.handler then 1 else 0) f.pc f.flags
        f.offer)

/-- LATCH_LOAD (R228, R239): a TLATCH starts at a map point. -/
def execLatchLoad (core : Nat) (s : State) : Host.Outcome State Fault Refusal :=
  match s.frontOp core with
  | (t, some q) =>
    if (t.core core).mat.ending then .next s
    else match q.op with
    | .latch n shape x =>
      let t := t.mapRows core
      let start := (t.core core).mat.startOf q
      let dims := shapeDims shape x.fmt
      .next (match t.readHeader core x dims.1 dims.2.2 with
        | (u, some e) => u.operandFault core none e q.pc q.handler start
        | (u, none) => u.beginJob core (.load n x dims.1 dims.2.2 none) (start + latchCycles x dims.1 dims.2.2 - 1))
    | _ => .next s
  | _ => .next s

/-- NEST_PASS (R218, R230, R239): a pass of a nest begins; the first one at a map point. -/
def execNestPass (core : Nat) (s : State) : Host.Outcome State Fault Refusal :=
  match s.frontOp core with
  | (t, some q) =>
    match q.op with
    | .nest _ set _ b _ _ _ regs bfmt =>
      .next (if (t.core core).mat.stage ≠ 0 ∨ (t.core core).mat.ending then s
        else
          let first := (t.core core).mat.pass == 0
          let t := if first then t.mapRows core else t
          t.onCore core fun c => c.onMat fun m =>
            let cls := some (matClass (b.moved bfmt (nestOffset regs m.pass 2)).fmt)
            let a := m.set_ set
            let a := if first && nestUncleared regs then { a with replayable := false }
              else if first || !nestUndrained regs then a.cleared cls else a
            let m := (List.range 5).foldl (fun m i => m.setIdx (i + 1) (nestIndex regs m.pass (i + 1))) (m.putSet set a)
            { m with stage := 1, inner := 0, npass := if first then 0 else m.npass })
    | _ => .next s
  | _ => .next s

/-- DRAIN (R231 to R234): a set is checked, and corrected, replayed or written. [DESIGN CHOICE, log 34: unsafe] -/
def execDrain (core : Nat) (s : State) : Host.Outcome State Fault Refusal :=
  match s.frontOp core with
  | (t, some q) =>
    let m := (t.core core).mat
    if m.ending then .next s
    else match q.op with
    | .drain set c drainctl tolt => .next (t.drainCheck core set c drainctl tolt q 0)
    | .nest _ set _ _ c drainctl tolt regs bfmt =>
      .next (if m.stage < 2 then s
        else t.drainCheck core set (c.moved bfmt (nestOffset regs m.pass 3)) drainctl tolt q m.pass)
    | _ => .next s
  | _ => .next s

/-- MATRIX_CLEAR (R237, R238): a TCLR clears its set; a TROW marks its row. Each takes one cycle (R224). -/
def execMatrixClear (core : Nat) (s : State) : Host.Outcome State Fault Refusal :=
  match s.frontOp core with
  | (t, some q) =>
    let start := (t.core core).mat.startOf q
    let ended (f : Matrix → Matrix) : State := t.onCore core fun c => c.onMat fun m => { f m with fin := true, lastEnd := start }
    match q.op with
    | .clear set => .next (ended fun m => m.putSet set ((m.set_ set).cleared none))
    | .row n => .next (ended fun m => m.mark n)
    | _ => .next s
  | _ => .next s

/-! The words (R227). -/

/-- A pair field of a matrix word is legal (R48, R227). -/
def State.pairOk (s : State) (n : BitVec 5) : Bool := n.toNat != 31 && !(s.here.handlerMode && n.toNat == 15)

/-- DRAINCTL as a word samples it. -/
def State.drainctl (s : State) : W64 := s.cregAt 0x060

/-- The tile that a pair field names. -/
def State.tileOf (s : State) (n : BitVec 5) : TileRef :=
  let lo := s.reg n
  tileAt s.bankFormats (fieldOf s.drainctl 24 4) lo (s.regN (n.toNat + 1)) (fieldOf lo 0 25)

/-- Reasons of R227 that one tile of `m` rows of `n` elements gives. -/
def tileReasons (bfmt : List Byte) (t : TileRef) (m n : Nat) : List Nat :=
  (if accepted t.fmt then [] else [1]) ++ (if t.mixed bfmt m n then [8] else [])

/-- The lowest of some reasons. -/
def lowest : List Nat → Option Nat
  | [] => none
  | a :: l => match lowest l with | none => some a | some b => some (min a b)

/-- The operation of the word in hand with what it samples. -/
def State.matEntry (s : State) (op : MatOp) : MatEntry :=
  { op := op, t0 := s.here.cycle, mode := s.mode, osn := s.osn, src := s.srValue, lidx := s.lidx, pc := s.here.iss.start
    handler := s.here.main.hmode }

/-- An operation joins the queue of the array, and the M pipe's view is updated (R223). -/
def State.enqueueNow (s : State) (op : MatOp) (sr : Bool) (f : Matrix → Matrix) : State :=
  let e := s.matEntry op
  (s.takeSr sr).onHere fun c => c.onMat fun m =>
    let m := if decide (m.lastEnd < c.cycle) then m.popped else m
    { f m with queue := m.queue ++ [e] }

/-- The checks of R227 in their order: the lowest reason, then the first descriptor fault, then room in the queue (R223).
`f` updates the M pipe's view. -/
def State.enqueueOp (s : State) (reasons : List Nat) (faults : List (Bool × W64)) (op : MatOp) (sr : Bool)
    (f : Matrix → Matrix) : State :=
  match lowest reasons with
  | some r => s.illegalWith (BitVec.ofNat 64 r)
  | none =>
    match faults.find? (·.1) with
    | some e => s.misaligned e.2
    | none =>
      if 8 ≤ (s.here.mat.queued s.here.cycle).length then s.stall else s.enqueueNow op sr f

/-- The record of the step of the word in hand. -/
def State.stepRecord (s : State) (shape : Nat) (a : AOperand) (b : TileRef) : StepRec :=
  { shape := shape, fmt := b.fmt, a := a, b := b, mode := s.mode, osn := s.osn, pc := s.here.iss.start
    handler := s.here.main.hmode }

/-- A TMMA whose A operand is `a` (R227, R229); `more` are the reasons and faults of that operand. -/
def State.tmma (s : State) (shape acc : Nat) (clr : Bool) (a : AOperand) (b : TileRef) (bt : W64)
    (more : List Nat) (faults : List (Bool × W64)) : State :=
  let dims := shapeDims shape b.fmt
  let m := s.here.mat
  let cls := matClass b.fmt
  let reasons := more ++ tileReasons s.bankFormats b dims.2.1 dims.2.2 ++
    (if isMx b.fmt && shape == 0 then [3] else []) ++
    (if !clr && m.viewClass.getD acc none != some cls then [6] else [])
  s.enqueueOp reasons (faults ++ [(b.faulty dims.2.1 dims.2.2, bt)]) (.step acc clr (s.stepRecord shape a b)) false
    fun m => if clr then { m with viewClass := m.viewClass.set acc (some cls) } else m

/-- TMMA with A from a descriptor pair (R229). -/
def execTmma (sh : BitVec 3) (acc : BitVec 2) (a b : BitVec 5) (r : BitVec 1) (s : State) :
    Host.Outcome State Fault Refusal :=
  let x := s.tileOf a
  let y := s.tileOf b
  let dims := shapeDims sh.toNat x.fmt
  .next (s.mainOnly (if !s.pairOk a || !s.pairOk b then s.illegal
    else s.tmma sh.toNat acc.toNat (r == 1) (.tile x) y (s.reg b)
      (tileReasons s.bankFormats x dims.1 dims.2.2 ++ (if x.fmt = y.fmt then [] else [2]))
      [(x.faulty dims.1 dims.2.2, s.reg a)]))

/-- TMMA with A from a latch (R229). -/
def execTmmaLatch (sh : BitVec 3) (acc l : BitVec 2) (b : BitVec 5) (r : BitVec 1) (s : State) :
    Host.Outcome State Fault Refusal :=
  let y := s.tileOf b
  let dims := shapeDims sh.toNat y.fmt
  let held := s.here.mat.viewLatch.getD l.toNat none == some (y.fmt, dims.1, dims.2.2)
  .next (s.mainOnly (if !s.pairOk b then s.illegal
    else s.tmma sh.toNat acc.toNat (r == 1) (.latch l.toNat) y (s.reg b) (if held then [] else [5]) []))

/-- TLATCH (R228). -/
def execTlatch (sh : BitVec 3) (l : BitVec 2) (a : BitVec 5) (s : State) : Host.Outcome State Fault Refusal :=
  let x := s.tileOf a
  let dims := shapeDims sh.toNat x.fmt
  let reasons := tileReasons s.bankFormats x dims.1 dims.2.2 ++
    (if isMx x.fmt && sh == 0 then [3] else []) ++
    (if 65536 < dims.1 * dims.2.2 * elemBits x.fmt / 8 then [4] else [])
  .next (s.mainOnly (if !s.pairOk a then s.illegal
    else s.enqueueOp reasons [(x.faulty dims.1 dims.2.2, s.reg a)] (.latch l.toNat sh.toNat x) false
      fun m => { m with viewLatch := m.viewLatch.set l.toNat (some (x.fmt, dims.1, dims.2.2)) }))

/-- Reasons of R227 about a destination. -/
def State.drainReasons (s : State) (c : TileRef) (m n : Nat) : List Nat :=
  let nlim := fieldOf s.drainctl 16 8
  tileReasons s.bankFormats c m n ++ (if isMx c.fmt && nlim != 0 && nlim % 32 != 0 then [3] else [])

/-- TDRAIN (R231). -/
def execTdrain (acc : BitVec 2) (a : BitVec 5) (s : State) : Host.Outcome State Fault Refusal :=
  let c := s.tileOf a
  let view := s.here.mat.viewClass.getD acc.toNat none
  let n := classDim (view.getD 3)
  let mw := drainLimit (fieldOf s.drainctl 8 8) n
  let nw := drainLimit (fieldOf s.drainctl 16 8) n
  .next (s.mainOnly (if !s.pairOk a then s.illegal
    else s.enqueueOp (s.drainReasons c mw nw ++ (if view.isNone then [7] else [])) [(c.faulty mw nw, s.reg a)]
      (.drain acc.toNat c s.drainctl (s.cregAt 0x061)) true id))

/-- A tile of a nest at its offset, or none where it would begin below its space. -/
def TileRef.nested (t : TileRef) (bfmt : List Byte) (offset : Int) : Option TileRef :=
  if (t.base : Int) + offset < 0 then none else some (t.moved bfmt offset)

/-- A descriptor fault of a nest's tile: of its descriptor, or of a line outside its space (R130, R214, R230). -/
def TileRef.nestFaulty (t : TileRef) (bfmt : List Byte) (offset : Int) (m n : Nat) : Bool :=
  match t.nested bfmt offset with
  | none => true
  | some u => u.faulty m n

/-- The passes of a nest with their level-0 indices, step by step (R230). -/
def nestSteps (regs : List W64) : List (Nat × Nat) :=
  (List.range (nestPasses regs)).flatMap fun p => (List.range (nestCount regs 0)).map fun i => (p, i)

/-- The class that a pass of a nest gives its set: that of its first step (R230). -/
def nestClass (bfmt : List Byte) (y : TileRef) (regs : List W64) (pass : Nat) : Nat :=
  matClass (y.moved bfmt (nestOffset regs (if nestUndrained regs then 0 else pass) 2)).fmt

/-- Reasons of R227 that the steps of a nest give, each with the formats of its own banks (R126, R227). -/
def stepReasons (bfmt : List Byte) (sh : Nat) (x y : TileRef) (regs : List W64) : List Nat :=
  (nestSteps regs).flatMap fun e =>
    let a := x.moved bfmt (stepOffset regs e.1 e.2 1)
    let b := y.moved bfmt (stepOffset regs e.1 e.2 2)
    let d := shapeDims sh b.fmt
    tileReasons bfmt a d.1 d.2.2 ++ tileReasons bfmt b d.2.1 d.2.2 ++ (if a.fmt = b.fmt then [] else [2]) ++
      (if isMx b.fmt && sh == 0 then [3] else []) ++ (if matClass b.fmt = nestClass bfmt y regs e.1 then [] else [6])

/-- The nest registers by which the tiles that a TGO names are checked: a level with a COUNT of 0, which makes the word illegal by
reason 9, counts as one iteration, so that a lower reason of these tiles is found (R227). -/
def nestNamed (regs : List W64) : List W64 :=
  regs.zipIdx.map fun r => if r.2 % 4 = 0 ∧ fieldOf r.1 0 24 = 0 then r.1 + 1 else r.1

/-- TGO (R230). Each tile of the nest is checked with the format of its own bank; without drains there is no destination to
check. [DEDUCED, log 33: unsafe; DEDUCED, log 35: unsafe] -/
def execTgo (sh : BitVec 3) (acc : BitVec 2) (a b p : BitVec 5) (s : State) : Host.Outcome State Fault Refusal :=
  let x := s.tileOf a
  let y := s.tileOf b
  let z := s.tileOf p
  let regs := (List.range 24).map fun i => s.cregAt (0x100 + i)
  let bfmt := s.bankFormats
  let named := nestNamed regs
  let passes := if nestUndrained regs then [] else List.range (nestPasses named)
  let size (pass k : Nat) : Nat := drainLimit (fieldOf s.drainctl k 8) (classDim (nestClass bfmt y named pass))
  let dims (e : Nat × Nat) : Nat × Nat × Nat := shapeDims sh.toNat (y.moved bfmt (stepOffset regs e.1 e.2 2)).fmt
  let zero := (List.range 6).any fun l => nestCount regs l == 0
  let uneven := (List.range 24).any fun i => i % 4 != 0 && i != 3 && fieldOf (regs.getD i 0) 0 6 != 0
  let reasons := stepReasons bfmt sh.toNat x y named ++
    (passes.flatMap fun e => s.drainReasons (z.moved bfmt (nestOffset named e 3)) (size e 8) (size e 16)) ++
    (if nestUncleared regs && s.here.mat.viewClass.getD acc.toNat none != some (nestClass bfmt y regs 0) then [6] else []) ++
    (if zero || uneven then [9] else [])
  let faults :=
    [((nestSteps regs).any fun e => x.nestFaulty bfmt (stepOffset regs e.1 e.2 1) (dims e).1 (dims e).2.2, s.reg a),
     ((nestSteps regs).any fun e => y.nestFaulty bfmt (stepOffset regs e.1 e.2 2) (dims e).2.1 (dims e).2.2, s.reg b),
     (passes.any fun e => z.nestFaulty bfmt (nestOffset named e 3) (size e 8) (size e 16), s.reg p)]
  .next (s.mainOnly (if !s.pairOk a || !s.pairOk b || !s.pairOk p then s.illegal
    else s.enqueueOp reasons faults (.nest sh.toNat acc.toNat x y z s.drainctl (s.cregAt 0x061) regs bfmt) true
      fun m => { m with
        active := regs, viewClass := m.viewClass.set acc.toNat (some (nestClass bfmt y regs (nestPasses regs - 1))) }))

/-- The result word of TWAIT and TSTAT (R236). -/
def Matrix.word (m : Matrix) (qlen : Nat) : Nat :=
  let bitsOf (p : Nat → Bool) : Nat := ((List.range 4).map fun n => bitAt (p n) n).foldl (· + ·) 0
  let latch (n : Nat) : Option Latch := m.latches.getD n none
  2 ^ 52 * qlen + 2 ^ 48 * bitsOf (fun n => (latch n).any (·.stale)) + 2 ^ 44 * bitsOf (fun n => (latch n).isSome) +
    2 ^ 40 * bitsOf (fun n => (m.set_ n).replayable) + 2 ^ 32 * min m.corr 255 + 2 ^ 24 * min m.rply 255 +
    2 ^ 20 * m.lasterr + bitAt m.spx 19 + 2 ^ 16 * m.spares + min m.npass 65535

/-- TWAIT (R235): it does not issue before every earlier operation has ended. -/
def execTwait (d l : BitVec 5) (s : State) : Host.Outcome State Fault Refusal :=
  let m := s.here.mat
  .next (s.mainOnly (if !(m.queued s.here.cycle).isEmpty then
      s.stall.onHere fun c => c.onMat fun m => { m with awaited := some c.main.hmode }
    else if 64 ≤ s.here.buffered then s.freezeFull
    else (s.timedNow (s.here.sPort d.toNat) 8 l.toNat (m.word 0)).onHere fun c =>
      c.onMat fun m => { m with corr := 0, rply := 0, lasterr := 0, awaited := none }))

/-- TSTAT (R235). -/
def execTstat (d l : BitVec 5) (s : State) : Host.Outcome State Fault Refusal :=
  let m := s.here.mat
  .next (s.mainOnly (s.timed (s.here.sPort d.toNat) 8 l.toNat (m.word (m.queued s.here.cycle).length)))

/-- TCLR (R237). -/
def execTclr (acc : BitVec 2) (s : State) : Host.Outcome State Fault Refusal :=
  .next (s.mainOnly (s.enqueueOp [] [] (.clear acc.toNat) false id))

/-- TROW (R238). -/
def execTrow (a : BitVec 5) (s : State) : Host.Outcome State Fault Refusal :=
  let n := (s.reg a).toNat
  .next (s.mainOnly (if 131 < n then s.illegalWith (s.reg a)
    else s.enqueueOp [] [] (.row n) false id))

end Sys2Proof.Machine
end

