-- ==== Sys2Proof/Machine/Sched.lean ====
section
/-! DEFINITION. What a core does between bundles: pick-up of records (R18, R24, R27, R30 to R34, R114), landings and freezes
(R66, R68), trap entry (R260), message-handler starts (R120, R308), the hang watchdog (R270, R271), and pre-emption of a
core (R272 to R275). -/

namespace Sys2Proof.Machine

/-! Choosing a record (R30 to R34, R114). -/

/-- A level of a bucket holds a record. -/
def filled (levels : List (List Record)) (n : Nat) : Bool := !(levels.getD n []).isEmpty

/-- The level that a bucket serves (R30): the highest starving one, else the highest one that is not empty. -/
def servedLevel (levels : List (List Record)) (waits : List Nat) : Option Nat :=
  match [2, 1, 0].find? (fun n => filled levels n && decide (4096 ≤ waits.getD n 0)) with
  | some n => some n
  | none => [3, 2, 1, 0].find? (filled levels)

/-- choose_level of R30: the record taken, the levels without it, and the wait counts. -/
def chooseLevel (levels : List (List Record)) (waits : List Nat) :
    Option (Record × List (List Record) × List Nat) :=
  match servedLevel levels waits with
  | none => none
  | some n =>
    match levels.getD n [] with
    | [] => none
    | r :: rest =>
      let after := levels.set n rest
      let count (k w : Nat) : Nat := if k = n then 0 else if k < n && filled levels k then w + 1 else w
      some (r, after, (List.range 3).map fun k => if filled after k then count k (waits.getD k 0) else 0)

/-- A pick from a bucket, numbered die × 20 + v; every pick counts (R30). -/
def State.takeBucket (s : State) (b : Nat) : Option (Record × State) :=
  let d := s.die (b / 20)
  match chooseLevel (d.buckets.getD (b % 20) []) (d.waits.getD (b % 20) []) with
  | none => none
  | some (r, levels, waits) =>
    some (r, s.setDie (b / 20) { d with buckets := d.buckets.set (b % 20) levels, waits := d.waits.set (b % 20) waits })

/-- Draws of victims among the buckets not yet tried (R31): the first one that yields a record.
[DESIGN CHOICE, log 111: safe] -/
def State.steal (s : State) (code : Nat) : Nat → List Nat → Option (Record × State)
  | 0, _ => none
  | n + 1, bs =>
    match bs[Config.choice s.fresh (code + n) % bs.length]? with
    | none => none
    | some b =>
      match s.takeBucket b with
      | some r => some r
      | none => State.steal s code n (bs.erase b)

/-- Search in free mode after the local slot (R31). [DESIGN CHOICE, log 111: safe] -/
def State.searchFree (s : State) (core : Nat) : Option (Record × State) :=
  let own := clusterOf core
  match s.takeBucket own with
  | some r => some r
  | none =>
    match s.steal 51000 4 ((List.range 160).filter fun b => b / 20 == own / 20 && b != own) with
    | some r => some r
    | none => s.steal 52000 2 ((List.range 160).filter fun b => b / 20 != own / 20)

/-- Search in deterministic mode after the local slot (R33). -/
def State.searchFixed (s : State) (core : Nat) : Option (Record × State) :=
  let c := s.core core
  let post := chooseLevel c.posts c.postWait
  let best := [3, 2, 1, 0].find? (filled c.posts)
  match c.plan with
  | p :: rest =>
    if best.all (fun n => decide (n ≤ p.prio)) then some (p, s.setCore core { c with plan := rest })
    else post.map fun x => (x.1, s.setCore core { c with posts := x.2.1, postWait := x.2.2 })
  | [] => post.map fun x => (x.1, s.setCore core { c with posts := x.2.1, postWait := x.2.2 })

/-- Every runnable record of the launch (R114). -/
def State.runnable (s : State) : List Record :=
  s.dies.flatMap (fun d => (d.2.buckets.flatMap fun b => b.flatMap id)) ++
    s.cores.flatMap (fun c => c.2.slot ++ c.2.plan ++ c.2.posts.flatMap id)

/-- The record of the lowest logical index. -/
def lowestIndex : List Record → Option Record
  | [] => none
  | r :: rs => match lowestIndex rs with
    | none => some r
    | some q => if q.lidx < r.lidx then some q else some r

/-- A record taken from wherever it stands. -/
def State.unplace (s : State) (r : Record) : State :=
  { s with
    dies := s.dies.map fun d => (d.1, { d.2 with buckets := d.2.buckets.map fun b => b.map fun l => l.erase r })
    cores := s.cores.map fun c =>
      (c.1, { c.2 with slot := c.2.slot.erase r, plan := c.2.plan.erase r, posts := c.2.posts.map fun l => l.erase r }) }

/-- A strand holds the core. -/
def Core.holds (c : Core) : Bool :=
  match c.act with
  | .running => true
  | .leaving _ => true
  | .asking _ => true
  | .saved _ => c.strand.isSome
  | _ => false

/-- The strand of the core is pinned. [DEDUCED, log 17: unsafe] -/
def Core.isPinned (c : Core) : Bool := match c.act with | .pinned _ => true | _ => false

/-- The choice of serial re-execution (R114): the lowest index whose core holds no pinned strand, while no strand runs. -/
def State.serialChoice (s : State) : Option Record :=
  if s.cores.any (fun c => c.2.holds) then none
  else lowestIndex (s.runnable.filter fun r => !(s.core (r.lidx.toNat % 640)).isPinned)

/-- The record that an idle core takes; of several in its local slot the oldest one (R27).
[DESIGN CHOICE, log 114: unsafe] -/
def State.findWork (s : State) (core : Nat) : Option (Record × State) :=
  match s.hub.launch with
  | none => none
  | some l =>
    if l.serial then
      match s.serialChoice with
      | some r => if r.lidx.toNat % 640 = core then some (r, s.unplace r) else none
      | none => none
    else
      let c := s.core core
      match c.slot with
      | r :: rest => some (r, s.setCore core { c with slot := rest })
      | [] => if s.fixedPlaces then s.searchFixed core else s.searchFree core

/-- Words 6 to 15 of a record as transom data (R356). -/
def Record.tail (r : Record) : Nat := wordsToNat (r.words.drop 6)

/-- A record that can not be run (R18): two transom entries and a die machine check. -/
def State.badRecord (s : State) (core : Nat) (r : Record) : State :=
  let die := dieOfCore core
  let s := s.dieEvent die 0x09 core (wordsToNat (r.words.take 6))
  (s.dieEvent die 0x09 core r.tail).dieCheck die 4 0

/-- Registers that hold unspecified values at a pick-up (R12, R24); the handler bank h is no part of them.
[DESIGN CHOICE, log 110: safe] -/
def Core.scrambled (c : Core) (fresh : Nat) : Core :=
  let free (p : Port) : Vec := Config.freeWord fresh 0 (6000 + p.code)
  { c with
    s := (List.range 32).map fun n => if n < 8 then c.s.getD n 0 else (free (.s n)).setWidth 64
    p := (List.range 8).map fun n => (free (.p n)).getLsbD 0
    x := (List.range 32).map fun n => free (.x n)
    y := (List.range 32).map fun n => free (.y n)
    k := (List.range 8).map fun n => (free (.k n)).setWidth 64
    lc := (List.range 2).map fun n => (Config.freeWord fresh 0 (6400 + n)).setWidth 32 }

/-- The array at a pick-up: no latch and no set holds anything that the strand could use (R24, R217). -/
def Matrix.fresh (m : Matrix) : Matrix :=
  { m with
    latches := [none, none, none, none], sets := [AccSet.reset, AccSet.reset, AccSet.reset, AccSet.reset]
    viewLatch := [none, none, none, none], viewClass := [none, none, none, none] }

/-- MODE of a record with the launch's DET (R24). -/
def Record.startMode (r : Record) (det : Bool) : W64 := BitVec.ofNat 64 (r.mode.toNat % 2 ^ 31 + bitAt det 31)

/-- The digest is seeded anew at the first pick-up in a phase (R106). -/
def StatusBlock.enterPhase (b : StatusBlock) (launch : W64) (phase mode : W32) : StatusBlock :=
  if b.seeded && b.dphase == phase then b else b.seed launch phase mode

/-- The core runs a record (R24, R106, R217, R244, R270, R335). -/
def State.start (s : State) (core : Nat) (r : Record) (l : Launch) : State :=
  let n := r.dslot.toNat
  let mode := r.startMode l.det
  let s := s.onStatus n fun b => b.enterPhase l.ident (BitVec.ofNat 32 l.phase) (mode.setWidth 32)
  let (src, osn) := match s.statusBlock n with | some b => (b.src, b.osn) | none => (0, 0)
  let s := s.onLaunch fun l => l.ranBy r.lidx n
  let s := s.onCore core fun c =>
    let c := c.scrambled s.fresh
    let at_ := c.cycle + Config.periods s.fresh
    let keep := c.tableSet == some r.rset.toNat
    let c := { c with
      badRegs := c.badRegs.filter (8 ≤ ·)
      s := (List.range 32).map fun i => if i < 8 then (r.args.getD i 0).setWidth 64 else c.s.getD i 0
      main := { c.main with
        mode := mode, lidx := r.lidx, xflags := 0, xelem := none, osn := osn, src := src, pc := r.rpc.toNat, origin := 5
        from_ := r.rpc.toNat, window := 0, since := s.nextId, rcount := 0, rfail := [] }
      table := if keep then c.table else [], tableSet := some r.rset.toNat, savedSet := none
      mat := c.mat.fresh, loop := Loop.reset, iss := Issue.reset, strand := some { r with state := 1 }, act := .running
      cycle := at_, issueAt := at_ + 1, idleUntil := 0, wdStart := s.time, wdHeld := false
      unmerged := 0, unmergedOffer := none, merged := false }
    c.record s.fresh s.time 9 c.main.pc 0
  s.mapRows core

/-- Pick-ups are possible (R93, R398). -/
def State.picksUp (s : State) : Bool :=
  s.hub.launch.isSome && !s.hub.hold && s.hub.pstate == 0 && s.hub.waiting.isEmpty

/-- PICKUP (R24, R31, R33, R114): an idle core takes a record and starts it; where it finds none it waits 256 cycles.
[DEDUCED, log 6: safe] -/
def execPickup (core : Nat) (s : State) : Host.Outcome State Fault Refusal :=
  if 640 ≤ core then .fault (.noSuchUnit core)
  else if (s.core core).act ≠ .idle ∨ (s.core core).inHandler ∨ !s.picksUp then .next s
  else match s.findWork core, s.hub.launch with
    | some (r, t), some l => .next (if 4 ≤ r.kind ∨ 8 ≤ r.state then t.badRecord core r else t.start core r l)
    | _, _ => .next (s.onCore core fun c => { c with idleUntil := c.cycle + 256 })

/-- IDLE_RETRY (R31): the wait is over, and the core searches again. -/
def execIdleRetry (core : Nat) (s : State) : Host.Outcome State Fault Refusal :=
  if 640 ≤ core then .fault (.noSuchUnit core)
  else .next (s.onCore core fun c => { c with cycle := max c.cycle c.idleUntil, idleUntil := 0 })

/-! Landings (R66, R68). -/

/-- The entry of the earliest result that waits in the threshold buffer frees, and with it the freeze of a core for a full
buffer ends (R67); its register holds the result from its landing cycle on. [DEDUCED, log 21: unsafe] -/
def Core.freeEntry (c : Core) : Core :=
  match firstLanding (c.landings.filter fun l => l.timed && l.arrived) with
  | some l => { c with full := false, landings := c.landings.map fun m => if m = l then { l with timed := false } else m }
  | none => c

/-- TIMED_LANDING (R66): the result that is due next is delivered at its landing cycle. In a core whose clock domain is
frozen for a full threshold buffer an entry frees (R67). -/
def execTimedLanding (core : Nat) (s : State) : Host.Outcome State Fault Refusal :=
  if 640 ≤ core then .fault (.noSuchUnit core)
  else .next (s.onCore core fun c =>
    if c.full then c.freeEntry
    else match firstLanding c.landings with
      | some l => c.advance s.time s.fresh (max c.cycle l.due)
      | none => c)

/-- Periods of a freeze have passed: they are counted, and results whose data has come by then have arrived (R68, R124). -/
def Core.thaw (c : Core) (periods : Nat) (bank : Bool) : Core :=
  let n := BitVec.ofNat 64 periods
  let now := c.period + periods
  { c with
    landings := c.landings.map fun l =>
      if l.id = 0 ∧ l.wants = [] ∧ l.ready ≤ now then { l with arrived := true } else l
    frozen := c.frozen + n, frzbank := if bank then c.frzbank + n else c.frzbank }

/-- LATE_DATA_ARRIVAL (R68, R124): the data that came late is there; the periods of the freeze are counted, and those for
which bank arbitration held the datum back (R128) a second time. -/
def execLateDataArrival (core periods : Nat) (bank : Bool) (s : State) : Host.Outcome State Fault Refusal :=
  if 640 ≤ core then .fault (.noSuchUnit core)
  else .next (s.onCore core fun c => c.thaw periods bank)

/-! Traps and the message handler (R120, R260, R266, R308). -/

/-- TRAP_ENTRY (R260, R261): at a bundle boundary everything in flight lands and the request of highest priority enters. A
pinned main context has no boundary until it resumes. -/
def execTrapEntry (core : Nat) (s : State) : Host.Outcome State Fault Refusal :=
  if 640 ≤ core then .fault (.noSuchUnit core)
  else
    let c := s.core core
    .next (if c.act = .halted ∨ (c.isPinned ∧ !c.inHandler) then s
      else (s.onCore core fun c => { c with saveStart := none }).tryEntry core)

/-- The message-handler context begins (R266, R276, R308): its registers, entry point and level, and its trace entry. No rule
gives the XCODE of a fetch fault at HVEC, for which origin 6 stands. [DESIGN CHOICE, log 115: safe] -/
def Core.startHandler (c : Core) (fresh time : Nat) (q : Nat) (header : W64) : Core :=
  let x := c.hand
  let c := { (c.cleanReg 128).cleanReg 129 with
    inHandler := true
    ms := (c.ms.set 0 (BitVec.ofNat 64 q)).set 1 header
    hand := { x with
      pc := fieldOf (c.queue q).desc 32 32, origin := 6, from_ := fieldOf (c.queue q).desc 32 32, tack := true
      hmode := false, bank1 := { x.bank1 with v := false }, bank2 := { x.bank2 with v := false } }
    wdStart := if c.strand.isSome then c.wdStart else time
    wdHeld := c.strand.isSome && c.wdHeld
    issueAt := c.cycle + 1 }
  c.record fresh time 10 c.hand.pc 0

/-- The core may start its message handler (R120, R272, R274). -/
def Core.canStart (c : Core) : Bool :=
  !c.starts.isEmpty && !c.inHandler && c.saveStart.isNone && c.held.isNone &&
    (match c.act with
     | .running => true
     | .pinned _ => true
     | .idle => true
     | .leaving _ => c.main.hmode
     | _ => false)

/-- MESSAGE_HANDLER_START (R120, R308): the main context drains, then the oldest start is taken. -/
def execMessageHandlerStart (core : Nat) (s : State) : Host.Outcome State Fault Refusal :=
  if 640 ≤ core then .fault (.noSuchUnit core)
  else if !(s.core core).canStart then .next s
  else
    let c := s.core core
    let c := c.advance s.time s.fresh (max c.cycle c.lastDue)
    .next (match c.landings.isEmpty, c.starts with
      | true, (q, h) :: rest => s.setCore core ({ c with starts := rest }.startHandler s.fresh s.time q h)
      | _, _ => s.setCore core c)

/-! The hang watchdog (R270, R271). -/

/-- The watchdog counts (R270): a strand or a handler run, and no save or restore. -/
def Core.wdCounts (c : Core) : Bool :=
  (c.strand.isSome || c.inHandler) && c.saveStart.isNone &&
    (match c.act with
     | .halted => false
     | .saved _ => false
     | _ => true)

/-- The period has passed. -/
def State.wdDue (s : State) (core : Nat) : Bool :=
  let c := s.core core
  c.wdCounts && decide (c.wdStart + 1000 * c.wdPeriod.toNat ≤ s.time)

/-- The request of an expiry (R259); no rule names its TBUNDLE. [DEDUCED, log 20: safe] -/
def State.wdRequest (s : State) : Request :=
  { code := 2, tval := BitVec.ofNat 64 s.time, tbundle := (Config.freeWord s.fresh 0 9400).toNat % 2 ^ 32, xcode := 0,
    deferred := true, epc := none, level := 0 }

/-- The report of a pinned strand whose period has passed (R88, R271): once for each pin. -/
def State.reportPin (s : State) (core : Nat) : State :=
  let r := s.scanPin core true
  r.1.reportWaits (dieOfCore core) (r.2.map fun d => (core, d))

/-- WATCHDOG_EXPIRY (R271). -/
def execWatchdogExpiry (core : Nat) (s : State) : Host.Outcome State Fault Refusal :=
  if 640 ≤ core then .fault (.noSuchUnit core)
  else if !s.wdDue core then .next s
  else
    let c := s.core core
    let again := s.onCore core fun c => { c with wdStart := s.time }
    let asked := again.onCore core fun c => c.request s.wdRequest
    let waits := c.stuck || c.full || c.iss.mark == .stalled || c.suspending
    .next (if c.handlerMode then
        (if c.wdHeld then s.haltCore core else asked.onCore core fun c => { c with wdHeld := true })
      else if c.isPinned then again.reportPin core
      else if waits then
        (if c.wdHeld then s.haltCore core else asked.onCore core fun c => { c with wdHeld := true })
      else asked)

/-! Pre-emption of a core (R272 to R275). -/

/-- Every copy engine of a cluster has acknowledged (R272). [DESIGN CHOICE, log 55: unsafe] -/
def State.copyStopped (s : State) (cluster : Nat) : Bool :=
  (List.range 8).all fun e => s.hub.acks.contains (copyEngine cluster e)

/-- The sequencer runs a drain that has not written yet: it has started by this cycle (R224, R226). -/
def Matrix.drains (m : Matrix) (cycle : Nat) : Bool :=
  match m.waiting with
  | q :: _ => (match q.op with | .drain _ _ _ _ => decide (m.startOf q ≤ cycle) | _ => false)
  | [] => false

/-- The macro-sequencer stands at an interruption point (R226, R399): between operations or level-0 iterations, with no
step, load or drain under way. -/
def Matrix.atPoint (m : Matrix) (wholePass : Bool) (cycle : Nat) : Bool :=
  m.job.isNone && m.stage != 4 && !m.drains cycle &&
    (m.queue.isEmpty || m.fin || m.stage == 0 || (m.stage == 1 && !wholePass))

/-- PGT.MAT: a nest stops only after a whole pass. -/
def State.wholePass (s : State) : Bool := fieldOf s.hub.pgtNow 4 4 == 1

/-- The core may serve a pre-emption at its boundary (R272); a suspension under way completes first (R86). -/
def Core.canSave (c : Core) : Bool :=
  c.preempt && !c.handlerMode && c.held.isNone &&
    (match c.act with
     | .asking _ => false
     | .leaving _ => false
     | .saved _ => false
     | _ => true)

/-- Base of the save area of a core (R393). -/
def Launch.saveOf (l : Launch) (core : Nat) : Nat := l.saveBase + core * 8804 * 1024

/-- The registers of the second page of a save area as doublewords, in the order in which R273 names them: s, both banks of h, the
message handler's s and p, then p, k and lc. [DEDUCED, log 93: unsafe] -/
def Core.scalars (c : Core) : List W64 :=
  let flags (l : List Bool) : List W64 := (l.drop 1).map fun p => BitVec.ofNat 64 (bitAt p 0)
  c.s ++ c.h ++ c.mh ++ c.ms ++ flags c.mp ++ flags c.p ++ c.k.drop 1 ++ c.lc.map (·.setWidth 64)

/-- What stands at an offset of a save area whose layout no rule gives: free bytes of the step that wrote it.
[DEDUCED, log 93: unsafe] -/
def unlaid (mark offset n : Nat) : List Byte :=
  (List.range n).map fun i => (Config.freeWord mark 9600 (offset + i)).setWidth 8

/-- Where the parts without a layout stand (R273): the record with PC, requests, loop state and control registers; the rest of the
scalar registers' page; the loop buffer; the latches; the accumulator sets; the matrix queue with NEST, DRAINCTL and TOLT. -/
def unlaidParts : List (Nat × Nat) :=
  [(0, 0x1000), (0x1338, 0xCC8), (0x3000, 0x4000), (0x7000, 0x48000), (0x4F000, 0x48000), (0x97000, 0x2000)]

/-- The save area of a core is written (R273). [DEDUCED, log 93: unsafe] -/
def State.writeSave (s : State) (core : Nat) : State :=
  match s.hub.launch with
  | none => s
  | some l =>
    let c := s.core core
    let a := l.saveOf core
    let s := unlaidParts.foldl (fun s p => s.putDevice (a + p.1) (unlaid s.fresh p.1 p.2)) s
    let s := s.putDevice (a + 0x1000) (c.scalars.flatMap fun v => natToBytes 8 v.toNat)
    let s := s.putDevice (a + 0x2000) ((c.x ++ c.y).flatMap fun v => natToBytes 64 v.toNat)
    s.putDevice (a + 0x99000) (Memory.read c.scratch 0 8388608)

/-- A free word that stands for what a core takes from a part of its save area that has changed. -/
def lostWord (fresh n : Nat) : Vec := Config.freeWord fresh 9700 n

/-- Some of the entries of a list, which ones is free. -/
def lostSome {α : Type} (fresh n : Nat) (l : List α) : List α :=
  (l.zipIdx.filter fun x => (lostWord fresh (n + x.2)).getLsbD 0).map (·.1)

/-- A cause bank from a changed part. -/
def Bank.lost (b : Bank) (fresh n : Nat) : Bank :=
  let f (i : Nat) : Vec := lostWord fresh (n + i)
  { b with
    epc := (f 0).setWidth 32, v := (f 1).getLsbD 0, xcode := (f 2).setWidth 8, pend := (f 3).setWidth 16
    deferred := (f 4).getLsbD 0, code := (f 5).setWidth 5, tval := (f 6).setWidth 64, tbundle := (f 7).setWidth 32 }

/-- The control registers of a context from a changed part (R121, R273). -/
def Ctx.lost (x : Ctx) (fresh n : Nat) : Ctx :=
  let f (i : Nat) : Vec := lostWord fresh (n + i)
  { x with
    mode := (f 0).setWidth 64, xflags := (f 1).setWidth 8, xelem := none, lidx := (f 2).setWidth 64
    bank1 := x.bank1.lost fresh (n + 10), bank2 := x.bank2.lost fresh (n + 20), tvec := (f 3).setWidth 32
    hstk := (f 4).setWidth 23, tack := (f 5).getLsbD 0, hmode := (f 6).getLsbD 0, suspp := (f 7).getLsbD 0
    pc := (f 8).toNat % 2 ^ 32 }

/-- A core whose record, PC, requests, loop state and control registers come from a changed page.
[DEDUCED, log 93: unsafe] -/
def Core.lostContext (c : Core) (fresh : Nat) : Core :=
  let f (i : Nat) : Vec := lostWord fresh i
  { c with
    main := c.main.lost fresh 0, hand := c.hand.lost fresh 40, requests := lostSome fresh 100 c.requests
    loop := { c.loop with
      active := (f 80).getLsbD 0, sel := (f 81).getLsbD 0, count := (f 82).toNat % 64, pos := (f 83).toNat % 64
      next := (f 84).toNat % 2 ^ 32 }
    strand := c.strand.map fun r => { r with
      rpc := (f 85).setWidth 32, lidx := (f 86).setWidth 64, phase := (f 87).setWidth 32, mode := (f 88).setWidth 32
      args := (List.range 8).map fun i => (f (90 + i)).setWidth 32 } }

/-- A core whose loop buffer comes from changed pages. -/
def Core.lostLoop (c : Core) (fresh : Nat) : Core :=
  { c with loop := { c.loop with body := c.loop.body.map fun b =>
      (b.1, b.2.zipIdx.map fun w => (Config.freeWord fresh (9710 + b.1) w.2).setWidth 32) } }

/-- Rows of numbers from changed pages. -/
def lostRows (fresh slot : Nat) (rows : List (List W64)) : List (List W64) :=
  rows.zipIdx.map fun r => r.1.zipIdx.map fun w => (Config.freeWord fresh (slot + r.2) w.2).setWidth 64

/-- Latches from changed pages. -/
def Matrix.lostLatches (m : Matrix) (fresh : Nat) : Matrix :=
  { m with latches := m.latches.zipIdx.map fun x => x.1.map fun l => { l with
      data := l.data.zipIdx.map fun r => r.1.zipIdx.map fun b =>
        (Config.freeWord fresh (20000 + 1000 * x.2 + r.2) b.2).setWidth 8
      tscale := (lostWord fresh (300 + x.2)).setWidth 32
      csum := (lostRows fresh (24000 + x.2) [l.csum]).flatMap id } }

/-- Accumulator sets from changed pages. -/
def Matrix.lostSets (m : Matrix) (fresh : Nat) : Matrix :=
  { m with sets := m.sets.zipIdx.map fun x => { x.1 with
      c := lostRows fresh (30000 + 1000 * x.2) x.1.c, rc := (lostRows fresh (34000 + x.2) [x.1.rc]).flatMap id
      cc := (lostRows fresh (35000 + x.2) [x.1.cc]).flatMap id, corner := (lostWord fresh (310 + x.2)).setWidth 64 } }

/-- The matrix queue, the replay records and the registers beside them from changed pages. -/
def Matrix.lostQueue (m : Matrix) (fresh : Nat) : Matrix :=
  let regs (n : Nat) (l : List W64) : List W64 := (lostRows fresh n [l]).flatMap id
  { m with
    queue := lostSome fresh 400 m.queue, shadow := regs 36000 m.shadow, active := regs 36001 m.active
    drainctl := (lostWord fresh 320).setWidth 64, tolt := (lostWord fresh 321).setWidth 64
    sets := m.sets.map fun a => { a with replay := lostSome fresh 500 a.replay } }

/-- The registers that a core reads back from the second page of its save area. -/
def Core.withScalars (c : Core) (w : Nat → W64) : Core :=
  let regs (first n : Nat) : List W64 := (List.range n).map fun i => w (first + i)
  let flags (first : Nat) : List Bool := false :: (regs first 7).map fun v => v.getLsbD 0
  { c with
    s := regs 0 32, h := regs 32 16, mh := regs 48 16, ms := regs 64 16, mp := flags 80, p := flags 87
    k := 0 :: regs 94 7, lc := (regs 101 2).map (·.setWidth 32) }

/-- What a core reads back from its save area (R273, R274), and the counters from the status block of its strand. Lines of the
scratchpad that messages have written since the save stay (R274, R449). A part without a layout whose bytes have not changed is
the part that was saved; of one that has changed the core takes free values. [DEDUCED, log 93: unsafe] -/
def State.readSave (s : State) (core : Nat) : State :=
  match s.hub.launch, (s.core core).strand with
  | some l, some r =>
    let c := s.core core
    let at_ (i n : Nat) : List Byte := s.hbmBytes (s.keyNo 0) (l.saveOf core + i) n
    let kept (i n : Nat) : Bool := at_ i n == unlaid c.saveMark i n
    let whenLost (i n : Nat) (f : Core → Core) (c : Core) : Core := if kept i n then c else f c
    let vecs (first : Nat) : List Vec := (List.range 32).map fun i => BitVec.ofNat 512 (bytesToNat (at_ (0x2000 + 64 * (first + i)) 64))
    let newer := c.newer.map fun n => (64 * n, Memory.read c.scratch (64 * n) 64)
    let c := c.withScalars fun n => BitVec.ofNat 64 (bytesToNat (at_ (0x1000 + 8 * n) 8))
    let c := { c with
      x := vecs 0, y := vecs 32, newer := []
      scratch := newer.foldl (fun m e => Memory.write m e.1 e.2) (Memory.write [] 0 (at_ 0x99000 8388608)) }
    let c := whenLost 0 0x1000 (fun c => c.lostContext s.fresh) c
    let c := whenLost 0x3000 0x4000 (fun c => c.lostLoop s.fresh) c
    let c := whenLost 0x7000 0x48000 (fun c => { c with mat := c.mat.lostLatches s.fresh }) c
    let c := whenLost 0x4F000 0x48000 (fun c => { c with mat := c.mat.lostSets s.fresh }) c
    let c := whenLost 0x97000 0x2000 (fun c => { c with mat := c.mat.lostQueue s.fresh }) c
    s.setCore core (match s.statusBlock r.dslot.toNat with
      | some b => { c with main := { c.main with src := b.src, osn := b.osn } }
      | none => c)
  | _, _ => s

/-- What a saved core goes back to. -/
def Activity.kept : Activity → Option (Bool × Leave)
  | .pinned why => some (true, why)
  | .leaving why => some (false, why)
  | _ => none

/-- The core is saved and its acknowledgement leaves (R272, R274). [DEDUCED, log 93: unsafe] -/
def State.saveCore (s : State) (core : Nat) : State :=
  let s := s.writeSave core
  let s := match (s.core core).strand with | some r => s.saveCounters core r.dslot.toNat | none => s
  (s.onCore core fun c =>
    { c with
      preempt := false, saveStart := none, saveMark := s.fresh, newer := []
      act := if c.act = .halted then .halted else .saved c.act.kept
      strand := c.strand.map fun r => { (c.writtenBack r) with state := 6, pcore := core } }).push (.preemptAcknowledgement core)

/-- A request of a code above the pre-emption's stays for its own turn; those of codes 11 to 15 are saved (R272). -/
def Core.urgent (c : Core) : Bool := c.candidates.any fun r => decide (r.code ≤ 10)

/-- PREEMPTION_SERVICE (R272): an idle core acknowledges at once; otherwise results land, the macro-sequencer reaches its
interruption point, the copy engines of the cluster have acknowledged, and the core is saved. -/
def execPreemptionService (core : Nat) (s : State) : Host.Outcome State Fault Refusal :=
  if 640 ≤ core then .fault (.noSuchUnit core)
  else
    let c := s.core core
    if !c.canSave then .next s
    else if c.act = .idle ∨ c.act = .halted then
      .next ((s.onCore core fun c =>
        { c with preempt := false, act := if c.act = .halted then .halted else .saved none }).push
          (.preemptAcknowledgement core))
    else
      let c := c.advance s.time s.fresh (max (max c.cycle c.lastDue) (if c.mat.atPoint s.wholePass c.cycle then c.mat.lastEnd else 0))
      if c.urgent && !c.isPinned then .next (s.setCore core { c with saveStart := none })
      else
        let s := s.setCore core { c with saveStart := some (c.saveStart.getD s.time) }
        .next (if c.landings.isEmpty && c.mat.atPoint s.wholePass c.cycle && c.mat.results.isEmpty && s.copyStopped (clusterOf core)
          then s.saveCore core else s)

/-- What a core resumes with (R274): its strand runs, is pinned, or goes on leaving. The macro-sequencer goes on from the
cycle of the resume, and the next fetch is one of R268's XCODE 2. -/
def Core.resumed (c : Core) (core time periods : Nat) (was : Option (Bool × Leave)) : Core :=
  let at_ := c.cycle + periods
  let pinned := was.any (·.1)
  { c with
    main := { c.main with origin := 2 }
    act := match c.strand, was with
      | none, _ => .idle
      | some _, none => .running
      | some _, some (true, w) => .pinned w
      | some _, some (false, w) => .leaving w
    strand := c.strand.map fun r =>
      if pinned then { r with state := 4, pcore := core } else { r with state := 1, pcore := 0 }
    cycle := at_, issueAt := at_ + 1, wdStart := time, wdHeld := false, saveStart := none
    mat := { c.mat with lastEnd := if c.mat.queue.isEmpty then c.mat.lastEnd else max c.mat.lastEnd at_ } }

/-- Some block of the core's save area can not be read (R410). -/
def State.saveLost (s : State) (core : Nat) : Bool :=
  match s.hub.launch with
  | some l => (s.core core).strand.isSome && s.unreadable (s.keyNo 0) (l.saveOf core) (8804 * 1024)
  | none => false

/-- CORE_RESUME (R274): the core restores its save area, resumes and reports to the hub; where the area can not be read, the
strand is lost (R275, R410). -/
def execCoreResume (core : Nat) (s : State) : Host.Outcome State Fault Refusal :=
  if 640 ≤ core then .fault (.noSuchUnit core)
  else
    let c := s.core core
    match c.act with
    | .saved was =>
      .next (if s.saveLost core then
          ((((s.noteAccess (s.keyNo 0) ((s.hub.launch.map fun l => l.saveOf core).getD 0) (8804 * 1024)).onCore core fun c =>
            { c with saveStart := none }).loseStrand core).dieCheck (dieOfCore core) 0 core).push (.engineResumeReport core)
        else ((s.readSave core).onCore core fun c => c.resumed core s.time (Config.periods s.fresh) was).push
        (.engineResumeReport core))
    | _ => .next s

/-- SAVE_TIMER_EXPIRY (R275): the strand is lost, and the supervisor escalates. -/
def execSaveTimerExpiry (core : Nat) (s : State) : Host.Outcome State Fault Refusal :=
  if 640 ≤ core then .fault (.noSuchUnit core)
  else
    let c := s.core core
    match c.saveStart with
    | none => .next s
    | some t =>
      .next (if s.time < t + 1000 * c.wdSave.toNat then s
        else ((s.onCore core fun c => { c with saveStart := none }).loseStrand core).dieCheck (dieOfCore core) 0 core)

end Sys2Proof.Machine
end

