-- ==== Sys2Proof/Machine/Commit.lean ====
section
/-! DEFINITION. The phase controller (R93, R95 to R100, R109 to R114, R396): the end of a phase, its checks and its digest,
the log, the switch of the shadows into memory, the opening of the next phase with its plan (R32), rollback and serial
re-execution. -/

namespace Sys2Proof.Machine

/-! The end of a phase (R93 step 1, R396). -/

/-- A message asks for a run of the message handler. -/
def wantsHandler (entries : List (List Byte)) : Bool := bits (headerOf (entries.headD [])) 18 1 == 1

/-- A core has a handler run under way, or one that waits. [DEDUCED, log 82: unsafe] -/
def Core.handling (c : Core) : Bool :=
  c.inHandler || !c.starts.isEmpty || c.queues.any fun q => q.spilled.any wantsHandler

/-- An operation on its way that is a message for a handler. -/
def Op.handles : Op → Bool
  | .put _ _ h _ _ _ => h
  | .message m => wantsHandler m.entries
  | _ => false

/-- A handler message of the job awaits delivery or its run (R396). -/
def State.awaitsHandler (s : State) : Bool :=
  s.cores.any (fun c => c.2.handling) || s.ops.any (fun p => p.op.handles) ||
    s.nodes.any fun n => n.2.offers.any fun m => wantsHandler m.2.entries

/-- An operation that a phase ends only behind: it will make a record runnable, or adds to the launch's collective list
(R93, R448). -/
def Op.posts : Op → Bool
  | .post _ _ _ _ _ => true
  | .cpost _ _ => true
  | _ => false

/-- Strands parked on barriers or queues. -/
def State.parked (s : State) : List Record :=
  s.dies.flatMap (fun d => d.2.objects.flatMap fun o => o.2.waiters.filterMap fun w => w.parked.map (·.1)) ++
    s.cores.flatMap fun c => c.2.queues.filterMap fun q => q.waiter.map (·.record)

/-- Cores whose strand is pinned. -/
def State.pinnedCores (s : State) : List Nat := (s.cores.filter fun c => c.2.isPinned).map (·.1)

/-- Records of the next-phase lists. -/
def State.upcoming (s : State) : List Record := s.dies.flatMap fun d => d.2.next

/-- No record is runnable or running, and no handler message awaits. [DEDUCED, log 82: unsafe] -/
def State.quiet (s : State) : Bool :=
  s.runnable.isEmpty && s.cores.all (fun c => !c.2.holds) && s.ops.all (fun p => !p.op.posts) && !s.awaitsHandler

/-- The phase policy ends the open phase (R396). [DEDUCED, log 82: unsafe] -/
def State.phaseEnds (s : State) (l : Launch) : Bool :=
  s.quiet && (l.ppol != 0 || (s.parked.isEmpty && s.pinnedCores.isEmpty))

/-- A held or travelling operand whose result goes to global memory. -/
def Operand.writesMemory (o : Operand) : Bool := o.dest.bound?.isSome

/-- An operation that still has a global write of this package to make. -/
def Op.writes : Op → Bool
  | .meet o _ => o.writesMemory
  | .meetWrite _ _ _ _ _ _ _ => true
  | _ => false

/-- A get whose local side is global memory. -/
def Remote.writes (r : Remote) : Bool :=
  match r.op with
  | .fget lsp _ _ _ _ _ _ _ _ => lsp == 0
  | _ => false

/-- Every global write of the phase has landed, and every meet with a global destination is over (R93 step 1). -/
def State.writesLanded (s : State) : Bool :=
  s.clusters.all (fun c => c.2.xfers.all fun x => x.dst.isNone) && s.ops.all (fun p => !p.op.writes) &&
    s.nodes.all (fun n => n.2.dir.all fun e => match e.2.held with | some h => !h.2.2.writesMemory | none => true) &&
    s.fabric.remotes.all fun r => !r.writes

/-- Step 1 begins: pick-ups are held, and the flags of pinned strands are merged (R93, R100). -/
def State.holdPhase (s : State) : State :=
  s.pinnedCores.foldl (fun t n => t.mergeFlags n) (s.onHub fun h => { h with hold := true })

/-- The entry of the phase controller's rounds (R435): arrivals of children that came before its first round are its. -/
def Fabric.podEntry (f : Fabric) (gid : Nat) (inc : BitVec 8) : FabEntry :=
  let early := (f.entry gid false).filter fun e => e.inc == inc && !e.isOpen && !e.children.isEmpty
  match f.entry gid true, early with
  | some e, _ => e
  | none, some e => { e with pod := true }
  | none, none => FabEntry.fresh gid inc true

/-- The fabric barrier of a POD boundary (R396, R435): the package's arrival, once. -/
def State.joinPod (s : State) (l : Launch) : State :=
  let gid := fieldOf l.pparam 0 16
  let e := s.fabric.podEntry gid (BitVec.ofNat 8 (fieldOf l.pparam 16 8))
  if e.isOpen then s
  else
    let s := s.onFabric fun f => { f with
      entries := f.entries.filter fun o => !(o.gid == gid && !o.pod && o.inc == e.inc && !o.isOpen && !o.children.isEmpty) }
    s.climb { e with isOpen := true, box := s.fabric.wholeBox, since := s.time, sentUp := false }

/-! Conflicts (R98). -/

/-- Two writes to a common byte conflict. -/
def ShadowWrite.conflicts (posts : List Ancestor) (v w : ShadowWrite) : Bool :=
  v.pa == w.pa && (v.mask &&& w.mask) != 0 && !(v.kind != 0 && v.kind == w.kind) &&
    !(v.lidx == w.lidx && v.osn == w.osn) && !precedes posts v.lidx v.osn w.lidx w.osn &&
    !precedes posts w.lidx w.osn v.lidx v.osn

/-- The lowest byte of a unit that two writes have in common: its virtual address, and the byte of the unit. -/
def ShadowWrite.common (v w : ShadowWrite) : Nat × Nat × Nat :=
  let i := trailingZeros ((v.mask &&& w.mask).setWidth 64) 64
  (min v.va w.va + i, v.pa, i)

/-- The conflicting bytes of a phase. -/
def conflictsOf (posts : List Ancestor) : List ShadowWrite → List (Nat × Nat × Nat)
  | [] => []
  | v :: vs => ((vs.filter (v.conflicts posts)).map v.common) ++ conflictsOf posts vs

/-- The entry of the lowest address. [DEDUCED, log 78: unsafe] -/
def lowestByte : List (Nat × Nat × Nat) → Option (Nat × Nat × Nat)
  | [] => none
  | a :: as => match lowestByte as with
    | none => some a
    | some b => if b.1 < a.1 then some b else some a

/-- The two lowest of some numbers, apart. [DEDUCED, log 78: unsafe] -/
def twoLowest (l : List Nat) : Nat × Nat :=
  let low (l : List Nat) : Nat := l.foldl min (l.headD 0)
  let a := low l
  (a, low (l.filter (· != a)))

/-- The writes of the phase whose addresses a range still holds; the others are discarded (R250).
[DEDUCED, log 42: unsafe] -/
def State.heldWrites (s : State) (l : Launch) : List ShadowWrite :=
  (s.movedWrites l).filter fun w => (s.holder w).isSome

/-- The report of a conflict among some writes: byte address and two writers (R395). [DEDUCED, log 78: unsafe] -/
def Launch.conflict (l : Launch) (writes : List ShadowWrite) : Option (Nat × Nat × Nat) :=
  (lowestByte (conflictsOf l.posts writes)).map fun c =>
    let ws := (writes.filter fun w => w.pa == c.2.1 && w.mask.getLsbD c.2.2).map (·.lidx.toNat)
    (c.1, (twoLowest ws).1, (twoLowest ws).2)

/-! The phase digest and its log (R109 to R111). -/

/-- Status blocks of the strands that folded in the phase, with their logical indices. -/
def State.folded (s : State) (l : Launch) : List (W64 × Digest) :=
  l.ran.filterMap fun r => match s.statusBlock r.2 with
    | some b => if b.seeded && b.dphase.toNat == l.phase && b.folded then some (r.1, (b.dl, b.dh)) else none
    | none => none

/-- The phase digest, as a number of 128 bits (R109). -/
def phaseDigest (ds : List (W64 × Digest)) : Nat := (ds.foldl (fun n d => n + digestMix d.1 d.2) 0) % 2 ^ 128

/-- The descriptor through which the digest log's entry of the phase is reached, or none where the access faults or the
entry lies past the end of the log (R110). [DEDUCED, log 79: unsafe] -/
def State.logDesc (s : State) (l : Launch) : Option Desc :=
  let va := l.dlog + 32 * l.phase
  if l.dlen ≤ l.phase then none
  else match descAt (s.hub.set_ l.rset) va with
    | none => none
    | some d =>
      let need := if l.dmode = 1 then permW else permR
      if (d.check va 32 need true).isSome || d.perm.getLsbD 5 then none else some d

/-- The entry's binding; none as well where its block is poisoned. [DEDUCED, log 79: unsafe] -/
def State.logEntry (s : State) (l : Launch) : Option Bound :=
  (s.logDesc l).bind fun d =>
    let b := d.bind (l.dlog + 32 * l.phase)
    if s.unreadable (s.keyNo b.key) (s.redirect b 0) 32 then none else some b

/-- The 32 bytes of the entry (R110). -/
def logBytes (digest phase nstr flags : Nat) : List Byte :=
  natToBytes 16 digest ++ natToBytes 4 phase ++ natToBytes 4 nstr ++ natToBytes 4 flags ++ natToBytes 4 0

/-! The switch of the shadows (R96, R98, R99). -/

/-- The last of a unit's ordered writes that its value still shows, with the bytes that their plain writes cover: what
stands before writes that cover the whole unit contributes nothing (R96). [DEDUCED, log 80: unsafe] -/
def contributing : List ShadowWrite → List ShadowWrite × BitVec 8
  | [] => ([], 0)
  | w :: ws =>
    let r := contributing ws
    if r.2 = 0xFF then r else (w :: r.1, if w.kind = 0 then r.2 ||| w.mask else r.2)

/-- An exact sum lies outside the range of 64 bits. -/
def leavesWord (v : Int) : Bool := decide (v < -(2 ^ 63)) || decide (2 ^ 63 ≤ v)

/-- Some exact sum of consecutive deltas leaves the range of 64 bits (R99); a plain write begins a new sum. -/
def runOverflows : List ShadowWrite → Int → Bool
  | [], v => leavesWord v
  | w :: ws, v =>
    if w.kind = 0 then leavesWord v || runOverflows ws (w.apply (BitVec.ofInt 64 v)).toInt
    else runOverflows ws (v + w.data.toInt)

/-- The exact sum of a unit with its deltas leaves the range of 64 bits, or their number saturates (R99).
[DEDUCED, log 80: unsafe] -/
def sumOverflows (base : W64) (ws : List ShadowWrite) : Bool :=
  let last := (contributing ws).1
  let before := (ws.take (ws.length - last.length)).foldl ShadowWrite.apply base
  runOverflows last before.toInt || decide (2 ^ 32 - 1 ≤ (ws.filter fun w => w.kind != 0).length)

/-- The contributing delta of the lowest logical index as the element of an overflow (R99). -/
def deltaElem (ws : List ShadowWrite) : Option (W64 × Offer) :=
  ((contributing ws).1.filter fun w => w.kind != 0).foldl (fun o w => keepElem o (some (w.lidx, { osn := w.osn, elem := 0, flag := 2 }))) none

/-- Where a unit of the phase's writes stands while its range moves, and its key (R251). -/
def State.commitPlace (s : State) (w : ShadowWrite) : Nat × Nat := (s.redirectPa w.pa, s.keyNo w.key)

/-- A unit after its writes. [DEDUCED, log 42: unsafe] -/
def State.committedUnit (s : State) (posts : List Ancestor) (key at_ : Nat) (ws : List ShadowWrite) : W64 :=
  (orderWrites posts ws).foldl ShadowWrite.apply (s.unit key at_)

/-- One block of 64 bytes commits (R98, R99, R406): a poisoned one only where every byte is written; a reduction alone writes no byte of its own. -/
def State.commitBlock (s : State) (posts : List Ancestor) (ws : List ShadowWrite) : State :=
  match ws with
  | [] => s
  | w :: _ =>
    let place := s.commitPlace { w with pa := w.pa / 64 * 64 }
    let at_ (u : Nat) : List ShadowWrite := ws.filter fun w => w.pa % 64 == 8 * u
    let whole := (List.range 8).all fun u =>
      ((at_ u).filter fun w => w.kind == 0).foldl (fun m w => m ||| w.mask) (0 : BitVec 8) == 0xFF
    let spilled := (List.range 8).filter fun u =>
      sumOverflows (s.unit place.2 (place.1 + 8 * u)) (orderWrites posts (at_ u))
    let s := if spilled.isEmpty then s
      else s.onLaunch fun l => { l with
        flags := l.flags ||| 4
        elem := spilled.foldl (fun e u => keepElem e (deltaElem (orderWrites posts (at_ u)))) l.elem }
    if s.unreadable place.2 place.1 1 && !whole then
      let t := s.countRefused place.2 place.1
      t.noteRefused place.1 1 4
    else
      let bytes := (List.range 8).flatMap fun u =>
        natToBytes 8 (s.committedUnit posts place.2 (place.1 + 8 * u) (at_ u)).toNat
      (s.hbmWrite place.2 place.1 bytes).1

/-- Every block that the phase wrote in versioned ranges commits (R93 step 5). -/
def State.switchShadows (s : State) (l : Launch) : State :=
  let writes := s.heldWrites l
  let blocks := (writes.map fun w => (w.pa / 64, w.key)).eraseDups
  blocks.foldl (fun s b => s.commitBlock l.posts (writes.filter fun w => w.pa / 64 == b.1 && w.key == b.2)) s

/-! The next phase (R32, R93 step 6). -/

/-- A record at the tail of its level of its home bucket, whatever the placement of the launch. -/
def State.toBucket (s : State) (r : Record) : State :=
  let h := s.homeBucket r
  (s.onDie h.1 fun d => { d with buckets := modifyAt h.2 (fun b => enqueue b r) d.buckets }).rouse h.1 h.2

/-- Records that cores keep apart go back to their buckets. -/
def State.returnPlans (s : State) : State :=
  let rs := s.cores.flatMap fun c => c.2.plan ++ c.2.posts.flatMap id
  let t : State := { s with cores := s.cores.map fun c =>
    (c.1, { c.2 with plan := [], posts := [[], [], [], []], postWait := [0, 0, 0] }) }
  rs.foldl State.toBucket t

/-- Records of the next-phase lists become runnable (R32). -/
def State.openRecords (s : State) (phase : Nat) : State :=
  let rs := s.upcoming
  let t : State := { s with dies := s.dies.map fun d => (d.1, { d.2 with next := [] }) }
  rs.foldl (fun t r => t.toBucket { r with nxph := false, phase := BitVec.ofNat 32 phase }) t

/-- The order of records within a bucket for a plan (R32). -/
def Record.planBefore (a b : Record) : Bool :=
  decide (b.prio < a.prio) || (a.prio == b.prio && decide (a.lidx < b.lidx))

/-- A record put into its place of that order. -/
def planInsert (r : Record) : List Record → List Record
  | [] => [r]
  | q :: qs => if r.planBefore q then r :: q :: qs else q :: planInsert r qs

/-- Records in the order of a plan. -/
def planOrder (rs : List Record) : List Record := rs.foldl (fun l r => planInsert r l) []

/-- Every record of the buckets, bucket by bucket, in the order of a plan. -/
def State.planEntries (s : State) : List Record :=
  (List.range 8).flatMap fun d => (s.die d).buckets.flatMap fun b => planOrder (b.flatMap id)

/-- The plan of R32: each core takes its part of the entries. -/
def State.formPlan (s : State) : State :=
  let es := s.planEntries
  let n := es.length
  let t : State := { s with dies := s.dies.map fun d =>
    (d.1, { d.2 with buckets := List.replicate 20 [[], [], [], []], waits := List.replicate 20 [0, 0, 0] }) }
  (List.range 640).foldl (fun t g =>
    let lo := g * n / 640
    let hi := (g + 1) * n / 640
    if lo = hi then t else t.onCore g fun c => { c with plan := (es.drop lo).take (hi - lo), idleUntil := 0 }) t

/-- Status blocks that a record still owns. [DEDUCED, log 84: unsafe] -/
def State.liveBlocks (s : State) : List Nat :=
  (s.runnable ++ s.parked ++ s.upcoming ++ s.cores.filterMap fun c => c.2.strand).map fun r => r.dslot.toNat

/-- Blocks of strands that have ended are freed (R20). [DEDUCED, log 84: unsafe] -/
def State.freeBlocks (s : State) : State :=
  let live := s.liveBlocks
  s.onHub fun h => { h with status := h.status.filter fun b => live.contains b.1 }

/-- The digests of pinned strands are seeded for the new phase (R106). -/
def State.reseedPinned (s : State) (launch : W64) (phase : Nat) : State :=
  s.pinnedCores.foldl (fun t n =>
    let c := t.core n
    match c.strand with
    | some r => t.onStatus r.dslot.toNat fun b => b.seed launch (BitVec.ofNat 32 phase) (c.main.mode.setWidth 32)
    | none => t) s

/-- Pinned strands as strands of the new phase: each counts as one that runs in it, though it may stay pinned throughout
(R19). [DESIGN CHOICE, log 114: unsafe] -/
def State.pinnedRan (s : State) : List (W64 × Nat) :=
  s.pinnedCores.filterMap fun n => (s.core n).strand.map fun r => (r.lidx, r.dslot.toNat)

/-- What rollback will restore is kept (R112). [DEDUCED, log 83: safe] -/
def State.takeSnapshot (s : State) : Snapshot :=
  { dies := s.dies
    cores := s.cores.map fun c => (c.1, { slot := c.2.slot, plan := c.2.plan, queues := c.2.queues, starts := c.2.starts })
    status := s.hub.status, groups := s.hub.groups, tags := s.hub.tags, nodes := s.nodes, dir := s.hub.dir }

/-- The undo logs begin anew. -/
def State.clearUndo (s : State) : State :=
  let t : State := { s with
    dies := s.dies.map fun d => (d.1, { d.2 with undo := [] })
    nodes := s.nodes.map fun n => (n.1, { n.2 with undo := [] }) }
  t.onHub fun h => { h with dirUndo := 0 }

/-- Entries released in the phase count as free, and the queues are served (R315). [DEDUCED, log 48: unsafe] -/
def State.freeKept (s : State) : State :=
  (s.cores.filter fun c => c.2.queues.any fun q => !q.kept.isEmpty || q.remote).foldl (fun t c =>
    (t.onCore c.1 fun c => { c with queues := c.queues.map fun q => { q with kept := [], remote := false } }).serveQueues c.1) s

/-- The launch record at the start of a phase. -/
def Launch.openPhase (l : Launch) (phase : Nat) (pinned : List (W64 × Nat)) : Launch :=
  { l with
    phase := phase, serial := false, marked := !pinned.isEmpty, dropped := false, writes := []
    posts := [], pwrites := [], ran := pinned, ended := [], dup := none, flags := 0, elem := none, podDone := false }

/-- A phase opens with its number (R32): its records are placed, its snapshot taken, and pick-ups released. A parked or pinned
record that is carried into the phase keeps the number that it has (R15). [DESIGN CHOICE, log 114: unsafe] -/
def State.openPhase (s : State) (phase : Nat) : State :=
  match s.hub.launch with
  | none => s
  | some l =>
    let s := (s.freeBlocks.reseedPinned l.ident phase).clearUndo.freeKept
    let s := s.onLaunch fun l => l.openPhase phase s.pinnedRan
    let s := (s.returnPlans).openRecords phase
    let s := if l.det then s.formPlan else s
    s.onHub fun h => { h with hold := false, snap := if l.dmode = 2 then some s.takeSnapshot else none }

/-- No record of the launch is anywhere (R396). -/
def State.exhausted (s : State) : Bool :=
  s.runnable.isEmpty && s.parked.isEmpty && s.pinnedCores.isEmpty && s.upcoming.isEmpty &&
    s.cores.all fun c => !c.2.holds

/-- The launch has completed (R395, R396, R448). -/
def State.completeLaunch (s : State) (l : Launch) : State :=
  let s := (s.freeBlocks.clearUndo).freeKept
  (s.endEntry l.index l.irq 0 0 l.committed []).onHub fun h =>
    { h with launch := none, snap := none, hold := false, collQueue := l.collectives }

/-! Rollback (R112, R114). -/

/-- A strand, or a message handler, issued it in the open phase: handlers run again with the restored starts (R112, R315). -/
def Issuer.ofPhase (i : Issuer) (l : Launch) : Bool := i.launch == l.ident && i.phase.toNat == l.phase

/-- An operation of the phase that rollback takes back: it has been issued and has not been applied.
[DEDUCED, log 81: unsafe] -/
def Pending.undone (p : Pending) (l : Launch) : Bool :=
  p.by_.ofPhase l &&
    (match p.op with
     | .fput _ _ _ _ _ _ _ _ _ _ _ _ => false
     | .fget _ _ _ _ _ _ _ _ _ => false
     | .fabricArrive _ _ _ => false
     | .fbar _ _ _ => false
     | .cpost _ _ => false
     | _ => true)

/-- The bindings that an operation keeps counted in flight. -/
def Op.bounds : Op → List (Option Bound)
  | .sync _ _ _ b => [b]
  | .decrement _ _ _ _ b => [b]
  | .meet o _ => [o.dest.bound?]
  | .meetWrite _ l r _ _ _ _ => [l.dest.bound?, r.dest.bound?]
  | _ => []

/-- A core as rollback leaves it: no local registers, its records, queues and starts as at phase start. A strand that has
pinned in the phase is not on it any more: its record is one of those restored, or was posted in the phase. -/
def Core.rolledBack (c : Core) (dropped : List Nat) (x : Option CoreStart) : Core :=
  let x := x.getD { slot := [], plan := [], queues := List.replicate 8 Queue.reset, starts := [] }
  let c := if c.isPinned then c.discard else c
  { c with
    slot := x.slot, plan := x.plan, posts := [[], [], [], []], postWait := [0, 0, 0], queues := x.queues, starts := x.starts
    table := [], codeEntry := none, walkMiss := [], idleUntil := 0
    sends := c.sends.filter fun n => !dropped.contains n
    xfers := c.xfers.filter fun x => !dropped.contains x.2.2 }

/-- A die as rollback leaves it. -/
def Die.rolledBack (d : Die) (x : Die) : Die :=
  { d with buckets := x.buckets, waits := x.waits, next := x.next, objects := x.objects, undo := [] }

/-- Rollback (R112): what stood at the phase start is restored, and the phase runs again, serially.
[DEDUCED, log 81: unsafe] -/
def State.rollback (s : State) (l : Launch) (p : Snapshot) : State :=
  let gone := s.ops.filter fun o => o.undone l
  let s := gone.foldl (fun s o => s.releaseAll o.by_.core o.op.bounds) s
  let stopped := s.clusters.flatMap fun c => c.2.xfers.filter fun x => x.by_.ofPhase l
  let s := stopped.foldl (fun s x => s.releaseAll x.by_.core [x.src, x.dst, x.bar]) s
  let ids := gone.map (·.id) ++ stopped.map (·.id)
  let s : State := { s with
    clusters := s.clusters.map fun c => (c.1, { c.2 with xfers := c.2.xfers.filter fun x => !ids.contains x.id })
    ops := s.ops.filter fun o => !ids.contains o.id
    cores := s.cores.map fun c => (c.1, c.2.rolledBack ids (Sparse.get? p.cores c.1))
    dies := s.dies.map fun d => (d.1, d.2.rolledBack ((Sparse.get? p.dies d.1).getD Die.reset))
    nodes := s.nodes.map fun n =>
      let x := (Sparse.get? p.nodes n.1).getD Node.reset
      (n.1, { n.2 with dir := x.dir, offers := x.offers, undo := [] }) }
  let s := s.onHub fun h => { h with
    groups := p.groups, tags := p.tags, dir := p.dir, moves := [], dirUndo := 0, hold := false, status := [] }
  let s := p.status.foldl (fun s b => s.putStatus b.1 { b.2 with seeded := false, folds := [] }) s
  let s := l.dirSets.foldl (fun s x => s.writeSet x.1) s
  s.onLaunch fun l => { l with
    serial := true, dropped := false, writes := [], posts := [], pwrites := [], ran := [], ended := [], dup := none
    flags := 0, elem := none }

/-! The commit (R93). -/

/-- FDET with two digests (R395). -/
def twoDigests (logged computed : Nat) : List W64 :=
  [BitVec.ofNat 64 logged, BitVec.ofNat 64 (logged / 2 ^ 64), BitVec.ofNat 64 computed, BitVec.ofNat 64 (computed / 2 ^ 64)]

/-- Steps 5 and 6 (R93): the shadows are switched in, the log is written, and the next phase opens or the launch ends. -/
def State.switchPhase (s : State) (l : Launch) (digest nstr : Nat) : State :=
  let s := s.switchShadows l
  let flags := match s.hub.launch with | some l => l.flags | none => 0
  let s := match l.dmode, s.logEntry l with
    | 1, some b => (s.boundWrite b 3 0 (logBytes digest l.phase nstr flags.toNat) false).1
    | _, _ => s
  let s := s.hubEvent 0x12 (l.phase + 2 ^ 64 * nstr + 2 ^ 128 * flags.toNat)
  let done := { l with committed := l.committed + 1 }
  let s := s.onLaunch fun l => { l with committed := l.committed + 1 }
  if s.exhausted then s.completeLaunch done else s.openPhase (l.phase + 1)

/-- Step 4 in check mode (R110 to R113). -/
def State.checkPhase (s : State) (l : Launch) (b : Bound) (digest nstr : Nat) : State :=
  let bytes := (List.range 32).map fun i => s.boundByte b i
  let s := s.noteAccess (s.keyNo b.key) (s.redirect b 0) 32
  let logged := bytesToNat (bytes.take 16)
  if bytesToNat ((bytes.drop 16).take 4) ≠ l.phase then s.failLaunch 0x05 0 [BitVec.ofNat 64 l.phase, 0, 0, 0]
  else if logged = digest then s.switchPhase l digest nstr
  else if l.serial then s.failLaunch 0x07 0 (twoDigests logged digest)
  else match l.marked, s.hub.snap with
    | false, some p => s.rollback l p
    | _, _ => s.failLaunch 0x06 0 (twoDigests logged digest)

/-- Steps 2 to 6 (R93). -/
def State.commitPhase (s : State) (l : Launch) : State :=
  let phase : W64 := BitVec.ofNat 64 l.phase
  match l.dup with
  | some i => s.failLaunch 0x02 0 [i, phase, 0, 0]
  | none =>
    if l.dropped then s.failLaunch 0x04 0 [0, 0, 0, phase]
    else match l.conflict (s.heldWrites l) with
      | some c => s.failLaunch 0x03 0 [BitVec.ofNat 64 c.1, BitVec.ofNat 64 c.2.1, BitVec.ofNat 64 c.2.2, phase]
      | none =>
        let ds := s.folded l
        let digest := phaseDigest ds
        if l.dmode = 0 then s.switchPhase l digest ds.length
        else match s.logEntry l with
          | none => s.failLaunch 0x05 0 [phase, 0, 0, 0]
          | some b => if l.dmode = 2 then s.checkPhase l b digest ds.length else s.switchPhase l digest ds.length

/-- The commit can advance: the phase ends, or step 1 is over, or the POD barrier is still to be joined. -/
def State.commitDue (s : State) : Bool :=
  match s.hub.launch with
  | none => false
  | some l =>
    if l.roots.isSome then false
    else if s.hub.hold then
      s.writesLanded && (l.ppol != 2 || l.podDone ||
        match s.fabric.entry (fieldOf l.pparam 0 16) true with | some e => !e.isOpen | none => true)
    else s.hub.pstate == 0 && s.hub.waiting.isEmpty && s.phaseEnds l

/-- PHASE_COMMIT (R93, R396, R435): step 1 once the phase has ended, then the fabric barrier of a POD boundary, then steps
2 to 6, which nothing interrupts (R398). -/
def execPhaseCommit (s : State) : Host.Outcome State Fault Refusal :=
  .next (match s.hub.launch with
    | none => s
    | some l =>
      if !s.commitDue then s
      else if !s.hub.hold then s.holdPhase
      else if l.ppol = 2 && !l.podDone then s.joinPod l
      else s.commitPhase l)

end Sys2Proof.Machine
end

