-- ==== Sys2Proof/Machine/Launch.lean ====
section
/-! DEFINITION. The host side of the hub (R387 to R395, R402, R405, R409): registers, doorbell and commands, the launch
queue, job start and job end, and the checks and creation of a launch. -/

namespace Sys2Proof.Machine

/-! Registers (R387, R388, R405). -/

/-- HSTAT as the host reads it (R388, R415). -/
def State.hstat (s : State) : W64 :=
  let h := s.hub
  if s.platform.bootFailed then 0
  else BitVec.ofNat 64 (2 ^ 32 * h.lseq.toNat + bitAt h.badcmd 15 + bitAt h.qstop 14 + 2 ^ 10 * h.pstate + bitAt h.run 9)

/-- A command or a register write is refused (R388). -/
def State.badCommand (s : State) : State := s.onHub fun h => { h with badcmd := true }

/-- A refused host command, with its entry in the hub's record (R388, R402). -/
def State.refuseCommand (s : State) (cmd : Nat) : State := (s.badCommand).hubEvent 0x17 cmd

/-- Entries pending in the launch queue (R389). -/
def Hub.pendingEntries (h : Hub) : Nat := (h.lqtail + 2 ^ h.lqsize - h.lqhead) % 2 ^ h.lqsize

/-- DOORBELL (R389): a value that gives more pending entries is stored; one that gives fewer is refused. -/
def execDoorbell (value : BitVec 64) (s : State) : Host.Outcome State Fault Refusal :=
  let h := s.hub
  let tail := value.toNat % 2 ^ h.lqsize
  let new := (tail + 2 ^ h.lqsize - h.lqhead) % 2 ^ h.lqsize
  .next (if s.platform.bootFailed then s
    else if new < h.pendingEntries then s.badCommand
    else s.onHub fun h => { h with lqtail := tail })

/-- A field of PGT as it is stored: a value that is not listed stores 0 (R399). -/
def pgtField (value : W64) (lo top : Nat) : Nat := let v := fieldOf value lo 4; if v ≤ top then 2 ^ lo * v else 0

/-- The launch-queue registers may be written (R387). -/
def Hub.queueIdle (h : Hub) : Bool := !h.run && h.lqhead == h.lqtail

/-- HOST_REGISTER_WRITE (R387, R399, R405, R418): registers with a meaning of their own for a write have their own events,
and read-only ones ignore it. [DEDUCED, log 89: unsafe] -/
def execHostRegisterWrite (offset : Nat) (value : BitVec 64) (s : State) : Host.Outcome State Fault Refusal :=
  .next (if s.platform.bootFailed then s
    else if offset = 0x0020 then
      (if s.hub.queueIdle then s.onHub fun h => { h with lqbase := BitVec.ofNat 64 (4096 * fieldOf value 12 40) } else s.badCommand)
    else if offset = 0x0028 then
      (if s.hub.queueIdle then s.onHub fun h =>
          let n := fieldOf value 0 5
          let n := if 4 ≤ n ∧ n ≤ 16 then n else 4
          { h with lqsize := n, lqtail := h.lqtail % 2 ^ n, lqhead := h.lqhead % 2 ^ n }
        else s.badCommand)
    else if offset = 0x0040 then s.onHub fun h => { h with pgt := BitVec.ofNat 64 (pgtField value 8 1 + pgtField value 4 1) }
    else if offset = 0x0050 then
      s.onHub fun h => { h with trsel := if fieldOf value 0 4 ≤ 8 then fieldOf value 0 4 else 0 }
    else if offset = 0x0058 then s.onHub fun h => { h with tridx := fieldOf value 0 12 }
    else if offset = 0x0100 then s.onPlatform fun p => { p with hwkey := fieldOf value 0 10 }
    else if offset = 0x0340 then s.onPlatform fun p =>
      let t := fieldOf value 40 8
      { p with tjthr := if 70 ≤ t ∧ t ≤ 100 then t else 95, tien := flagOf value 0 }
    else s)

/-- HSTAT_READ (R388): the host reads HSTAT, which clears BADCMD. [DEDUCED, log 90: safe] -/
def execHstatRead (s : State) : Host.Outcome State Fault Refusal :=
  .next ((s.onPlatform fun p => { p with hostRead := natToBytes 8 s.hstat.toNat }).onHub fun h => { h with badcmd := false })

/-- HCMD_INVALID (R388): a value that names no command. -/
def execHcmdInvalid (value : BitVec 64) (s : State) : Host.Outcome State Fault Refusal :=
  let cmd := fieldOf value 0 8
  .next (if s.platform.bootFailed ∨ (1 ≤ cmd ∧ cmd ≤ 6) then s else s.refuseCommand value.toNat)

/-- CONTINUE (R395): entries are taken again. -/
def execContinueCmd (s : State) : Host.Outcome State Fault Refusal :=
  .next (if s.platform.bootFailed then s else s.onHub fun h => { h with qstop := false })

/-- The transom record that TRSEL names is frozen or not (R387, R402). -/
def State.setFrozen (s : State) (frozen : Bool) : State :=
  if s.hub.trsel = 0 then s.onHub fun h => { h with transom := { h.transom with frozen := frozen } }
  else s.onDie (s.hub.trsel - 1) fun d => { d with transom := { d.transom with frozen := frozen } }

/-- FREEZE (R357, R402). [DEDUCED, log 89: unsafe] -/
def execFreeze (s : State) : Host.Outcome State Fault Refusal :=
  .next (if s.platform.bootFailed then s else s.setFrozen true)

/-- UNFREEZE (R357, R402). -/
def execUnfreeze (s : State) : Host.Outcome State Fault Refusal :=
  .next (if s.platform.bootFailed then s else s.setFrozen false)

/-! The launch queue (R389, R390). -/

/-- The command processor may take an entry (R390, R395, R398, R448). -/
def State.takesEntry (s : State) : Bool :=
  let h := s.hub
  !h.run && !h.qstop && h.waiting.isEmpty && (h.pstate == 4 || h.pstate == 0) && h.launch.isNone && h.coll.isNone && h.collQueue.isEmpty &&
    h.pendingEntries != 0 && s.platform.booted && !s.platform.bootFailed

/-- The entry at LQHEAD. -/
def State.headEntry (s : State) : List W64 := s.hbmDws (s.entryAddress s.hub.lqhead) 32

/-- Type of an entry (R390). -/
def entryType (dws : List W64) : Nat := fieldOf (dws.getD 0 0) 56 8

/-- The type of the entry that may be taken now. -/
def State.entryDue (s : State) : Option Nat := if s.takesEntry then some (entryType s.headEntry) else none

/-- An entry is taken: LQHEAD advances, the entry runs, and the hub's record has its start (R389, R402). -/
def State.takeEntry (s : State) (type : Nat) (ident : W64) : State :=
  let i := s.hub.lqhead
  let s := s.noteAccess (s.keyNo 0) (s.entryAddress i) 256
  (s.onHub fun h => { h with lqhead := (i + 1) % 2 ^ h.lqsize, run := true, pstate := 0 }).hubEvent 0x10
    (i + 2 ^ 64 * type + 2 ^ 128 * ident.toNat)

/-- Launch identifier of the launch that LSEQ counts now (R391). -/
def Hub.ident (h : Hub) : W64 := BitVec.ofNat 64 (2 ^ 32 * h.jseq.toNat + h.lseq.toNat)

/-- An entry fails with fault 0x01 (R390, R394). [DEDUCED, log 87: unsafe] -/
def State.entryError (s : State) (index : Nat) (irq : Bool) (check : Nat) : State :=
  s.endEntry index irq 0x01 check 0 [BitVec.ofNat 64 check, 0, 0, 0]

/-- UNKNOWN_ENTRY (R390): an entry of no type fails. -/
def execUnknownEntry (s : State) : Host.Outcome State Fault Refusal :=
  .next (match s.entryDue with
    | some t => if 1 ≤ t ∧ t ≤ 4 then s else (s.takeEntry t s.hub.ident).entryError s.hub.lqhead false 0
    | none => s)

/-! Jobs (R391, R409). -/

/-- The array after a job start: the row map and ERRCNT keep their values. -/
def Matrix.zeroed (m : Matrix) : Matrix := { Matrix.reset with rows := m.rows }

/-- A core after a job start: counters, what it has under way, and a halt stay. [DEDUCED, log 14: unsafe] -/
def Core.zeroed (c : Core) : Core :=
  { Core.reset with
    cycle := c.cycle, issueAt := c.issueAt, frozen := c.frozen, frzbank := c.frzbank, frzfull := c.frzfull
    mat := c.mat.zeroed, sends := c.sends, xfers := c.xfers, fabOps := c.fabOps, preempt := c.preempt
    act := if c.act = .halted then .halted else .idle }

/-- A cluster after a job start: its transfers go on. -/
def Cluster.zeroed (c : Cluster) : Cluster := { Cluster.reset with xfers := c.xfers, tokens := c.tokens, counts := c.counts }

/-- The zeroing of R391. -/
def State.zeroJob (s : State) : State :=
  let t : State := { s with
    cores := s.cores.map fun c => (c.1, c.2.zeroed)
    clusters := s.clusters.map fun c => (c.1, c.2.zeroed)
    dies := s.dies.map fun d => (d.1, { d.2 with objects := [], cache := [], undo := [] })
    nodes := s.nodes.map fun n => (n.1, { n.2 with dir := [], undo := [] }) }
  t.onHub fun h => { h with
    groups := [], tags := [], dir := [], dirUndo := 0, moves := [], status := [], lastSet := none }

/-- The key slots of the job are cleared (R409). -/
def Hub.clearKeys (h : Hub) : Hub := { h with keys := h.keys.filter fun k => k.1 == 0 }

/-- Fresh keys for some slots from a first one on (R409). -/
def Hub.loadKeys (h : Hub) (first : Nat) : Nat → Hub
  | 0 => h
  | n + 1 => Hub.loadKeys { h with keys := Sparse.set h.keys first (h.keyCount + 1), keyCount := h.keyCount + 1 } (first + 1) n

/-- The form of a job start entry (R409). -/
def jobForm (dws : List W64) : Bool :=
  let d := dws.getD 0 0
  let count := fieldOf d 16 10
  let first := fieldOf d 0 10
  fieldOf d 26 30 == 0 && fieldOf d 10 6 == 0 && decide (1 ≤ count) && decide (1 ≤ first) &&
    decide (first + count ≤ 1024) && ((dws.drop 1).take 30).all (· == 0)

/-- The lowest die that the boot test has left out of service (R416). -/
def State.failedDie (s : State) : Option Nat := (List.range 8).find? fun d => flagOf (s.die d).bootsum 62

/-- JOB_START (R391, R409, R416). [DEDUCED, log 87: unsafe] -/
def execJobStart (s : State) : Host.Outcome State Fault Refusal :=
  .next (if s.entryDue ≠ some 3 then s
    else
      let i := s.hub.lqhead
      let dws := s.headEntry
      let t := s.takeEntry 3 s.hub.ident
      match t.failedDie with
      | some d => t.endEntry i false 0x09 0 0 [BitVec.ofNat 64 d, ((t.die d).transom.seq).setWidth 64, 0, 0]
      | none =>
        if !jobForm dws then t.entryError i false 0
        else
          let u := t.zeroJob.onHub fun h =>
            { h.clearKeys.loadKeys (fieldOf (dws.getD 0 0) 0 10) (fieldOf (dws.getD 0 0) 16 10) with
              jseq := h.jseq + 1, lseq := 0, job := true }
          (u.onPlatform fun p => { p with subcnt := 0 }).endEntry i false 0 0 0 [])

/-- JOB_END (R391). -/
def execJobEnd (s : State) : Host.Outcome State Fault Refusal :=
  .next (if s.entryDue ≠ some 4 then s
    else
      let i := s.hub.lqhead
      let t := s.takeEntry 4 s.hub.ident
      (t.zeroJob.onHub fun h => { h.clearKeys with job := false }).endEntry i false 0 0 0 [])

/-! The checks of a launch entry (R392 to R394). -/

/-- The fields of a launch entry. -/
structure LaunchEntry where
  /-- The doublewords. -/
  dws : List W64
  deriving DecidableEq, Repr

/-- A field of an entry. -/
def LaunchEntry.field (e : LaunchEntry) (dw lo w : Nat) : Nat := fieldOf (e.dws.getD dw 0) lo w

/-- Word `i` of the template. -/
def LaunchEntry.word (e : LaunchEntry) (i : Nat) : Nat := e.field (2 + i / 2) (32 * (i % 2)) 32

/-- Strand count. -/
def LaunchEntry.count (e : LaunchEntry) : Nat := (e.dws.getD 1 0).toNat

/-- Base index and count of a set. -/
def LaunchEntry.set_ (e : LaunchEntry) (n : Nat) : Nat × Nat :=
  (e.field (18 + 2 * (n / 4)) (16 * (n % 4)) 16, e.field (19 + 2 * (n / 4)) (16 * (n % 4)) 16)

/-- Check 1: a reserved field is not zero, or a reserved value. -/
def LaunchEntry.badFields (e : LaunchEntry) : Bool :=
  [e.field 0 16 31, e.field 10 48 16, e.field 11 48 16, e.field 14 0 32, e.field 15 48 16, e.field 16 0 32,
    e.field 17 52 12, e.field 26 52 12].any (· != 0) || e.field 0 51 2 == 3 || decide (3 ≤ e.field 0 48 3)

/-- Check 2: the strand count. -/
def LaunchEntry.badCount (e : LaunchEntry) : Bool := e.count == 0 || decide (2 ^ 32 < e.count)

/-- Check 3: the template (R17, R141). -/
def LaunchEntry.badTemplate (e : LaunchEntry) : Bool :=
  let h := e.word 0
  let m := e.word 6
  bits h 28 4 != 1 || bits h 24 4 != 0 || bits h 0 22 != 0 || decide (5 ≤ bits m 0 3) || bits m 24 7 != 0 ||
    bits m 16 2 != 0 || bits m 6 2 != 0

/-- A descriptor as it stands in memory (R240). -/
def parseDesc (dws : List W64) : Desc :=
  let d (i lo w : Nat) : Nat := fieldOf (dws.getD i 0) lo w
  { rid := d 0 48 16, vbase := d 0 0 48, vlimit := if d 1 0 48 = 0 then 2 ^ 48 else d 1 0 48, poff := d 2 0 52
    rbase := d 3 0 48, rlimit := d 4 0 48, key := d 5 32 10, perm := BitVec.ofNat 9 (d 5 0 9), version := 0 }

/-- The bits of a descriptor that R240 fixes at zero are zero, and its RID is one. -/
def Desc.aligned (d : Desc) : Bool :=
  [d.vbase, d.vlimit, d.poff, d.rbase, d.rlimit].all (fun n => n % 4096 == 0) && d.rid != 0

/-- Descriptors of a set as the directory holds them. -/
def State.readSet (s : State) (dir : Nat) (set : Nat × Nat) : List Desc :=
  (List.range set.2).map fun i => parseDesc (s.hbmDws (dir + 64 * (set.1 + i)) 8)

/-- The sets of an entry that are not empty. -/
def State.readDirectory (s : State) (e : LaunchEntry) : List (Nat × List Desc) :=
  ((List.range 16).filter fun n => (e.set_ n).2 != 0).map fun n => (n, s.readSet (e.field 17 0 52) (e.set_ n))

/-- A set ascends by VBASE and its intervals do not overlap. -/
def ascending : List Desc → Bool
  | a :: b :: rest => decide (a.vlimit ≤ b.vbase) && ascending (b :: rest)
  | _ => true

/-- Base and size of an area. -/
def State.area (s : State) (e : LaunchEntry) (a : Nat) : Nat × Nat :=
  let t := e.field 26 0 52
  ((s.hbmDw (t + 16 * a)).toNat, (s.hbmDw (t + 16 * a + 8)).toNat)

/-- A range holds a byte of an interval of physical addresses. -/
def Desc.holds (d : Desc) (pa n : Nat) : Bool := decide (d.poff < pa + n) && decide (pa < d.poff + (d.vlimit - d.vbase))

/-- Check 4: the directory and its sets (R241, R243). [DEDUCED, log 86: unsafe] -/
def State.badDirectory (s : State) (e : LaunchEntry) : Bool :=
  let dir := e.field 17 0 52
  let ends := (List.range 16).map fun n => (e.set_ n).1 + (e.set_ n).2
  if dir % 64 ≠ 0 ∨ 15 < e.word 4 ∨ ends.any (fun n => decide (65535 < n)) || !inHbm dir (64 * maxOf ends) then true
  else
    let sets := s.readDirectory e
    let all := sets.flatMap (·.2)
    let rids := all.map (·.rid)
    !(all.all (fun d => d.aligned && d.valid s.hub.keys ((s.area e 5).2 / 64)) && sets.all (fun x => ascending x.2) && rids.Nodup &&
      !(all.any fun d => d.holds dir (64 * maxOf ends)) &&
      all.any fun d => d.rid == e.field 0 0 16 && d.perm.getLsbD 2)

/-- The size of an area breaks R393. -/
def badSize (a size n : Nat) : Bool :=
  match a with
  | 0 => size % 128 != 0
  | 1 => size % 64 != 0
  | 2 => decide (size < 64 * n)
  | 3 => decide (size < 8266240 * 1024)
  | 4 => decide (size < 5120 * 4096)
  | 5 => size % 64 != 0 || decide (64 * 2 ^ 20 < size)
  | 6 => size != 320 * 2 ^ 20
  | _ => size != 0

/-- The intervals of an area as placed (R393): its number, first byte and size. -/
def placed (a : Nat) (x : Nat × Nat) : List (Nat × Nat × Nat) :=
  let copies := (List.range 8).map fun d => (a, 2 ^ 37 * d + x.1 % 2 ^ 36, x.2)
  match a with
  | 5 => copies
  | 6 => copies
  | _ => [(a, x.1, x.2)]

/-- Two placed intervals of different areas overlap. -/
def overlapping (x y : Nat × Nat × Nat) : Bool :=
  x.1 != y.1 && decide (x.2.1 < y.2.1 + y.2.2) && decide (y.2.1 < x.2.1 + x.2.2)

/-- Check 5: the areas (R393). [DEDUCED, log 86: unsafe] -/
def State.badAreas (s : State) (e : LaunchEntry) : Bool :=
  let t := e.field 26 0 52
  if t % 64 ≠ 0 ∨ !inHbm t 128 then true
  else
    let areas := (List.range 8).map fun a => (a, s.area e a)
    let all := areas.flatMap fun a => placed a.1 a.2
    areas.any (fun a => badSize a.1 a.2.2 e.count || (a.1 == 7 && a.2.1 != 0) || !inHbm a.2.1 a.2.2) ||
      all.any (fun x => !inHbm x.2.1 x.2.2 || all.any (overlapping x))

/-- Affinity address of strand `i`. -/
def LaunchEntry.affinity (e : LaunchEntry) (i : Nat) : Nat := (e.field 10 0 48 + i * e.field 11 0 48) % 2 ^ 48

/-- The range of the template's set that holds the affinity addresses. -/
def State.affinityRange (s : State) (e : LaunchEntry) : Option Desc :=
  let base := e.field 10 0 48
  (descAt (s.readSet (e.field 17 0 52) (e.set_ (e.word 4))) base).filter fun d =>
    decide (base + (e.count - 1) * e.field 11 0 48 < d.vlimit)

/-- Root record of strand `i` (R392). -/
def LaunchEntry.root (e : LaunchEntry) (i dslot : Nat) : Record :=
  { kind := 1, state := 0, prio := e.field 0 54 2, nxph := false, wstat := false, trpend := false, pcore := 0
    rpc := BitVec.ofNat 32 (e.word 1), lidx := BitVec.ofNat 64 i, rset := BitVec.ofNat 32 (e.word 4), phase := 0
    mode := BitVec.ofNat 32 (e.word 6 % 2 ^ 31 + 2 ^ 31 * e.field 0 53 1), dslot := BitVec.ofNat 32 dslot
    args := (List.range 8).map fun k => BitVec.ofNat 32 (e.word (8 + k)) }

/-- The launch that an entry describes. [DEDUCED, log 113: unsafe] -/
def State.newLaunch (s : State) (e : LaunchEntry) (index : Nat) : Launch :=
  let orElse (n d : Nat) : Nat := if n = 0 then d else n
  { num := s.hub.launches + 1, ident := s.hub.ident, index := index, prio := e.field 0 54 2, det := e.field 0 53 1 == 1
    dmode := e.field 0 51 2, ppol := e.field 0 48 3, irq := e.field 0 47 1 == 1, coderid := e.field 0 0 16
    rset := e.word 4, mode := BitVec.ofNat 32 (e.word 6 % 2 ^ 31 + 2 ^ 31 * e.field 0 53 1), jkey := e.dws.getD 12 0
    pparam := BitVec.ofNat 32 (e.field 13 32 32), wlim := orElse (e.field 13 0 32) 10000
    mto := orElse (e.field 14 32 32) 1000, dlog := e.field 15 0 48, dlen := e.field 16 32 32
    shadow := (s.area e 0).2, overflow := (s.area e 1).2, statusBase := (s.area e 2).1, statusSize := (s.area e 2).2
    dirBase := e.field 17 0 52, dirSets := (List.range 16).map fun n => (n, e.set_ n), codeBase := 0
    queueArea := (s.area e 4).2 / 5120 / 64 * 64, queueBase := (s.area e 4).1, lintelBase := (s.area e 6).1, objects := (s.area e 5).2 / 64, phase := 0, committed := 0
    serial := false, marked := false, dropped := false, writes := [], posts := [], pwrites := [], ran := [], ended := [], dup := none
    flags := 0, elem := none, podDone := false, collectives := [], saveBase := (s.area e 3).1
    objectBase := (s.area e 5).1, roots := none }

/-- The record of strand `i` with its status block, in its home bucket (R28, R394). -/
def State.createRoot (s : State) (e : LaunchEntry) (d : Desc) (i : Nat) : State :=
  let va := e.affinity i
  (s.putStatus i (StatusBlock.fresh (BitVec.ofNat 48 va) (dieOfPa (d.physical va)))).toBucket (e.root i i)

/-- Records of strands `i`, `i + 1` and so on. -/
def State.createRoots (s : State) (e : LaunchEntry) (d : Desc) : Nat → Nat → State
  | _, 0 => s
  | i, n + 1 => State.createRoots (s.createRoot e d i) e d (i + 1) n

/-- Bytes of an area that has been given to the device hold nothing that could be read. [DEDUCED, log 88: unsafe] -/
def State.claimAreas (s : State) (e : LaunchEntry) : State :=
  let all := (List.range 7).flatMap fun a => placed a (s.area e a)
  s.onPlatform fun p => { p with
    blockKey := p.blockKey.filter fun b => !all.any fun x => decide (x.2.1 ≤ 64 * b.1) && decide (64 * b.1 < x.2.1 + x.2.2) }

/-- The directory of a new launch; its versions go on from those that the RIDs had (R244), and no core keeps an entry of
an earlier one (R243). [DEDUCED, log 88: unsafe] -/
def State.loadDirectory (s : State) (e : LaunchEntry) : State :=
  let sets := (s.readDirectory e).map fun x => (x.1, x.2.map fun d => { d with version := s.hub.nextVersion d.rid })
  let t : State := { s with cores := s.cores.map fun c =>
    (c.1, { c.2 with table := [], tableSet := none, savedSet := none, walkMiss := [] }) }
  t.onHub fun h => { h with
    dir := sets, dirUndo := 0
    versions := (sets.flatMap (·.2)).foldl (fun vs d => Sparse.set vs d.rid d.version) h.versions }

/-- The checks passed, the launch begins: its records are to be created before its first phase starts (R394). -/
def State.beginLaunch (s : State) (e : LaunchEntry) (index : Nat) (d : Desc) : State :=
  let l := s.newLaunch e index
  let s := (s.loadDirectory e).claimAreas e
  let base := (s.hub.descs.find? fun d => d.rid == l.coderid).map (·.vbase)
  let l := { l with codeBase := base.getD 0, roots := some (e.dws, d, 0) }
  s.onHub fun h => { h with
    launch := some l, launches := l.num, lastSet := some l.rset, status := [], hold := true }

/-- The command processor creates the next record of the launch; after the last one phase 0 starts (R32, R394).
[DEDUCED, log 94: unsafe] -/
def State.nextRoot (s : State) : State :=
  match s.hub.launch.bind (·.roots) with
  | none => s
  | some (dws, d, i) =>
    let e : LaunchEntry := { dws := dws }
    if i + 1 < e.count then (s.createRoot e d i).onLaunch fun l => { l with roots := some (dws, d, i + 1) }
    else ((s.createRoot e d i).onLaunch fun l => { l with roots := none }).openPhase 0

/-- Records are being created, and no pre-emption has stopped that (R398). -/
def State.creates (s : State) : Bool := s.hub.pstate == 0 && s.hub.launch.any fun l => l.roots.isSome

/-- The lowest check of R394 that fails, with the launch begun where none does.
[DEDUCED, log 86: unsafe; DEDUCED, log 94: unsafe] -/
def State.checkLaunch (s : State) (e : LaunchEntry) (index : Nat) : Except Nat State :=
  if e.badFields then .error 1
  else if e.badCount then .error 2
  else if e.badTemplate then .error 3
  else if s.badDirectory e then .error 4
  else if s.badAreas e then .error 5
  else match s.affinityRange e with
    | none => .error 6
    | some d =>
      let t := s.beginLaunch e index d
      if (t.createRoots e d 0 e.count).hasRoom then .ok t else .error 7

/-- LAUNCH (R391, R394): LSEQ counts the entry, the checks are made in their order, and the records are to be
created. [DEDUCED, log 6: safe] -/
def execLaunch (s : State) : Host.Outcome State Fault Refusal :=
  .next (if s.entryDue ≠ some 1 then s
    else
      let i := s.hub.lqhead
      let e : LaunchEntry := { dws := s.headEntry }
      let irq := e.field 0 47 1 == 1
      if !s.hub.job then (s.takeEntry 1 s.hub.ident).entryError i irq 0
      else
        let h : Hub := { s.hub with lseq := s.hub.lseq + 1 }
        let t := ({ s with hub := h }).takeEntry 1 h.ident
        match t.checkLaunch e i with
        | .error n => t.entryError i irq n
        | .ok u => u)

end Sys2Proof.Machine
end

