-- ==== Sys2Proof/Machine/Collective.lean ====
section
/-! DEFINITION. Collectives (R438 to R447): entries and their checks, the exchange steps between two layouts of a tensor,
the canonical reduction tree, the join, chunks, deaths of participants, and the end of an entry. What other packages
contribute comes in as events. -/

namespace Sys2Proof.Machine

/-- A field of a collective entry. -/
def collField (dws : List W64) (dw lo w : Nat) : Nat := fieldOf (dws.getD dw 0) lo w

/-- What an axis of the mesh does in a layout (R439). -/
inductive Role where
  /-- The tensor is partial over the axis. -/
  | partial_
  /-- A dimension is sharded on the axis. -/
  | shard (dim : Nat)
  /-- The tensor is replicated along the axis. -/
  | whole
  deriving DecidableEq, Repr

/-- Extents of the mesh (R438). -/
def collExtents (dws : List W64) : List Nat :=
  [collField dws 1 11 4 + 1, collField dws 1 15 5 + 1, collField dws 1 20 5 + 1]

/-- Number of dimensions. -/
def collDims (dws : List W64) : List Nat :=
  (List.range (collField dws 0 32 3)).map fun i => collField dws (5 + i / 2) (32 * (i % 2)) 32

/-- Element format. -/
def collFmt (dws : List W64) : Nat := collField dws 0 48 4

/-- Bytes of an element. -/
def collWidth (dws : List W64) : Nat := elemBits (collFmt dws) / 8

/-- Elements per chunk. -/
def collChunk (dws : List W64) : Nat := let n := collField dws 1 32 32; if n = 0 then 16384 else n

/-- Dimensions that a layout shards on an axis. -/
def shardsOn (lay ndim axis : Nat) : List Nat := (List.range ndim).filter fun i => bits lay (3 * i) 3 == axis + 1

/-- Role of an axis in a layout word; an axis of extent 1 has none. -/
def roleOf (lay ndim extent axis : Nat) : Role :=
  if extent = 1 then .whole
  else if lay.testBit (12 + axis) then .partial_
  else match shardsOn lay ndim axis with
    | d :: _ => .shard d
    | [] => .whole

/-- Roles of the three axes in the source (7) or destination (8) layout. -/
def collRoles (dws : List W64) (dw : Nat) : List Role :=
  (collExtents dws).zipIdx.map fun e => roleOf (collField dws dw 0 15) (collDims dws).length e.1 e.2

/-! Parts of the tensor. -/

/-- Global indices of a dimension that a package holds: the shards of every axis that shards it. -/
def heldRange (extents dims coords : List Nat) (roles : List Role) (d : Nat) : Nat × Nat :=
  let size := dims.getD d 0
  (roles.zipIdx.filter fun r => r.1 == .shard d).foldl (fun x r =>
    let n := size / extents.getD r.2 1
    (max x.1 (coords.getD r.2 0 * n), min x.2 ((coords.getD r.2 0 + 1) * n))) (0, size)

/-- The held ranges of all dimensions. -/
def heldRanges (extents dims coords : List Nat) (roles : List Role) : List (Nat × Nat) :=
  (List.range dims.length).map (heldRange extents dims coords roles)

/-- Elements of a part. -/
def partSize (ranges : List (Nat × Nat)) : Nat := ranges.foldl (fun n r => n * (r.2 - r.1)) 1

/-- The global index of the element at a place of a part, which lies in row-major order. -/
def globalIndex (ranges : List (Nat × Nat)) (n : Nat) : List Nat :=
  (ranges.reverse.foldl (fun x r => ((r.1 + x.2 % (r.2 - r.1)) :: x.1, x.2 / (r.2 - r.1))) (([] : List Nat), n)).1

/-- The place of a global index in a part. -/
def placeOf (ranges : List (Nat × Nat)) (g : List Nat) : Nat :=
  (ranges.zip g).foldl (fun n x => n * (x.1.2 - x.1.1) + (x.2 - x.1.1)) 0

/-! Steps (R441). -/

/-- One step of an exchange. -/
inductive CollStep where
  /-- Reduce-scatter or all-reduce along an axis. -/
  | reduce (axis : Nat) (dest : Role)
  /-- All-to-all along an axis. -/
  | exchange (axis : Nat) (dest : Role)
  /-- Whole shards exchanged between two axes. -/
  | permute (a b : Nat)
  /-- All-gather along an axis. -/
  | gather (axis : Nat)
  /-- Local slice. -/
  | slice (axis : Nat) (dest : Role)
  /-- Nothing to exchange: the part is copied. -/
  | copy
  deriving DecidableEq, Repr

/-- The roles after a step. -/
def CollStep.after : CollStep → List Role → List Role
  | .reduce a r, l => l.set a r
  | .exchange a r, l => l.set a r
  | .permute a b, l => (l.set a (l.getD b .whole)).set b (l.getD a .whole)
  | .gather a, l => l.set a .whole
  | .slice a r, l => l.set a r
  | .copy, l => l

/-- A pair of roles on one axis is derivable. -/
def derivable (src dst : Role) : Bool := !(dst == .partial_ && src != .partial_)

/-- Axes whose all-to-alls exchange whole shards with each other. -/
def permutes (extents : List Nat) (src dst : List Role) (a b : Nat) : Bool :=
  extents.getD a 1 == extents.getD b 1 && src.getD a .whole == dst.getD b .whole && src.getD b .whole == dst.getD a .whole &&
    (match src.getD a .whole, src.getD b .whole with
     | .shard i, .shard j => i != j
     | _, _ => false)

/-- All-to-alls in the order of their axes, a pair of them as one permute where it is one. -/
def exchanges (extents : List Nat) (src dst : List Role) : List CollStep :=
  let pairs := [(0, 1), (0, 2), (1, 2)].filter fun p => permutes extents src dst p.1 p.2
  match pairs with
  | p :: _ =>
    let rest := (List.range 3).filter fun a => a != p.1 && a != p.2
    .permute p.1 p.2 :: rest.filterMap fun a => match src.getD a .whole, dst.getD a .whole with
      | .shard i, .shard j => if i ≠ j then some (.exchange a (.shard j)) else none
      | _, _ => none
  | [] => (List.range 3).filterMap fun a => match src.getD a .whole, dst.getD a .whole with
      | .shard i, .shard j => if i ≠ j then some (.exchange a (.shard j)) else none
      | _, _ => none

/-- The steps that lead from one layout to another. -/
def collSteps (extents : List Nat) (src dst : List Role) : List CollStep :=
  let each (f : Nat → Role → Role → Option CollStep) : List CollStep :=
    (List.range 3).filterMap fun a => f a (src.getD a .whole) (dst.getD a .whole)
  let steps :=
    each (fun a s d => if s = .partial_ ∧ d ≠ .partial_ then some (.reduce a d) else none) ++
    exchanges extents src dst ++
    each (fun a s d => match s, d with | .shard _, .whole => some (.gather a) | _, _ => none) ++
    each (fun a s d => match s, d with | .whole, .shard j => some (.slice a (.shard j)) | _, _ => none)
  if steps.isEmpty then [.copy] else steps

/-! The canonical tree (R442). -/

/-- One combination of two elements: value and flags. -/
def combine (rop fmt : Nat) (a b : W64) : W64 × BitVec 8 :=
  let w := elemBits fmt
  let x := a.toNat % 2 ^ w
  let y := b.toNat % 2 ^ w
  if isFloat fmt then
    let r := if rop = 0 then addRounded Rnd.nearest fmt (decodeFloat fmt x) (decodeFloat fmt y)
      else minMaxCode (rop == 2) Rnd.nearest fmt x y
    (BitVec.ofNat 64 r.code, r.flags)
  else if rop = 0 then (BitVec.ofNat 64 ((x + y) % 2 ^ w), 0)
  else
    let less := decide (signed w x < signed w y)
    (BitVec.ofNat 64 (if (rop == 2) == less then y else x), 0)

/-- Where tree(lo, hi) splits. -/
def treeMid (lo hi : Nat) : Nat := lo + 2 ^ Nat.log2 (hi - lo - 1)

/-- [lo, hi) is a node of tree(a, b) (R442, R443); `fuel` bounds the depth. -/
def isNode : Nat → Nat → Nat → Nat → Nat → Bool
  | 0, _, _, _, _ => false
  | fuel + 1, a, b, lo, hi =>
    if a = lo ∧ b = hi then true
    else if b ≤ a + 1 then false
    else if hi ≤ treeMid a b then isNode fuel a (treeMid a b) lo hi
    else isNode fuel (treeMid a b) b lo hi

/-- Two operands of a node combined; what nobody has takes no part (R442, R446). -/
def combineSome (rop fmt : Nat) (l r : Option W64 × BitVec 8) : Option W64 × BitVec 8 :=
  match l.1, r.1 with
  | some a, some b => let c := combine rop fmt a b; (some c.1, l.2 ||| r.2 ||| c.2)
  | some a, none => (some a, l.2 ||| r.2)
  | none, b => (b, l.2 ||| r.2)

/-- tree(lo, hi) of R442, where `given` holds the nodes that need not be combined here: contributions, or what routers and other
packages have made of them (R443). `fuel` bounds the depth. -/
def canonicalTree (rop fmt : Nat) (given : Nat → Nat → Option (Option W64)) : Nat → Nat → Nat → Option W64 × BitVec 8
  | 0, _, _ => (none, 0)
  | fuel + 1, lo, hi =>
    match given lo hi with
    | some v => (v, 0)
    | none =>
      if hi ≤ lo + 1 then (none, 0)
      else combineSome rop fmt (canonicalTree rop fmt given fuel lo (treeMid lo hi))
        (canonicalTree rop fmt given fuel (treeMid lo hi) hi)

/-- The checksum of a chunk (R443). [DEDUCED, log 98: unsafe] -/
def chunkSum (fmt : Nat) (xs : List Nat) : Nat :=
  if fmt = 14 ∨ fmt = 15 then (xs.foldl (· + ·) 0) % 2 ^ 64
  else if fmt = 13 then (xs.foldl (· + ·) 0) % 2 ^ 32
  else ckSum (ckFmt fmt) (xs.map (decodeElem fmt 0))

/-- Bytes of a chunk's checksum. -/
def chunkSumBytes (fmt : Nat) : Nat := if fmt = 0 ∨ fmt = 14 ∨ fmt = 15 then 8 else 4

/-! Participants. -/

/-- Rank of box coordinates. -/
def rankOf (extents c : List Nat) : Nat :=
  c.getD 0 0 + extents.getD 0 1 * (c.getD 1 0 + extents.getD 1 1 * c.getD 2 0)

/-- Box coordinates of a package. -/
def State.collCoords (s : State) (dws : List W64) (p : Nat) : Option (List Nat) :=
  (s.fabric.boxCoords ((dws.getD 1 0).setWidth 25) p).map fun c => [c.1, c.2.1, c.2.2]

/-- Packages of the mesh with their ranks. -/
def State.participants (s : State) (dws : List W64) : List (Nat × Nat) :=
  (s.fabric.inBox ((dws.getD 1 0).setWidth 25)).filterMap fun p =>
    (s.collCoords dws p).map fun c => (p, rankOf (collExtents dws) c)

/-- Own coordinates. -/
def State.ownCoords (s : State) (dws : List W64) : List Nat := (s.collCoords dws s.hub.index).getD [0, 0, 0]

/-- Coordinates of the participants whose parts a step combines or moves for a package, ascending: the survivors of an axis, this
package among them, or the partner of a permute (R441, R446). -/
def CollStep.ring (extents coords dead : List Nat) : CollStep → List (List Nat)
  | .reduce a _ => along a
  | .exchange a _ => along a
  | .gather a => along a
  | .permute a b =>
    let c := (coords.set a (coords.getD b 0)).set b (coords.getD a 0)
    if c = coords ∨ dead.contains (rankOf extents c) then [] else [c]
  | .slice _ _ => []
  | .copy => []
where
  /-- Survivors of the ring of an axis. -/
  along (a : Nat) : List (List Nat) :=
    ((List.range (extents.getD a 1)).map fun n => coords.set a n).filter fun c =>
      c == coords || !dead.contains (rankOf extents c)

/-- The other participants of a step's ring. -/
def CollStep.others (extents coords dead : List Nat) (st : CollStep) : List (List Nat) :=
  (st.ring extents coords dead).filter (· != coords)

/-- Coordinates of the participant that holds an element before a step that moves data. -/
def CollStep.holder (extents dims coords : List Nat) (roles : List Role) (g : List Nat) : CollStep → List Nat
  | .exchange a _ => at_ a
  | .gather a => at_ a
  | .permute a b => (coords.set a (coords.getD b 0)).set b (coords.getD a 0)
  | _ => coords
where
  /-- The coordinate on an axis whose shard holds the element. -/
  at_ (a : Nat) : List Nat :=
    match roles.getD a .whole with
    | .shard d => coords.set a (g.getD d 0 / (dims.getD d 0 / extents.getD a 1))
    | _ => coords

/-! Entries (R438, R440). -/

/-- Check 1: reserved fields and values. [DEDUCED, log 95: unsafe] -/
def collBadFields (dws : List W64) (posted : Bool) : Bool :=
  [collField dws 0 35 12, collField dws 1 25 7, collField dws 2 32 32, collField dws 3 48 16, collField dws 4 48 16,
    collField dws 7 15 49, collField dws 8 15 49].any (· != 0) || (posted && collField dws 9 48 16 != 0) ||
    ((dws.drop 10).take 16).any (· != 0) || decide (3 ≤ collField dws 0 52 3) ||
    !([0, 1, 2, 13, 14, 15].contains (collFmt dws)) || collField dws 0 32 3 == 0 || decide (4 < collField dws 0 32 3)

/-- Check 4: a layout word (R439). [DEDUCED, log 95: unsafe] -/
def badLayout (dws : List W64) (dw : Nat) : Bool :=
  let lay := collField dws dw 0 15
  let dims := collDims dws
  let n := dims.length
  (List.range 4).any (fun i => decide (4 ≤ bits lay (3 * i) 3) || (decide (n ≤ i) && bits lay (3 * i) 3 != 0)) ||
    (collExtents dws).zipIdx.any fun e =>
      let on := shardsOn lay n e.2
      (decide (1 < e.1) && (decide (2 ≤ on.length) || (!on.isEmpty && lay.testBit (12 + e.2)))) ||
        on.any fun d => dims.getD d 0 % e.1 != 0

/-- A buffer lies wholly in one plain range with a permission (R94, R440). -/
def State.collBuffer (s : State) (va n : Nat) (need : BitVec 9) : Option Bound :=
  match s.hub.lastSet with
  | none => none
  | some set => (descAt (s.hub.set_ set) va).bind fun d =>
      if va + n ≤ d.vlimit ∧ d.perm &&& need = need ∧ d.perm.getLsbD 1 ∧ !d.perm.getLsbD 5 ∧ !d.perm.getLsbD 3 then
        some (d.bind va)
      else none

/-- Bytes of the local part in the source (7) or destination (8) layout. [DESIGN CHOICE, log 96: safe] -/
def State.collBytes (s : State) (dws : List W64) (dw : Nat) : Nat :=
  partSize (heldRanges (collExtents dws) (collDims dws) (s.ownCoords dws) (collRoles dws dw)) * collWidth dws

/-- Check 9: where a posted entry is written at its end. -/
def State.collTarget (s : State) (dws : List W64) : Option Bound :=
  let va := collField dws 9 0 48
  if va % 64 ≠ 0 ∨ collField dws 9 48 16 ≠ 0 then none else s.collBuffer va 256 permW

/-- The checks of R440 in their order: the number of the first that fails, or the two buffers. [DEDUCED, log 95: unsafe] -/
def State.checkColl (s : State) (dws : List W64) (posted : Bool) : Except Nat (Bound × Bound) :=
  let sva := collField dws 3 0 48
  let dva := collField dws 4 0 48
  let sn := s.collBytes dws 7
  let dn := s.collBytes dws 8
  if collBadFields dws posted then .error 1
  else if !s.fabric.boxFits ((dws.getD 1 0).setWidth 25) s.hub.index then .error 2
  else if (collDims dws).any (· == 0) then .error 3
  else if badLayout dws 7 || badLayout dws 8 then .error 4
  else if !((collRoles dws 7).zip (collRoles dws 8)).all (fun r => derivable r.1 r.2) then .error 5
  else match s.collBuffer sva sn permR, s.collBuffer dva dn permW with
    | some a, some b =>
      if sva < dva + dn ∧ dva < sva + sn then .error 7
      else if s.hub.checkGroup (dws.getD 2 0) ≠ 0 then .error 8
      else if posted && (s.collTarget dws).isNone then .error 9
      else .ok (a, b)
    | _, _ => .error 6

/-! The end of an entry (R438, R440, R447, R448). -/

/-- The doublewords of the dead participants' slots. [DEDUCED, log 97: unsafe] -/
def deadSlots (dead : List Nat) : List W64 :=
  (List.range 4).map fun k => BitVec.ofNat 64 ((List.range 4).foldl (fun n i =>
    n + 2 ^ (16 * i) * dead.getD (4 * k + i) 0xFFFF) 0)

/-- The command processor is done with an entry that no queue slot holds. [DEDUCED, log 99: unsafe] -/
def State.endPosted (s : State) (dws : List W64) (cw : W64) (irq bad : Bool) : State :=
  let image := dws.take 31 ++ [cw]
  let bytes := image.flatMap fun d => natToBytes 8 d.toNat
  let fin (t : State) (stop one : Bool) : State :=
    let t := t.hubEvent 0x11 cw.toNat
    let t := if irq && one then t.interrupt 0 else t
    let t := if stop then t.interrupt 1 else t
    t.onHub fun h => { h with run := false, qstop := h.qstop || stop, pstate := if h.pstate = 0 then 4 else h.pstate }
  match s.collTarget dws with
  | some b => fin (s.boundWrite b 5 0 bytes false).1 bad true
  | none => fin s true false

/-- The handle of a collective's group. -/
def collHandle (dws : List W64) : W32 := (dws.getD 2 0).setWidth 32

/-- The mesh of a collective as a box (R438). -/
def collBox (dws : List W64) : BitVec 25 := (dws.getD 1 0).setWidth 25

/-- The round of a join ends: the group's outstanding count falls, GEN advances where everybody has joined, and FBARs that came in
the meantime open the next round (R432, R445). [DESIGN CHOICE, log 127: unsafe] -/
def State.closeJoin (s : State) (dws : List W64) (all : Bool) : State :=
  match (s.fabric.entry (fieldOf (collHandle dws) 0 16) false).filter (·.join) with
  | none => s
  | some e =>
    let t := if all then s.sendFlits e (s.fabric.treeChildren e.box s.hub.index) else s
    ((t.endRound e).onFabric fun f => f.setEntry (e.closed (if all then (e.gen + 1) % 65536 else e.gen))).joinHeld e.gid e.nextRecs

/-- A collective entry ends (R447): what it writes back, its completion word, and the rest of R395.
[DEDUCED, log 99: unsafe] -/
def State.endColl (s : State) (dws : List W64) (index : Option Nat) (fault detail : Nat) (flags : BitVec 8)
    (dead : List Nat) (resume : Option Nat) : State :=
  let low := resume.getD (2 ^ 32 - 1)
  let irq := collField dws 0 55 1 == 1
  let back := flags.setWidth 64 :: deadSlots dead
  let s := (s.closeJoin dws false).onHub fun h => { h with coll := none }
  match index with
  | some i =>
    let a := s.entryAddress i
    (back.zipIdx.foldl (fun s d => s.hbmPutDw (a + 8 * (26 + d.2)) d.1) s).endEntry i irq fault detail low []
  | none => s.endPosted (dws.take 26 ++ back) (completionWord fault detail low) irq (fault != 0)

/-- A collective in progress ends with a fault. -/
def State.failColl (s : State) (fault detail : Nat) : State :=
  match s.hub.coll with
  | none => s
  | some c => s.endColl c.dws c.index fault detail c.flags c.dead c.resume

/-! Parts in memory. -/

/-- Bytes of the source part; a block that can not be read and may not be substituted reads as free bytes. -/
def State.readPart (s : State) (b : Bound) : Nat → Nat → Nat → State × List Byte
  | 0, _, _ => (s, [])
  | fuel + 1, off, n =>
    if n = 0 then (s, [])
    else
      let k := min n (64 - (b.pa + off) % 64)
      let r := s.consume b (fun t o m => (List.range m).map fun i => t.boundByte b (o + i)) 2 off k
      let bytes := if r.2.2 then r.2.1
        else (List.range k).map fun i => (Config.freeWord s.fresh (off + i) 9600).setWidth 8
      let t := State.readPart r.1 b fuel (off + k) (n - k)
      (t.1, bytes ++ t.2)

/-- Elements of a part written to the destination buffer; those that nobody has keep their bytes.
[DESIGN CHOICE, log 96: safe] -/
def State.writePart (s : State) (b : Bound) (width first : Nat) (xs : List (Option W64)) : State :=
  xs.zipIdx.foldl (fun s x => match x.1 with
    | none => s
    | some v =>
      let off := (first + x.2) * width
      let r := s.boundWrite b 3 off (natToBytes width v.toNat) false
      if r.2 then r.1.noteRefused (r.1.redirect b off) width 2 else r.1) s

/-! The run of a collective (R441 to R446). -/

/-- The steps of a collective. -/
def Coll.steps (c : Coll) : List CollStep := collSteps (collExtents c.dws) (collRoles c.dws 7) (collRoles c.dws 8)

/-- The roles before step `n`. -/
def Coll.rolesAt (c : Coll) (n : Nat) : List Role := (c.steps.take n).foldl (fun r s => s.after r) (collRoles c.dws 7)

/-- Ranges that this package holds before step `n`. -/
def State.collRanges (s : State) (c : Coll) (n : Nat) : List (Nat × Nat) :=
  heldRanges (collExtents c.dws) (collDims c.dws) (s.ownCoords c.dws) (c.rolesAt n)

/-- Chunks of the step in progress. -/
def State.collChunks (s : State) (c : Coll) : Nat :=
  let n := partSize (s.collRanges c (c.stepNo + 1))
  (n + collChunk c.dws - 1) / collChunk c.dws

/-- Steps whose chunks are all complete are left behind, but for the last one. `fuel` bounds the steps.
[DEDUCED, log 98: unsafe] -/
def State.passSteps (s : State) (c : Coll) : Nat → State
  | 0 => s.onHub fun h => { h with coll := some c }
  | fuel + 1 =>
    if c.chunk < s.collChunks c ∨ c.steps.length ≤ c.stepNo + 1 then s.onHub fun h => { h with coll := some c }
    else
      let c := { c with stepNo := c.stepNo + 1, chunk := 0, sent := 0, part := c.out }
      let c := { c with out := List.replicate (partSize (s.collRanges c (c.stepNo + 1))) none }
      State.passSteps s c fuel

/-- The hash that a join compares (R445). [DEDUCED, log 98: unsafe] -/
def collHash (dws : List W64) : W64 :=
  match dws.take 26 with
  | [] => 0
  | d :: ds => ds.foldl (fun h w => mix64 (h ^^^ w)) (hash64 d)

/-- Ranks in ascending order. -/
def insertRank (n : Nat) : List Nat → List Nat
  | [] => [n]
  | m :: ms => if n < m then n :: m :: ms else if n = m then m :: ms else m :: insertRank n ms

/-- The package at coordinates of the mesh. -/
def State.collPackage (s : State) (dws : List W64) (c : List Nat) : Nat :=
  s.fabric.boxPackage (collBox dws) (c.getD 0 0, c.getD 1 0, c.getD 2 0)

/-- Length of the contributions to a chunk of `n` elements. -/
def contributionBytes (dws : List W64) (n : Nat) : Nat :=
  n * collWidth dws + (if collField dws 0 47 1 = 1 then chunkSumBytes (collFmt dws) else 0)

/-- What this package contributes to chunk `k` of another participant: the elements that it supplies, at their places, with their
checksum where chunks carry one (R443, R444). [DEDUCED, log 98: unsafe] -/
def State.contributionTo (s : State) (c : Coll) (o : List Nat) (k : Nat) : List Byte :=
  let ext := collExtents c.dws
  let dims := collDims c.dws
  let me := s.ownCoords c.dws
  let step := c.steps.getD c.stepNo .copy
  let ranges := heldRanges ext dims o (c.rolesAt (c.stepNo + 1))
  let n := min (collChunk c.dws) (partSize ranges - k * collChunk c.dws)
  let element (i : Nat) : Nat :=
    let g := globalIndex ranges (k * collChunk c.dws + i)
    let mine := match step with
      | .reduce _ _ => true
      | st => st.holder ext dims o (c.rolesAt c.stepNo) g == me
    if mine then ((c.part.getD (placeOf (s.collRanges c c.stepNo) g) none).getD 0).toNat else 0
  let xs := (List.range n).map element
  xs.flatMap (natToBytes (collWidth c.dws)) ++
    (if collField c.dws 0 47 1 = 1 then natToBytes (chunkSumBytes (collFmt c.dws)) (chunkSum (collFmt c.dws) xs) else [])

/-- Every contribution that the others need for a chunk leaves (R444). -/
def State.sendChunk (s : State) (c : Coll) (k : Nat) : State :=
  let step := c.steps.getD c.stepNo .copy
  (step.others (collExtents c.dws) (s.ownCoords c.dws) c.dead).foldl (fun t o =>
    (chunksOf 512 (s.contributionTo c o k)).foldl (fun t data =>
      t.sendOwn (s.collPackage c.dws o) 5 (collHandle c.dws) (BitVec.ofNat 32 k) data) t) s

/-- Contributions are sent ahead, for at most 8 chunks of the step at a time (R444). `fuel` bounds the chunks. -/
def State.sendAhead (s : State) : Nat → State
  | 0 => s
  | fuel + 1 =>
    match s.hub.coll with
    | some c =>
      if c.sent < min (s.collChunks c) (c.chunk + 8) then
        State.sendAhead ((s.sendChunk c c.sent).onHub fun h => { h with coll := some { c with sent := c.sent + 1 } }) fuel
      else s
    | none => s

/-- This package's arrival goes up the tree of the join's round once its children have joined (R433, R445). -/
def State.climbJoin (s : State) (c : Coll) : State :=
  match (s.fabric.entry (fieldOf (collHandle c.dws) 0 16) false).filter fun e => e.join && !e.sentUp with
  | none => s
  | some e =>
    if (s.fabric.treeChildren e.box s.hub.index).all c.peers.contains then
      let t := s.onFabric fun f => f.setEntry { e with sentUp := true }
      match s.fabric.treeUp e.box s.hub.index with
      | none => t
      | some up => t.sendFlit e up
    else s

/-- Once every participant has joined or is dead, the first step begins. [DESIGN CHOICE, log 127: unsafe] -/
def State.tryJoin (s : State) (c : Coll) : State :=
  let all := s.participants c.dws
  let gone (p : Nat × Nat) : Bool := c.dead.contains p.2 || s.fabric.dead.contains p.1
  let s := s.climbJoin c
  if all.all fun p => c.peers.contains p.1 || gone p then
    let dead := (all.filter gone).foldl (fun l p => insertRank p.2 l) c.dead
    let s := s.closeJoin c.dws dead.isEmpty
    let n := partSize (s.collRanges c 0)
    let w := collWidth c.dws
    let r := s.readPart c.sbuf (n * w + 1) 0 (n * w)
    let part := (List.range n).map fun i => some (BitVec.ofNat 64 (bytesToNat ((r.2.drop (i * w)).take w)))
    let c := { c with joined := true, dead := dead, stepNo := 0, chunk := 0, sent := 0, part := part }
    let c := { c with out := List.replicate (partSize (s.collRanges c 1)) none }
    (r.1.passSteps c (c.steps.length + 1)).sendAhead 8
  else s.onHub fun h => { h with coll := some c }

/-- The round of a join can open: GROUP's entry holds none, and it is active or another one can be (R432, R445).
[DESIGN CHOICE, log 127: unsafe] -/
def State.joinFree (s : State) (dws : List W64) : Bool :=
  match s.fabric.entry (fieldOf (collHandle dws) 0 16) false with
  | some e => !e.isOpen && (e.active || !s.fabric.entriesFull)
  | none => !s.fabric.entriesFull

/-- The first join of each participant among those that have come early. -/
def firstJoins (peers : List Nat) (js : List (Nat × W64)) : List (Nat × W64) :=
  peers.filterMap fun p => js.find? fun j => j.1 == p

/-- Joins that came before this package's own are taken: one with another hash fails the entry (R445). -/
def State.takeJoins (s : State) (c : Coll) : State :=
  let js := firstJoins (((s.participants c.dws).map (·.1)).filter (· != s.hub.index)) s.hub.joins
  let t := s.onHub fun h => { h with joins := js.foldl (fun l j => l.erase j) h.joins, coll := some c }
  if js.any fun j => j.2 != collHash c.dws then t.failColl 0x22 0
  else t.tryJoin { c with peers := c.peers ++ js.map (·.1) }

/-- The LXU joins: it opens a round on the group's entry, which counts as outstanding, and sends its hash to the other participants
(R432, R445). [DESIGN CHOICE, log 127: unsafe] -/
def State.openJoin (s : State) (c : Coll) : State :=
  let handle := collHandle c.dws
  let gid := fieldOf handle 0 16
  let inc := BitVec.ofNat 8 (fieldOf handle 16 8)
  let e := match s.fabric.entry gid false with
    | some e => if e.inc = inc then e else FabEntry.fresh gid inc false
    | none => FabEntry.fresh gid inc false
  let t := (s.onHub fun h => h.outstanding handle true).onFabric fun f => f.setEntry
    { e with isOpen := true, join := true, box := collBox c.dws, since := s.time, sentUp := false, need := 0 }
  let others := ((s.participants c.dws).map (·.1)).filter fun p => p != s.hub.index && !s.fabric.dead.contains p
  (others.foldl (fun t p => t.sendOwn p 5 handle 0 (natToBytes 8 (collHash c.dws).toNat)) t).takeJoins { c with opened := true }

/-- A collective begins: its join opens as soon as its round can. -/
def State.beginColl (s : State) (c : Coll) : State :=
  if s.joinFree c.dws then s.openJoin c else s.onHub fun h => { h with coll := some c }

/-- A join that has waited for its round can open it. -/
def State.joinDue (s : State) : Bool := s.hub.coll.any fun c => !c.opened && s.joinFree c.dws

/-- It opens. -/
def State.serveJoin (s : State) : State :=
  match s.hub.coll with
  | some c => if !c.opened && s.joinFree c.dws then s.openJoin c else s
  | none => s

/-- The collective entry that the command processor takes next: an entry that strands posted, or one of the queue (R390,
R448). -/
def State.collDue (s : State) : Option (Option Nat × List W64) :=
  match s.hub.collQueue with
  | d :: _ =>
    if !s.hub.run && !s.hub.qstop && s.hub.waiting.isEmpty && (s.hub.pstate == 4 || s.hub.pstate == 0) && s.hub.launch.isNone && s.hub.coll.isNone then
      some (none, d)
    else none
  | [] => if s.entryDue = some 2 then some (some s.hub.lqhead, s.headEntry) else none

/-- COLLECTIVE_ENTRY (R391, R440, R445, R448): the entry is checked, and the LXU begins its join. -/
def execCollectiveEntry (s : State) : Host.Outcome State Fault Refusal :=
  .next (match s.collDue with
    | none => s
    | some (index, dws) =>
      let t := match index with
        | some _ => s.takeEntry 2 s.hub.ident
        | none => (s.onHub fun h => { h with collQueue := h.collQueue.drop 1, run := true, pstate := 0 }).hubEvent 0x10
            (2 ^ 64 - 1 + 2 ^ 65 + 2 ^ 128 * s.hub.ident.toNat)
      if index.isSome && !t.hub.job then
        t.endEntry s.hub.lqhead (collField dws 0 55 1 == 1) 0x01 0 (2 ^ 32 - 1) [0, 0, 0, 0]
      else match t.checkColl dws index.isNone with
        | .error n => t.endColl dws index 0x20 n 0 [] none
        | .ok (a, b) =>
          t.beginColl { dws := dws, index := index, sbuf := a, dbuf := b, opened := false, joined := false
                        peers := [t.hub.index], dead := [], stepNo := 0, chunk := 0, sent := 0, resume := none
                        since := t.time, part := [], out := [], flags := 0, bad := [] })

/-- COLLECTIVE_JOIN (R445): a participant joins with the hash of its entry; a join for a collective that this package has not
joined yet waits for it. [DESIGN CHOICE, log 77: safe; DESIGN CHOICE, log 127: unsafe] -/
def execCollectiveJoin (peer : Nat) (hash : BitVec 64) (s : State) : Host.Outcome State Fault Refusal :=
  let early := s.onHub fun h => { h with joins := h.joins ++ [(peer, hash)] }
  .next (match s.hub.coll with
    | none => early
    | some c =>
      if c.joined ∨ !c.opened ∨ c.peers.contains peer ∨ !((s.participants c.dws).any fun p => p.1 == peer) then early
      else if (s.participants c.dws).any fun p => p.1 == peer && c.dead.contains p.2 then s
      else if hash ≠ collHash c.dws then s.failColl 0x22 0
      else s.tryJoin { c with peers := c.peers ++ [peer] })

/-- Join timeout in ns (R438). -/
def joinLimit (dws : List W64) : Nat := let n := collField dws 0 0 32; 1000 * (if n = 0 then 10000 else n)

/-- JOIN_TIMEOUT (R445): a participant that has not joined in time is treated as dead. -/
def execJoinTimeout (peer : Nat) (s : State) : Host.Outcome State Fault Refusal :=
  .next (match s.hub.coll with
    | none => s
    | some c =>
      if c.joined ∨ !c.opened ∨ c.peers.contains peer ∨ s.time < c.since + joinLimit c.dws then s
      else match (s.participants c.dws).find? fun p => p.1 == peer with
        | some p => s.tryJoin { c with dead := insertRank p.2 c.dead }
        | none => s)

/-- Participants found dead since the last step. [DEDUCED, log 97: unsafe] -/
def State.newlyDead (s : State) (c : Coll) : List Nat :=
  ((s.participants c.dws).filter fun p => s.fabric.dead.contains p.1 && !c.dead.contains p.2).map (·.2)

/-- The other participants that survive. -/
def State.survivors (s : State) (c : Coll) : List Nat :=
  ((s.participants c.dws).filter fun p =>
    p.1 != s.hub.index && !c.dead.contains p.2 && !s.fabric.dead.contains p.1).map (·.1)

/-- Each of the other survivors has said what it has to say at a death or at the end, and none sends elements.
[DESIGN CHOICE, log 77: safe] -/
def State.agreement (s : State) (c : Coll) (xs : List Contribution) : Bool :=
  xs.length == (s.survivors c).length && xs.all (·.bytes.isEmpty)

/-- The survivors agree on the dead and on the resume point, the lowest count of chunks that one of them has completed; what has been
sent for chunks from there on is sent again (R446). [DEDUCED, log 97: unsafe] -/
def State.restitch (s : State) (c : Coll) (xs : List Contribution) : State :=
  let p := (xs.map (·.done)).foldl min c.chunk
  (s.onHub fun h => { h with coll := some { c with
    dead := (s.newlyDead c).foldl (fun l r => insertRank r l) c.dead, chunk := p, sent := p, resume := some p, bad := [] } }).sendAhead 8

/-- Every chunk of the last step is complete; until its entry is written a collective can still lose a participant (R446,
R454). [DEDUCED, log 98: unsafe] -/
def State.collDone (s : State) (c : Coll) : Bool :=
  c.joined && decide (c.steps.length ≤ c.stepNo + 1) && decide (s.collChunks c ≤ c.chunk)

/-- Contributions have the form that the chunk needs: each other participant of the ring stands in one of them, alone or, in a
reduction, in a node of the canonical tree that has been combined on the way (R442, R443). -/
def contributionsFit (dws : List W64) (step : CollStep) (ring : List (List Nat)) (me : List Nat) (n : Nat)
    (xs : List Contribution) : Bool :=
  let k := ring.length
  xs.all (fun x => x.bytes.length == contributionBytes dws n && decide (x.lo < x.hi) && decide (x.hi ≤ k) &&
    (match step with
     | .reduce _ _ => isNode (k + 1) 0 k x.lo x.hi
     | _ => x.hi == x.lo + 1)) &&
    (List.range k).all fun i =>
      (xs.filter fun x => decide (x.lo ≤ i) && decide (i < x.hi)).length == if ring.getD i [] == me then 0 else 1

/-- Elements of a contribution. -/
def contributed (dws : List W64) (n : Nat) (x : List Byte) : List Nat :=
  (List.range n).map fun i => bytesToNat ((x.drop (i * collWidth dws)).take (collWidth dws))

/-- A contribution's checksum agrees with its elements (R443). -/
def contributionSound (dws : List W64) (n : Nat) (x : List Byte) : Bool :=
  collField dws 0 47 1 == 0 ||
    bytesToNat (x.drop (n * collWidth dws)) == chunkSum (collFmt dws) (contributed dws n x)

/-- An element of a contribution, where one of its participants still has it. -/
def contributedElement (x : Contribution) (width i : Nat) : Option W64 :=
  if x.lost.contains i then none else some (BitVec.ofNat 64 (bytesToNat ((x.bytes.drop (i * width)).take width)))

/-- One element of the step's destination part: its value if somebody supplies it, else what stands there, and flags (R441, R442,
R446). -/
def State.collElement (s : State) (c : Coll) (step : CollStep) (xs : List Contribution) (first i : Nat) :
    Option W64 × BitVec 8 :=
  let ext := collExtents c.dws
  let me := s.ownCoords c.dws
  let ring := step.ring ext me c.dead
  let g := globalIndex (s.collRanges c (c.stepNo + 1)) (first + i)
  let own := c.part.getD (placeOf (s.collRanges c c.stepNo) g) none
  let kept := c.out.getD (first + i) none
  let value (x : Contribution) : Option W64 := contributedElement x (collWidth c.dws) i
  match step with
  | .reduce _ _ =>
    let given (lo hi : Nat) : Option (Option W64) :=
      if lo + 1 = hi ∧ ring.getD lo [] = me then some own else (xs.find? fun x => x.lo == lo && x.hi == hi).map value
    let r := canonicalTree (collField c.dws 0 52 3) (collFmt c.dws) given (ring.length + 1) 0 ring.length
    (r.1 <|> kept, r.2)
  | .slice _ _ => (own <|> kept, 0)
  | .copy => (own <|> kept, 0)
  | st =>
    let h := st.holder ext (collDims c.dws) me (c.rolesAt c.stepNo) g
    if h = me then (own <|> kept, 0)
    else (((xs.find? fun x => ring.getD x.lo [] == h).bind value) <|> kept, 0)

/-- A chunk is combined and written (R442 to R444). -/
def State.runChunk (s : State) (c : Coll) (step : CollStep) (xs : List Contribution) (first n : Nat) : State :=
  let es := (List.range n).map fun i => s.collElement c step xs first i
  let vals := es.map (·.1)
  let c := { c with
    out := c.out.take first ++ vals ++ c.out.drop (first + n), chunk := c.chunk + 1, bad := []
    flags := (es.map (·.2) ++ xs.map (·.flags)).foldl (· ||| ·) c.flags }
  let s := if c.stepNo + 1 = c.steps.length then s.writePart c.dbuf (collWidth c.dws) first vals else s
  (s.passSteps c (c.steps.length + 1)).sendAhead 8

/-- Participants of the ring that a contribution comes from. -/
def contributionPlaces (x : Contribution) : List Nat := (List.range (x.hi - x.lo)).map (x.lo + ·)

/-- Contributions have failed their checksums: for each the chunk is requested once more, and a second failure ends the entry
(R443). -/
def State.refuseChunk (s : State) (c : Coll) (ring : List (List Nat)) (bad : List Contribution) : State :=
  let places := bad.flatMap contributionPlaces
  if places.any c.bad.contains then s.failColl 0x23 c.stepNo
  else
    (places.foldl (fun t i => t.sendOwn (s.collPackage c.dws (ring.getD i [])) 5 (collHandle c.dws) (BitVec.ofNat 32 c.chunk) [])
      s).onHub fun h => { h with coll := some { c with bad := c.bad ++ places } }

/-- The entry ends with the flags of every combination, those that the other participants made among them (R438, R447, R454). -/
def State.finishColl (s : State) (c : Coll) (xs : List Contribution) : State :=
  s.endColl c.dws c.index (if c.dead.isEmpty then 0 else 0x21) c.dead.length ((xs.map (·.flags)).foldl (· ||| ·) c.flags) c.dead
    c.resume

/-- COLLECTIVE_CHUNK (R443, R444, R446): the next chunk of the step, with what the other participants of its ring supply for
it; after a death the survivors first agree on where to resume; behind the last chunk the entry ends.
[DESIGN CHOICE, log 77: safe] -/
def execCollectiveChunk (contribution : List Contribution) (s : State) : Host.Outcome State Fault Refusal :=
  .next (match s.hub.coll with
    | none => s
    | some c =>
      if !c.joined then s
      else if !(s.newlyDead c).isEmpty then (if s.agreement c contribution then s.restitch c contribution else s)
      else if s.collDone c then (if s.agreement c contribution then s.finishColl c contribution else s)
      else
        let step := c.steps.getD c.stepNo .copy
        let size := partSize (s.collRanges c (c.stepNo + 1))
        let first := c.chunk * collChunk c.dws
        let n := min (collChunk c.dws) (size - first)
        let ring := step.ring (collExtents c.dws) (s.ownCoords c.dws) c.dead
        let bad := contribution.filter fun x => !contributionSound c.dws n x.bytes
        if !contributionsFit c.dws step ring (s.ownCoords c.dws) n contribution then s
        else if bad.isEmpty then s.runChunk c step contribution first n
        else s.refuseChunk c ring bad)

end Sys2Proof.Machine
end

