-- ==== Sys2Proof/Machine/Keccak.lean ====
section
/-! DEFINITION. SHA3-384 (R3, R415): the spec names the function and does not define it; what stands here is the public
standard's. -/

namespace Sys2Proof.Machine

/-- Lane x, y of the permutation's state, kept as 25 lanes row by row. -/
def keccakLane (a : List W64) (x y : Nat) : W64 := a.getD (x % 5 + 5 * (y % 5)) 0

/-- The state whose lanes a function gives. -/
def lanes (f : Nat → Nat → W64) : List W64 := (List.range 25).map fun i => f (i % 5) (i / 5)

/-- The parity of a column. -/
def columnParity (a : List W64) (x : Nat) : W64 :=
  keccakLane a x 0 ^^^ keccakLane a x 1 ^^^ keccakLane a x 2 ^^^ keccakLane a x 3 ^^^ keccakLane a x 4

/-- Every bit takes the parities of two neighbouring columns. -/
def mixColumns (a : List W64) : List W64 :=
  let ps := (List.range 5).map (columnParity a)
  lanes fun x y => keccakLane a x y ^^^ ps.getD ((x + 4) % 5) 0 ^^^ (ps.getD ((x + 1) % 5) 0).rotateLeft 1

/-- Rotations of the lanes, row by row. -/
def laneTurns : List Nat :=
  [0, 1, 62, 28, 27, 36, 44, 6, 55, 20, 3, 10, 43, 25, 39, 41, 45, 15, 21, 8, 18, 2, 61, 56, 14]

/-- Lanes are rotated and change places. -/
def turnLanes (a : List W64) : List W64 :=
  lanes fun x y => let from_ := (x + 3 * y) % 5; (keccakLane a from_ x).rotateLeft (laneTurns.getD (from_ + 5 * x) 0)

/-- The step that is not linear. -/
def mixRows (a : List W64) : List W64 :=
  lanes fun x y => keccakLane a x y ^^^ (~~~(keccakLane a (x + 1) y) &&& keccakLane a (x + 2) y)

/-- Constants of the rounds. -/
def roundConstants : List W64 :=
  [0x0000000000000001, 0x0000000000008082, 0x800000000000808A, 0x8000000080008000, 0x000000000000808B,
   0x0000000080000001, 0x8000000080008081, 0x8000000000008009, 0x000000000000008A, 0x0000000000000088,
   0x0000000080008009, 0x000000008000000A] ++
  [0x000000008000808B, 0x800000000000008B, 0x8000000000008089, 0x8000000000008003, 0x8000000000008002,
   0x8000000000000080, 0x000000000000800A, 0x800000008000000A, 0x8000000080008081, 0x8000000000008080,
   0x0000000080000001, 0x8000000080008008]

/-- One round with its constant. -/
def keccakRound (a : List W64) (rc : W64) : List W64 :=
  let b := mixRows (turnLanes (mixColumns a))
  b.set 0 (b.getD 0 0 ^^^ rc)

/-- The permutation of 24 rounds. -/
def keccak (a : List W64) : List W64 := roundConstants.foldl keccakRound a

/-- Bytes of a block that SHA3-384 absorbs. -/
def sha3Rate : Nat := 104

/-- A block absorbed. -/
def absorb (a : List W64) (block : List Byte) : List W64 :=
  keccak (a.zipIdx.map fun l => l.1 ^^^ BitVec.ofNat 64 (bytesToNat ((block.drop (8 * l.2)).take 8)))

/-- A message with the padding of SHA3. -/
def sha3Padded (bytes : List Byte) : List Byte :=
  let n := sha3Rate - bytes.length % sha3Rate
  bytes ++ (if n = 1 then [0x86] else [0x06] ++ List.replicate (n - 2) 0 ++ [0x80])

/-- Blocks of some bytes; `fuel` bounds their number. -/
def absorbAll : Nat → List W64 → List Byte → List W64
  | 0, a, _ => a
  | fuel + 1, a, bytes => if bytes.isEmpty then a else absorbAll fuel (absorb a (bytes.take sha3Rate)) (bytes.drop sha3Rate)

/-- SHA3-384 of a message, the first byte of the digest the most significant one. [PRESUMED, log 125: safe] -/
def sha3 (bytes : List Byte) : BitVec 384 :=
  let a := absorbAll (bytes.length / sha3Rate + 1) (List.replicate 25 0) (sha3Padded bytes)
  BitVec.ofNat 384 (bytesToNat ((a.take 6).flatMap fun l => natToBytes 8 l.toNat).reverse)

end Sys2Proof.Machine
end

