-- ==== Sys2Proof/Machine/Platform.lean ====
section
/-! DEFINITION. The platform (R403 to R419): what the host reads from the registers of the hub, the memory window, the
patrol scrubber, the eye loop of the HBM stacks, boot and attestation, and the power, thermal and rail loops. -/

namespace Sys2Proof.Machine

/-! Eyes (R413, R414). -/

/-- The eye state of a stack after reset (R405, R413). -/
def Eye.reset (stack : Nat) : Eye :=
  { ctl := 0x10010, low := [], repd := 0, spare := (Config.spareLanes stack).val, nosp := false
    rtpend := false, int := false, armed := [], patrol := 0 }

/-- The eye state of a stack. -/
def Platform.eye (p : Platform) (stack : Nat) : Eye := (Sparse.get? p.eyes stack).getD (Eye.reset stack)

/-- The eye state of a stack changed by a function. -/
def State.onEye (s : State) (stack : Nat) (f : Eye → Eye) : State :=
  s.onPlatform fun p => { p with eyes := Sparse.set p.eyes stack (f (p.eye stack)) }

/-- The margin of a lane now, with its lane: of a lane below the threshold as last measured, of any other one free (R413).
[DESIGN CHOICE, log 102: unsafe] -/
def State.laneMargin (s : State) (stack lane : Nat) : Nat × Nat :=
  match (s.platform.eye stack).low.find? (·.lane == lane) with
  | some l => (l.margin % 65536, lane)
  | none => ((Config.eyeMargin s.fresh stack lane).toNat, lane)

/-- The smallest margin of the stack's lanes and its lane: those below the threshold, the selected one, and one of those that
no register names (R413). [DESIGN CHOICE, log 102: unsafe] -/
def State.worstLane (s : State) (stack : Nat) : Nat × Nat :=
  let e := s.platform.eye stack
  let lanes := e.low.map (·.lane) ++ [fieldOf e.ctl 17 12]
  (lanes.map (s.laneMargin stack)).foldl (fun a b => if b.1 < a.1 then b else a)
    (s.laneMargin stack (Config.choice s.fresh 67000 % 65536))

/-- EYESTAT of a stack (R413); before the boot has trained the lanes no margin has been measured.
[DESIGN CHOICE, log 102: unsafe] -/
def State.eyestat (s : State) (stack : Nat) : W64 :=
  let e := s.platform.eye stack
  let worst := if s.platform.booted then s.worstLane stack else (0, 0)
  let lmarg := if s.platform.booted then (s.laneMargin stack (fieldOf e.ctl 17 12)).1 else 0
  BitVec.ofNat 64 (2 ^ 48 * lmarg + 2 ^ 32 * worst.2 + 2 ^ 16 * worst.1 + 2 ^ 8 * (e.repd % 256) +
    2 ^ 4 * (e.spare % 16) + bitAt e.nosp 3 + bitAt e.rtpend 2 + bitAt e.int 1)

/-- EYECTL_WRITE (R413): the control fields are written and INT is cleared. -/
def execEyectlWrite (stack : Nat) (value : BitVec 64) (s : State) : Host.Outcome State Fault Refusal :=
  if 16 ≤ stack then .fault (.noSuchUnit stack)
  else .next (if s.platform.bootFailed then s
    else s.onEye stack fun e => { e with ctl := value % 2 ^ 29, int := false })

/-- An event of the eye loop in the hub's record (R402): 0 retraining, 1 repair, 2 no spare. -/
def State.eyeEvent (s : State) (stack lane margin action : Nat) : State :=
  s.hubEvent 0x1B (stack + 2 ^ 64 * lane + 2 ^ 128 * margin + 2 ^ 192 * action)

/-- EYE_THRESHOLD_CROSSED (R413, R414): the margin of a lane that has fallen below THRESH is some value below it; the margin of
one that stands below it already does not fall below it. [DESIGN CHOICE, log 102: unsafe] -/
def execEyeThresholdCrossed (stack lane : Nat) (s : State) : Host.Outcome State Fault Refusal :=
  if 16 ≤ stack then .fault (.noSuchUnit stack)
  else
    let e := s.platform.eye stack
    let limit := fieldOf e.ctl 0 16
    let lane := lane % 65536
    .next (if limit = 0 ∨ e.low.any (·.lane == lane) then s
      else
        let margin := (Config.eyeMargin s.fresh stack lane).toNat % limit
        let t := s.onEye stack fun e => { e with
          int := true, rtpend := true, low := e.low ++ [{ lane := lane, margin := margin, stage := 0 }] }
        let t := t.eyeEvent stack lane margin 0
        if flagOf e.ctl 16 then t.interrupt 3 else t)

/-- What a retraining slot does to a lane below the threshold (R414): its first one retrains it, and the next one repairs it on
a spare or, without one, leaves it in service. -/
def State.serveLane (s : State) (stack : Nat) (l : LowLane) : State :=
  let e := s.platform.eye stack
  let others := e.low.filter (·.lane != l.lane)
  match l.stage with
  | 0 =>
    let margin := (Config.eyeMargin s.fresh stack l.lane).toNat
    s.onEye stack fun e => { e with
      low := if margin < fieldOf e.ctl 0 16 then others ++ [{ l with margin := margin, stage := 1 }] else others }
  | 1 =>
    if e.spare = 0 then
      (s.onEye stack fun e => { e with nosp := true, low := others ++ [{ l with stage := 2 }] }).eyeEvent stack l.lane l.margin 2
    else
      (s.onEye stack fun e => { e with
        spare := e.spare - 1, repd := min (e.repd + 1) 255, low := others }).eyeEvent stack l.lane l.margin 1
  | _ => s

/-- RETRAINING_SLOT (R414): every lane below the threshold is served; lanes that the slot has retrained in vain wait for the
next one. -/
def execRetrainingSlot (stack : Nat) (s : State) : Host.Outcome State Fault Refusal :=
  if 16 ≤ stack then .fault (.noSuchUnit stack)
  else
    let e := s.platform.eye stack
    .next (if !e.rtpend then s
      else (e.low.foldl (fun t l => t.serveLane stack l) s).onEye stack fun e =>
        { e with rtpend := e.low.any fun l => decide (l.stage < 2) })

/-! Registers as the host reads them (R387, R405). -/

/-- The transom record that TRSEL names. -/
def State.selected (s : State) : Transom :=
  if s.hub.trsel = 0 then s.hub.transom else (s.die (s.hub.trsel - 1)).transom

/-- The core-clock target as THERM shows it: 600 MHz at most while a regulator is silent (R418, R419).
[DESIGN CHOICE, log 103: unsafe] -/
def Platform.shownTarget (p : Platform) : Nat := if p.silent.isEmpty then p.target else min p.target 600

/-- THERM (R418). -/
def Platform.therm (p : Platform) : W64 :=
  BitVec.ofNat 64 (2 ^ 40 * (p.tjthr % 256) + 2 ^ 32 * (p.tjmax % 256) + 2 ^ 20 * (p.shownTarget % 4096) + bitAt p.tien 0)

/-- The value that a host read of a register returns (R387, R405); zero where no register stands. HSTAT is read by its own
event, which also clears BADCMD. [DEDUCED, log 90: safe] -/
def State.hostRegister (s : State) (offset : Nat) : W64 :=
  let h := s.hub
  let p := s.platform
  if p.bootFailed then 0
  else if offset = 0x0000 then h.hid
  else if offset = 0x0008 then s.hstat
  else if offset = 0x0020 then h.lqbase
  else if offset = 0x0028 then BitVec.ofNat 64 h.lqsize
  else if offset = 0x0030 then BitVec.ofNat 64 h.lqtail
  else if offset = 0x0038 then BitVec.ofNat 64 h.lqhead
  else if offset = 0x0040 then h.pgt
  else if offset = 0x0048 then h.pstat
  else if offset = 0x0050 then BitVec.ofNat 64 h.trsel
  else if offset = 0x0058 then BitVec.ofNat 64 h.tridx
  else if 0x0060 ≤ offset ∧ offset < 0x00A0 ∧ offset % 8 = 0 then
    ((s.selected.entries.getD h.tridx 0).toNat / 2 ^ (8 * (offset - 0x0060)) % 2 ^ 64 |> BitVec.ofNat 64)
  else if offset = 0x00A0 then (s.selected.refused).setWidth 64
  else if offset = 0x0100 then BitVec.ofNat 64 p.hwkey
  else if offset = 0x0108 then p.subcnt
  else if offset = 0x0110 then BitVec.ofNat 64 (p.memue + 2 ^ 60 * p.memueStack)
  else if offset = 0x0118 then p.memce
  else if 0x0200 ≤ offset ∧ offset < 0x0300 ∧ offset % 16 = 0 then s.eyestat ((offset - 0x0200) / 16)
  else if 0x0200 ≤ offset ∧ offset < 0x0300 ∧ offset % 16 = 8 then (p.eye ((offset - 0x0200) / 16)).ctl
  else if 0x0300 ≤ offset ∧ offset < 0x0340 ∧ offset % 8 = 0 then (s.die ((offset - 0x0300) / 8)).bootsum
  else if offset = 0x0340 then p.therm
  else 0

/-! The memory window (R404, R406, R408). -/

/-- The number of the key that HWKEY names; zero where its slot is not loaded. -/
def State.windowKey (s : State) : Nat := s.keyNo s.platform.hwkey

/-- `n` bytes that the host reads through the window from an offset. What a poisoned block gives the host is left open.
[DESIGN CHOICE, log 100: safe] -/
def State.windowBytes (s : State) : Nat → Nat → List Byte
  | _, 0 => []
  | o, n + 1 =>
    (if !hbmAddress o then 0
      else
        let pa := s.redirectPa o
        if s.unreadable s.windowKey pa 1 then (Config.freeWord s.fresh o 4040).setWidth 8 else s.hbmByte s.windowKey pa) :: State.windowBytes s (o + 1) n

/-- What a read of the window finds in the blocks where its bytes lie (R251, R406). -/
def State.windowNotes (s : State) (o n : Nat) : State :=
  (List.range (n / 64 + 2)).foldl (fun s i =>
    let b := 64 * (o / 64 + i)
    if b < o + n then s.noteAccess s.windowKey (s.redirectPa b) 64 else s) s

/-- WINDOW_READ (R404, R409): under an unloaded slot the read returns zero and BADCMD is set.
[DESIGN CHOICE, log 100: safe] -/
def execWindowRead (offset len : Nat) (s : State) : Host.Outcome State Fault Refusal :=
  if 2 ^ 40 < offset + len then .fault (.noSuchUnit offset)
  else .next (if s.platform.bootFailed then s
    else if s.windowKey = 0 then (s.badCommand).onPlatform fun p => { p with hostRead := List.replicate len 0 }
    else (s.windowNotes offset len).onPlatform fun p => { p with hostRead := s.windowBytes offset len })

/-- Bytes that the host writes, block by block; parts beyond the stack are dropped, and a part that a poisoned block refuses
sets BADCMD. `fuel` bounds the blocks. -/
def State.windowStore (s : State) : Nat → Nat → List Byte → State
  | 0, _, _ => s
  | _, _, [] => s
  | fuel + 1, o, bytes =>
    let n := 64 - o % 64
    let rest (t : State) : State := State.windowStore t fuel (o + n) (bytes.drop n)
    if !hbmAddress o then rest s
    else
      let pa := s.redirectPa o
      let r := s.hbmWrite s.windowKey pa (bytes.take n)
      rest (if r.2 then (r.1.noteRefused pa (min n bytes.length) 3).badCommand else r.1)

/-- WINDOW_WRITE (R404, R406, R409): under an unloaded slot the write is dropped and BADCMD is set. -/
def execWindowWrite (offset : Nat) (bytes : List (BitVec 8)) (s : State) : Host.Outcome State Fault Refusal :=
  if 2 ^ 40 < offset + bytes.length then .fault (.noSuchUnit offset)
  else .next (if s.platform.bootFailed then s
    else if s.windowKey = 0 then s.badCommand
    else s.windowStore (bytes.length / 64 + 2) offset bytes)

/-! The patrol (R407). -/

/-- PATROL_SCRUB (R406, R407): the patrol reads its next block and arms a write-back of the corrected value, or of poison.
[DEDUCED, log 101: unsafe] -/
def execPatrolScrub (stack : Nat) (s : State) : Host.Outcome State Fault Refusal :=
  if 16 ≤ stack then .fault (.noSuchUnit stack)
  else
    let e := s.platform.eye stack
    let b := 2 ^ 30 * stack + e.patrol
    let pa := 64 * b
    let armed : List (Nat × Bool × Nat) :=
      if s.poisoned pa 64 then [(b, true, s.time)]
      else if s.platform.soft.contains b then [(b, false, s.time)]
      else []
    .next ((s.noteRead pa 64).onEye stack fun e =>
      { e with armed := e.armed.filter (·.1 != b) ++ armed, patrol := (e.patrol + 1) % (48 * 2 ^ 24) })

/-- SCRUB_WRITEBACK (R407): no earlier than 64 ns after its read, the corrected block, or poison, is written; a demand write
that has come since the read has taken it away. [DEDUCED, log 101: unsafe] -/
def execScrubWriteback (stack : Nat) (s : State) : Host.Outcome State Fault Refusal :=
  if 16 ≤ stack then .fault (.noSuchUnit stack)
  else
    .next (match (s.platform.eye stack).armed with
      | [] => s
      | (b, bad, at_) :: rest =>
        if s.time < at_ + 64 then s
        else (s.onEye stack fun e => { e with armed := rest }).onPlatform fun p =>
          if bad then { p with poison := b :: p.poison.filter (· != b) } else { p with soft := p.soft.filter (· != b) })

/-! Boot and attestation (R415, R416). -/

/-- Measurement register that boot image `n` is extended into: root-of-trust firmware, hub firmware, eight die supervisors,
and the boot tests. -/
def measureOf (n : Nat) : Nat := if n = 0 then 0 else if n = 1 then 1 else if n < 10 then 2 else 3

/-- Bytes of a digest, the most significant one first. [DESIGN CHOICE, log 108: safe] -/
def digestBytes (d : BitVec 384) : List Byte := (natToBytes 48 d.toNat).reverse

/-- A digest extended into a measurement register: M becomes SHA3-384 of M and the digest (R415). -/
def extend (m h : BitVec 384) : BitVec 384 := sha3 (digestBytes m ++ digestBytes h)

/-- The measurement registers with image `n` measured. [DESIGN CHOICE, log 108: safe] -/
def measureImage (ms : List (BitVec 384)) (n : Nat) (bytes : List Byte) : List (BitVec 384) :=
  ms.set (measureOf n) (extend (ms.getD (measureOf n) 0) (sha3 bytes))

/-- Boot images `i` and on, each verified before it is measured and runs; boot stops at the first one that fails (R415). -/
def bootImages (ms : List (BitVec 384)) : Nat → Nat → List (BitVec 384) × Bool
  | _, 0 => (ms, true)
  | i, n + 1 =>
    if Config.bootVerified i then bootImages (measureImage ms i (Config.bootImage i)) (i + 1) n else (ms, false)

/-- Array rows of a core that its boot test retires (R222, R416). -/
def Core.bootTested (c : Core) (n : Nat) : Core :=
  { c with mat := ((Config.failingRows n).foldl (fun m r => m.mark r) c.mat).mapPoint.1 }

/-- Rows of a die that are retired. -/
def State.retiredRows (s : State) (die : Nat) : Nat :=
  ((List.range 80).map fun i =>
    ((s.core (80 * die + i)).mat.rows.filter fun r => r.2.1 == 2).length).foldl (· + ·) 0

/-- BOOTSUM of a die after its test (R416). -/
def State.bootSummary (s : State) (die : Nat) : W64 :=
  let failed := Config.bootFailure die
  BitVec.ofNat 64 (2 ^ 63 + bitAt failed.isSome 62 + 2 ^ 32 * ((Config.repairedRows die).length % 65536) +
    2 ^ 16 * (s.retiredRows die % 65536) + (failed.getD 0x3FF) % 1024)

/-- The cores whose boot test finds a failing array row. -/
def bootCores : List Nat := (List.range 640).filter fun n => !(Config.failingRows n).isEmpty

/-- The boot test of a die is over (R416): its repair table holds the failing rows with their spares, and a die with a failure
that could not be repaired is left out of service. [DESIGN CHOICE, log 108: safe] -/
def Die.tested (d : Die) (n : Nat) (summary : W64) : Die :=
  { d with bootsum := summary, repairs := Config.repairedRows n, stopped := d.stopped || flagOf summary 62 }

/-- The boot tests of all dies (R416). -/
def State.bootTests (s : State) : State :=
  let t := bootCores.foldl (fun s n => s.onCore n fun c => c.bootTested n) s
  (List.range 8).foldl (fun u d => u.onDie d fun x => x.tested d (t.bootSummary d)) t

/-- The BOOTSUM registers as measured with the boot tests. -/
def State.bootsumBytes (s : State) : List Byte := (List.range 8).flatMap fun d => natToBytes 8 (s.die d).bootsum.toNat

/-- BOOT (R415, R416): the stages in their order; a failed verification stops boot at its stage.
[DEDUCED, log 6: safe; DESIGN CHOICE, log 108: safe] -/
def execBoot (s : State) : Host.Outcome State Fault Refusal :=
  .next (if s.platform.booted ∨ s.platform.bootFailed then s
    else
      let (ms, ok) := bootImages s.platform.measures 0 10
      if !ok || !Config.bootVerified 10 then s.onPlatform fun p => { p with measures := ms, bootFailed := true }
      else
        let t := s.bootTests
        let m := measureImage ms 10 (Config.bootImage 10 ++ t.bootsumBytes)
        t.onPlatform fun p => { p with measures := m, booted := true })

/-- ATTESTATION_REQUEST (R415): the report with M0 to M3, the security version, the package index and the nonce, signed.
[DESIGN CHOICE, log 108: safe] -/
def execAttestationRequest (nonce : List (BitVec 8)) (s : State) : Host.Outcome State Fault Refusal :=
  if 64 < nonce.length then .fault (.noSuchUnit nonce.length)
  else .next (if s.platform.bootFailed then s
    else
      let ms := s.platform.measures
      let index := s.hub.hid.toNat % 65536
      s.onPlatform fun p => { p with
        report := some (ms, Config.securityVersion, index, nonce, Config.signature ms Config.securityVersion index nonce) })

/-! Power, clocks and temperature (R417 to R419). None of these loops changes an architectural cycle count or a result. -/

/-- A core rail (R419). -/
def Platform.rail (p : Platform) (die : Nat) : Rail := (Sparse.get? p.rails die).getD Rail.reset

/-- A core rail changed by a function. -/
def State.onRail (s : State) (die : Nat) (f : Rail → Rail) : State :=
  s.onPlatform fun p => { p with rails := Sparse.set p.rails die (f (p.rail die)) }

/-- The rail's target rises by one step, up to 0.55 V, where its last write lies 10 µs back; if not, it waits (R417, R419).
[DESIGN CHOICE, log 103: unsafe] -/
def Rail.raise (r : Rail) (now : Nat) : Rail :=
  if r.wrote.any fun t => decide (now < t + 10000) then { r with rise := true }
  else { r with target := min 220 (r.target + 1), wrote := some now, rise := false }

/-- DROOP (R417): the core clock of a die is stretched, and its rail rises. [DESIGN CHOICE, log 103: unsafe] -/
def execDroop (die : Nat) (s : State) : Host.Outcome State Fault Refusal :=
  if 8 ≤ die then .fault (.noSuchUnit die)
  else .next ((s.onDie die fun d => { d with stretched := true }).onRail die fun r => r.raise s.time)

/-- Power of the core rails as last read, in units of 2.5 mW (R417, R419). -/
def Platform.power (p : Platform) : Nat :=
  ((List.range 8).map fun d => (p.rail d).amps * (p.rail d).volts).foldl (· + ·) 0

/-- POWER_LOOP (R417): where the core rails as last read and the rest of the package, `others` milliwatts, draw more than 1,800 W,
the core-clock target falls in a step of 25 MHz, down to 600 MHz. [DESIGN CHOICE, log 103: unsafe] -/
def execPowerLoop (others : Nat) (s : State) : Host.Outcome State Fault Refusal :=
  .next (if 5 * s.platform.power + 2 * others ≤ 3600000 then s
    else s.onPlatform fun p => { p with target := max (min p.target 600) (p.target - 25) })

/-- The hottest junction (R418). -/
def State.hottest (s : State) : Nat := ((List.range 8).flatMap fun d => (s.die d).temps).foldl max 0

/-- The thermal loop may change the target: its last step lies a millisecond back (R418). -/
def State.mayStep (s : State) : Bool := s.platform.stepped.all fun t => decide (t + 1000000 ≤ s.time)

/-- The thermal loop as the hottest junction has it: above the threshold the target falls, and it rises once every junction is 5
degrees below it, by 25 MHz in a millisecond; throttling begins with an interrupt (R418). [DESIGN CHOICE, log 103: unsafe] -/
def State.followHeat (s : State) (hot : Nat) : State :=
  let p := s.platform
  if !s.mayStep then s
  else if p.tjthr < hot then
    let t := s.onPlatform fun p => { p with target := p.target - 25, throttling := true, stepped := some s.time }
    if p.tien && !p.throttling then t.interrupt 4 else t
  else if p.throttling ∧ hot + 5 ≤ p.tjthr then
    s.onPlatform fun p => { p with
      target := min 850 (p.target + 25), throttling := decide (p.target + 25 < 850), stepped := some s.time }
  else s

/-- THERMAL_LOOP (R418): a junction of a die is read; the target follows the hottest one, and a die with one at 110 degrees
trips. [DESIGN CHOICE, log 103: unsafe] -/
def execThermalLoop (die : Nat) (reading : JunctionReading) (s : State) : Host.Outcome State Fault Refusal :=
  if 8 ≤ die then .fault (.noSuchUnit die)
  else if 4 ≤ reading.junction then .fault (.noSuchUnit reading.junction)
  else
    let t := s.onDie die fun d => { d with temps := d.temps.set reading.junction reading.celsius }
    let u := (t.onPlatform fun p => { p with tjmax := min t.hottest 255 }).followHeat t.hottest
    .next (if 110 ≤ reading.celsius then u.dieCheck die 0x20 0 else u)

/-- RAIL_POLL (R419): the power controller reads voltage and current of a die's rail, and makes a rise that has waited; a regulator
that answers is not silent. [DESIGN CHOICE, log 103: unsafe] -/
def execRailPoll (die : Nat) (reading : RailReading) (s : State) : Host.Outcome State Fault Refusal :=
  if 8 ≤ die then .fault (.noSuchUnit die)
  else
    let t := s.onRail die fun r =>
      let r := { r with volts := reading.steps, amps := reading.amperes }
      if r.rise then r.raise s.time else r
    .next ((t.onPlatform fun p => { p with silent := p.silent.filter (· != die) }).onDie die fun d =>
      { d with stretched := false })

/-- REGULATOR_TIMEOUT (R419): a silent regulator holds the core-clock target at 600 MHz until it answers again.
[DESIGN CHOICE, log 103: unsafe] -/
def execRegulatorTimeout (die : Nat) (s : State) : Host.Outcome State Fault Refusal :=
  if 8 ≤ die then .fault (.noSuchUnit die)
  else .next (s.onPlatform fun p => { p with silent := die :: p.silent.filter (· != die) })

end Sys2Proof.Machine
end

