-- ==== Sys2Proof/Machine/Post.lean ====
section
/-! DEFINITION. POST and POSTN (R80 to R84): the descriptor, the record that it describes, and the words. -/

namespace Sys2Proof.Machine

/-! The descriptor (R80, R81). -/

/-- Word `i` of a post descriptor. -/
def descWord (desc : List Byte) (i : Nat) : W32 := BitVec.ofNat 32 (bytesToNat ((desc.drop (4 * i)).take 4))

/-- The record that R80 builds from a descriptor; its status block is allocated when it is placed. -/
def State.childRecord (s : State) (next : Bool) (desc : List Byte) : Record :=
  let c := s.here
  let l := s.hub.launch
  let phase := match l with | some l => l.phase | none => 0
  { kind := if c.inHandler then 3 else 2
    state := 0
    prio := fieldOf (descWord desc 0) 22 2
    nxph := next
    wstat := false
    trpend := false
    pcore := 0
    rpc := descWord desc 1
    lidx := BitVec.ofNat 64 ((descWord desc 2).toNat + 2 ^ 32 * (descWord desc 3).toNat)
    rset := BitVec.ofNat 32 s.wantedSet
    phase := BitVec.ofNat 32 (if next then phase + 1 else phase)
    mode := if c.inHandler then (match l with | some l => l.mode | none => 0) else s.mode.setWidth 32
    dslot := 0
    args := (List.range 8).map fun i => descWord desc (8 + i) }

/-- The lines that copy engines have in hand for the core scratchpad of the core in hand: of a block whose source has been read,
what is not written yet; of an extended tile that is not open, its first header (R324, R326). -/
def State.linesInFlight (s : State) : List (Nat × List Byte) :=
  ((s.cluster (clusterOf s.cur)).xfers.filter fun x => x.dst.isNone && x.dsp == 1 && x.by_.core == s.cur).flatMap fun x =>
    x.runs.flatMap fun r =>
      if !x.canWrite r then []
      else
        let rest := match x.current r with | some b => ((x.blockPieces b).drop r.wrote).flatten | none => []
        if x.opened then rest
        else if x.headerStatus ≠ 0 then []
        else if x.dext then (x.daddr, x.firstHeader) :: rest
        else rest

/-- Bytes at an offset with a later write laid over them. -/
def overlaid (off : Nat) (old : List Byte) (p : Nat × List Byte) : List Byte :=
  old.zipIdx.map fun b => if p.1 ≤ off + b.2 then p.2.getD (off + b.2 - p.1) b.1 else b.1

/-- The 64 bytes of a descriptor as POST reads them: of a copy engine's write in flight each unit of 8 bytes shows either the
old or the new bytes (R81). -/
def State.descriptor (s : State) (off : Nat) : List Byte :=
  let old := s.ownRead false off 64
  let new := s.linesInFlight.foldl (overlaid off) old
  (List.range 8).flatMap fun u =>
    ((if Config.choice s.fresh (46000 + u) % 2 = 0 then old else new).drop (8 * u)).take 8

/-! The words (R81, R83). -/

/-- POST and POSTN (R81): the offset of the descriptor is checked, then the affinity address is translated without
permission or residency, the descriptor is read at issue, and the record goes to the event arbiter of its die.
[DEDUCED, log 85: unsafe] -/
def State.post (s : State) (next : Bool) (d a b l : BitVec 5) : State :=
  let off := s.reg b
  if !blockOffset off then s.misaligned off
  else match s.translate (s.reg a).toNat 0 0 false with
  | .stop t => t
  | .ok s bnd =>
    if s.badAt s.cur false off.toNat 64 then s.fault 1 (padTval false off.toNat) 1
    else
      let rec_ := s.childRecord next (s.descriptor off.toNat)
      let va := (s.reg a).toNat
      let id := s.nextId
      (s.timedOp (s.here.sPort d.toNat) 24 l.toNat
        (.post rec_ (dieOfPa bnd.pa) (bucketOf va) next (BitVec.ofNat 48 va))).push (.postPlacement s.cur id)

/-- POST (R81). -/
def execPost (d a b l : BitVec 5) (s : State) : Host.Outcome State Fault Refusal := .next (s.post false d a b l)

/-- POSTN (R81, R83). -/
def execPostn (d a b l : BitVec 5) (s : State) : Host.Outcome State Fault Refusal := .next (s.post true d a b l)

end Sys2Proof.Machine
end

