-- ==== Sys2Proof/Machine/Preempt.lean ====
section
/-! DEFINITION. Pre-emption at the hub (R397 to R401): the request, the acknowledgements of all engines, the time limit,
resume in the order of the engine classes, and cancellation. Engines are numbered 0 to 639 cores, 640 to 1919 copy engines,
1920 to 2079 lintel nodes, 2080 to 2087 synchronisation engines, 2088 the LXU, 2089 the fabric router. -/

namespace Sys2Proof.Machine

/-- Engine class, coded as the fields of PGT from CORE on (R399, R400). -/
def engineClass (e : Nat) : Nat :=
  if e < 640 then 0 else if e < 1920 then 2 else if e < 2080 then 3 else if e < 2088 then 4 else if e = 2088 then 5 else 6

/-- Engines of a package. -/
def engineCount : Nat := 2090

/-- The entry in progress, launch or collective, ends with a fault that the host or a pre-emption causes.
[DEDUCED, log 99: unsafe] -/
def State.failEntry (s : State) (fault : Nat) (fdet : List W64) : State :=
  if s.hub.launch.isSome then s.failLaunch fault 0 fdet else s.failColl fault 0

/-- The time for which the orphan timers have stood still since the last count does not count; for an operand that was stored
in the meantime it is the time since then (R366, R400). [DEDUCED, log 92: unsafe] -/
def State.shiftHeld (s : State) : State :=
  let later (t : Nat) : Nat := t + (s.time - max t s.hub.preStart)
  { s with nodes := s.nodes.map fun x => (x.1, { x.2 with
      dir := x.2.dir.map fun e => (e.1, { e.2 with held := e.2.held.map fun h =>
        (h.1, h.2.1, { h.2.2 with time := later h.2.2.time }) }) }) }

/-- The entry in progress is cancelled: what was saved is discarded, the job stays loaded, and nothing runs (R400).
[DEDUCED, log 91: unsafe] -/
def State.cancelEntry (s : State) : State :=
  let phase := match s.hub.launch with | some l => l.phase | none => 0
  let s := s.shiftHeld.failEntry 0x0A [BitVec.ofNat 64 phase, 0, 0, 0]
  let t : State := { s with
    cores := s.cores.map fun c =>
      (c.1, { c.2 with
        preempt := false, saveStart := none
        act := match c.2.act with | .saved _ => .idle | a => a })
    clusters := s.clusters.map fun c => (c.1, { c.2 with saved := none, newer := [] }) }
  t.onHub fun h => { h with pstate := 4, acks := [], toResume := [], cancelling := false }

/-- PSTAT (R400). -/
def pstatWord (tns acks cls : Nat) : W64 := BitVec.ofNat 64 (2 ^ 32 * min tns (2 ^ 32 - 1) + 2 ^ 8 * acks + 2 ^ 4 * cls)

/-! The clusters' pages of the save area (R393). -/

/-- Base of the pages of a cluster. -/
def Launch.clusterSave (l : Launch) (cluster : Nat) : Nat := l.saveBase + 5634560 * 1024 + cluster * 16448 * 1024

/-- The number under which the bytes of a cluster's tag table and copy-engine progress are free: behind those of the cores. -/
def clusterPart (cluster : Nat) : Nat := 2 ^ 24 + 65536 * cluster

/-- The pages of a cluster are written: its scratchpad, then the tag table and the progress of its copy engines, for which no rule
gives a layout. [DEDUCED, log 93: unsafe] -/
def State.saveCluster (s : State) (cluster : Nat) : State :=
  match s.hub.launch with
  | none => s
  | some l =>
    let a := l.clusterSave cluster
    let s := s.putDevice a (Memory.read (s.cluster cluster).scratch 0 16777216)
    let s := s.putDevice (a + 16777216) (unlaid s.fresh (clusterPart cluster) 65536)
    s.onCluster cluster fun c => { c with saved := some s.fresh, newer := [] }

/-- A tag table from a changed part: its entries hold free values. [DEDUCED, log 93: unsafe] -/
def Cluster.lostTags (c : Cluster) (fresh : Nat) : Cluster :=
  { c with tags := (List.range 256).map fun n =>
      let w := Config.freeWord fresh 9720 n
      (n, { tag := w.setWidth 48, state := (w.toNat / 2 ^ 48) % 4, owner := (w.toNat / 2 ^ 50) % 4 }) }

/-- The strands of a cluster's cores are lost, for its pages can not be read (R275, R410). -/
def State.loseCluster (s : State) (cluster : Nat) : State :=
  let die := cluster / 20
  (((List.range 4).map (4 * cluster + ·)).foldl (fun s n => s.loseStrand n) s).dieCheck die 0 cluster

/-- A cluster reads its pages back; lines that have been written since the save stay (R340, R393, R400).
[DEDUCED, log 93: unsafe] -/
def State.restoreCluster (s : State) (cluster : Nat) : State :=
  let c := s.cluster cluster
  match s.hub.launch, c.saved with
  | some l, some mark =>
    let a := l.clusterSave cluster
    let key := s.keyNo 0
    let t := (s.noteAccess key a (16448 * 1024)).setCluster cluster { c with saved := none, newer := [] }
    if s.unreadable key a (16448 * 1024) then t.loseCluster cluster
    else
      let newer := c.newer.map fun n => (64 * n, Memory.read c.scratch (64 * n) 64)
      let image := newer.foldl (fun m e => Memory.write m e.1 e.2) (Memory.write [] 0 (s.hbmBytes key a 16777216))
      let kept := s.hbmBytes key (a + 16777216) 65536 == unlaid mark (clusterPart cluster) 65536
      t.onCluster cluster fun c => (if kept then c else c.lostTags s.fresh) |> fun c => { c with scratch := image }
  | _, _ => s

/-- The pre-emption is complete (R400); a waiting cancellation takes its effect. -/
def State.preempted (s : State) (cls : Nat) : State :=
  let h := s.hub
  let s := if h.run then (List.range 160).foldl State.saveCluster s else s
  let p := pstatWord ((s.time - h.preStart) / 1000) h.acks.length cls
  let s := (s.onHub fun h => { h with pstate := 2, pstat := p }).hubEvent 0x15 p.toNat
  if h.cancelling then s.cancelEntry else s

/-- preempt of R400 by a command: PGT is sampled, and every engine is asked to stop; with no entry running it is complete at
once (R398, R399). -/
def State.beginPreempt (s : State) (cmd : Nat) : State :=
  let s := (s.onHub fun h => { h with pstate := 1, pgtNow := h.pgt, acks := [], toResume := [], preStart := s.time }).hubEvent 0x14 cmd
  if !s.hub.run then s.preempted 0
  else (List.range 640).foldl (fun s n => s.onCore n fun c => { c with preempt := true }) s

/-- A commit is under way, from its step 1 on (R93, R398). -/
def State.commits (s : State) : Bool := s.hub.hold && s.hub.launch.all fun l => l.roots.isNone

/-- A command waits for the last step of the commit under way (R398). -/
def State.holdCommand (s : State) (cmd : Nat) : State := s.onHub fun h => { h with waiting := h.waiting ++ [cmd] }

/-- PREEMPT takes its effect; while a pre-emption is under way it is refused (R400). -/
def State.preemptNow (s : State) : State :=
  if s.hub.pstate = 0 ∨ s.hub.pstate = 4 then s.beginPreempt 1 else s.refuseCommand 1

/-- PREEMPT (R397, R398, R400): during a commit it waits for the commit's last step. [DEDUCED, log 91: unsafe] -/
def execPreempt (s : State) : Host.Outcome State Fault Refusal :=
  .next (if s.platform.bootFailed then s else if s.commits then s.holdCommand 1 else s.preemptNow)

/-- The collector counts an engine once, and the last one completes the pre-emption (R400). -/
def State.acknowledge (s : State) (engine : Nat) : State :=
  let s := s.onHub fun h =>
    { h with acks := h.acks ++ [engine], pstat := pstatWord (fieldOf h.pstat 32 32) (h.acks.length + 1) (engineClass engine) }
  if s.hub.acks.length = engineCount then s.preempted (engineClass engine) else s

/-- PREEMPT_ACKNOWLEDGEMENT (R400). -/
def execPreemptAcknowledgement (engine : Nat) (s : State) : Host.Outcome State Fault Refusal :=
  if engineCount ≤ engine then .fault (.noSuchUnit engine)
  else .next (if s.hub.pstate ≠ 1 ∨ s.hub.acks.contains engine then s else s.acknowledge engine)

/-- PREEMPTION_TIMEOUT (R401): an engine other than a core has not acknowledged within 10 ms of the request; the others are
not kept waiting for it. The machine check comes first, then the entry fails. [DEDUCED, log 91: unsafe] -/
def execPreemptionTimeout (engine : Nat) (s : State) : Host.Outcome State Fault Refusal :=
  if engineCount ≤ engine then .fault (.noSuchUnit engine)
  else if s.hub.pstate ≠ 1 ∨ engine < 640 ∨ s.hub.acks.contains engine ∨ s.time < s.hub.preStart + 10000000 then .next s
  else
    let t := if engine < 1920 then s.noteDieCheck ((engine - 640) / 160) 3 engine
      else if engine < 2080 then s.noteDieCheck ((engine - 1920) / 20) 3 engine
      else if engine < 2088 then s.noteDieCheck (engine - 2080) 3 engine
      else s.noteHubCheck
    .next ((t.failEntry 0x0C [BitVec.ofNat 64 (engineClass engine), 0, 0, 0]).acknowledge engine)

/-- The engines that a resume restarts, in the order of their classes (R400): of the cores those that were saved. -/
def State.restartOrder (s : State) : List Nat :=
  let saved (n : Nat) : Bool := match (s.core n).act with | .saved _ => true | _ => false
  (List.range 8).map (2080 + ·) ++ (List.range 160).map (1920 + ·) ++ (List.range 1280).map (640 + ·) ++
    (List.range 640).filter saved ++ [2088, 2089]

/-- Engines of the first class that has not reported in full: those that may report now. -/
def Hub.resuming (h : Hub) : List Nat :=
  match h.toResume with
  | [] => []
  | e :: es => (e :: es).filter fun x => engineClass x == engineClass e

/-- The timer of a restore starts in every core that restores its save area (R275). [DEDUCED, log 92: unsafe] -/
def State.startRestores (s : State) : State :=
  match s.hub.resuming with
  | e :: es =>
    if e < 640 then (e :: es).foldl (fun s n => s.onCore n fun c =>
      { c with saveStart := if c.strand.isSome && c.saveStart.isNone && c.isSaved then some s.time else c.saveStart }) s
    else s
  | [] => s

/-- Every engine has reported: the package runs (R400). [DEDUCED, log 92: unsafe] -/
def State.resumed (s : State) : State :=
  let n := s.time - s.hub.preStart
  (s.shiftHeld.onHub fun h => { h with pstate := 0, acks := [], toResume := [] }).hubEvent 0x16 (n / 1000)

/-- RESUME (R400). -/
def execResume (s : State) : Host.Outcome State Fault Refusal :=
  .next (if s.platform.bootFailed then s
    else if s.hub.pstate ≠ 2 then s.refuseCommand 2
    else
      let t := s.shiftHeld
      let order := if s.hub.acks.isEmpty then [] else t.restartOrder
      let t := t.onHub fun h => { h with pstate := 3, toResume := order, preStart := s.time }
      if order.isEmpty then t.resumed else t)

/-- ENGINE_RESUME_REPORT (R400): an engine of the class in turn has restarted; the next class follows the last one of it. -/
def execEngineResumeReport (engine : Nat) (s : State) : Host.Outcome State Fault Refusal :=
  if engineCount ≤ engine then .fault (.noSuchUnit engine)
  else if s.hub.pstate ≠ 3 ∨ !s.hub.resuming.contains engine then .next s
  else
    let t := s.onHub fun h => { h with toResume := h.toResume.filter (· != engine), acks := h.acks.filter (· != engine) }
    let t := if 640 ≤ engine ∧ engine < 1920 then t.restoreCluster ((engine - 640) / 8) else t
    .next (if t.hub.toResume.isEmpty then t.resumed else t.startRestores)

/-- CANCEL takes its effect: it pre-empts first where the package runs (R400). [DEDUCED, log 91: unsafe] -/
def State.cancelNow (s : State) : State :=
  if s.hub.pstate = 2 then s.cancelEntry
  else if s.hub.pstate = 1 then s.onHub fun h => { h with cancelling := true }
  else if s.hub.pstate = 0 then (s.onHub fun h => { h with cancelling := true }).beginPreempt 3
  else s.refuseCommand 3

/-- CANCEL (R398, R400): during a commit it waits for the commit's last step. [DEDUCED, log 91: unsafe] -/
def execCancel (s : State) : Host.Outcome State Fault Refusal :=
  .next (if s.platform.bootFailed then s else if s.commits then s.holdCommand 3 else s.cancelNow)

/-- The oldest command that has waited for the end of a commit takes its effect (R398). -/
def State.serveHeld (s : State) : State :=
  match s.hub.waiting with
  | [] => s
  | cmd :: rest =>
    let t := s.onHub fun h => { h with waiting := rest }
    if cmd = 1 then t.preemptNow else t.cancelNow

/-! What stops an engine (R272, R399, R400). -/

/-- A synchronisation engine has answered everything that a core not yet saved has asked of it. -/
def State.syncSettled (s : State) (die : Nat) : Bool :=
  s.ops.all fun p => match p.op with
    | .sync d _ _ _ => d != die || s.hub.acks.contains p.by_.core
    | _ => true

/-- A copy engine stands at its stopping unit, a block of 4 KiB or a whole chunk (R340, R399). A chunk that can not go on
waits at a block boundary. -/
def State.copySettled (s : State) (cluster engine : Nat) : Bool :=
  (s.cluster cluster).xfers.all fun x =>
    match x.runOn engine with
    | none => true
    | some r => r.wrote == 0 && (fieldOf s.hub.pgtNow 8 4 == 0 || x.keeps r || s.holdsSource x || s.holdsDest x)

/-- A lintel node has finished the operand that it was applying, or has not begun to write its result (R379, R399). -/
def State.nodeSettled (s : State) (node : Nat) : Bool :=
  s.ops.all fun p => match p.op with
    | .meetWrite n l r _ bytes _ _ =>
      n != node || r.dest.bound?.any fun b => s.writeHeld (meetWriter l r).by_ b bytes.length
    | _ => true

/-- Engines other than cores that may acknowledge now. -/
def State.mayStop (s : State) (engine : Nat) : Bool :=
  s.hub.pstate == 1 && !s.hub.acks.contains engine &&
    (match engineClass engine with
     | 0 => false
     | 2 => s.copySettled ((engine - 640) / 8) ((engine - 640) % 8)
     | 3 => s.nodeSettled (engine - 1920)
     | 4 => s.syncSettled (engine - 2080)
     | _ => true)

end Sys2Proof.Machine
end

