-- ==== Sys2Proof/Machine/Reset.lean ====
section
/-! DEFINITION. Resets of the package, of a die and of a core (R117, R222, R265, R357, R409), and single faults: what each
structure makes of one (R8, R269, R280, R316, R340, R360, R379, R401, R406, R420). -/

namespace Sys2Proof.Machine

/-! Resets. -/

/-- A core after its reset: every register at its reset value, and the row map as the repair table gives it (R117, R222).
[DEDUCED, log 105: unsafe] -/
def Core.afterReset (n : Nat) (booted : Bool) : Core := if booted then Core.reset.bootTested n else Core.reset

/-- A die's supervisor and engine after a reset of the die: its transom record keeps its contents and its frozen state
(R357). [DEDUCED, log 105: unsafe] -/
def Die.afterReset (d : Die) : Die :=
  { Die.reset with
    transom := d.transom, bootsum := d.bootsum, temps := d.temps, repairs := d.repairs, corrected := d.corrected
    stopped := flagOf d.bootsum 62 }

/-- A die reset: its cores, clusters, nodes and engine. [DEDUCED, log 105: unsafe] -/
def State.resetDie (s : State) (die : Nat) : State :=
  { s with
    cores := s.cores.map fun c => if dieOfCore c.1 = die then (c.1, Core.afterReset c.1 s.platform.booted) else c
    clusters := s.clusters.map fun c => if c.1 / 20 = die then (c.1, Cluster.reset) else c
    nodes := s.nodes.map fun n => if n.1 / 20 = die then (n.1, Node.reset) else n
    dies := s.dies.map fun d => if d.1 = die then (d.1, d.2.afterReset) else d
    ops := s.ops.filter fun p => dieOfCore p.by_.core != die }

/-- A core reset (R117, R265). [DEDUCED, log 14: unsafe; DEDUCED, log 105: unsafe] -/
def State.resetCore (s : State) (core : Nat) : State :=
  { s.setCore core (Core.afterReset core s.platform.booted) with ops := s.ops.filter fun p => p.by_.core != core }

/-- A package reset: everything at its reset value; the next boot runs. HBM keeps its cells, but every key slot is new
(R409), so that nothing written before can be read. A warm reset keeps the row maps (R222) and the transom records of the
dies (R357). [DEDUCED, log 104: unsafe] -/
def State.resetPackage (s : State) (warm : Bool) : State :=
  let p := s.platform
  { State.reset with
    cores := if warm then (s.cores.filter fun c => c.2.mat.rows != []).map fun c =>
        (c.1, { Core.reset with mat := { Matrix.reset with rows := c.2.mat.rows } }) else []
    dies := if warm then s.dies.map fun d => (d.1, { Die.reset with transom := d.2.transom }) else []
    hub := { Hub.reset with keys := [(0, s.hub.keyCount + 1)], keyCount := s.hub.keyCount + 1 }
    hbm := s.hbm
    platform := { Platform.reset with blockKey := p.blockKey, classes := p.classes, soft := p.soft, poison := p.poison, hard := p.hard }
    time := s.time, fresh := s.fresh, nextId := s.nextId }

/-- RESET: level 0 cold and 1 warm reset of the package, 2 reset of a die, 3 of a core. -/
def execReset (level unit : Nat) (s : State) : Host.Outcome State Fault Refusal :=
  match level with
  | 0 => .next (s.resetPackage false)
  | 1 => .next (s.resetPackage true)
  | 2 => if 8 ≤ unit then .fault (.noSuchUnit unit) else .next (s.resetDie unit)
  | 3 => if 640 ≤ unit then .fault (.noSuchUnit unit) else .next (s.resetCore unit)
  | _ => .fault (.noSuchUnit level)

/-! Single faults. -/

/-- A machine check that a core's arbiter takes, at a level (R263, R269). [DEDUCED, log 25: unsafe] -/
def Core.check (c : Core) (level xcode : Nat) (tval : W64) (tbundle : Nat) (deferred : Bool) : Core :=
  { c with requests := c.requests ++
    [{ code := 1, tval := tval, tbundle := tbundle, xcode := xcode, deferred := deferred, epc := none, level := level }] }

/-- A register with an uncorrectable error: the bundle that reads it takes the machine check (R269, R280).
[DEDUCED, log 25: unsafe] -/
def Core.registerFault (c : Core) (n : Nat) : Core := { c with badRegs := n :: c.badRegs.filter (· != n) }

/-- The timed results with entry `n` of the threshold buffer marked (R269). -/
def markEntry (tval : W64) : Nat → List Landing → List Landing
  | _, [] => []
  | n, l :: ls =>
    if l.timed then
      match n with
      | 0 => { l with err := some tval } :: ls
      | n + 1 => l :: markEntry tval n ls
    else l :: markEntry tval n ls

/-- A residue mismatch strikes one of the untimed results on their way: its destination is left unspecified, and the
machine check is taken after its landing (R269). [DESIGN CHOICE, log 15: safe; DEDUCED, log 107: unsafe] -/
def Core.residueFault (c : Core) (fresh : Nat) : Core :=
  match choose fresh 63000 (c.landings.filter fun l => !l.timed && l.port != .flags) with
  | none => c
  | some l =>
    let bad := { l with val := Config.freeWord fresh (l.t0 + 1) (7000 + l.port.code), residue := true }
    { c with landings := c.landings.map fun x => if x = l then bad else x }

/-- A parity error of the issue or decode logic, at the bundle that issues next (R269). -/
def Core.issueFault (c : Core) : Core :=
  if c.inHandler then c.check 2 3 (BitVec.ofNat 64 c.hand.pc) c.hand.pc false
  else if c.strand.isSome then c.check (c.levelOf false) 3 (BitVec.ofNat 64 c.main.pc) c.main.pc false
  else c

/-- A mismatch of the matrix sequencer's control: the queue is discarded (R233, R269). -/
def Core.sequencerFault (c : Core) : Core :=
  let pc := match c.mat.queue with | q :: _ => q.pc | [] => c.main.pc
  let own := match c.mat.queue with | q :: _ => q.handler | [] => false
  let c := { c with mat := c.mat.emptied.viewed }
  if c.strand.isSome then c.check (if own then 1 else 0) 4 0 pc true else c

/-- An accumulator with an upset element (R231). -/
def Core.upset (c : Core) (fresh set row col : Nat) : Core :=
  let a := c.mat.set_ set
  let r := a.c.getD row []
  { c with mat := c.mat.putSet set { a with c := a.c.set row (r.set col ((Config.freeWord fresh col 63100).setWidth 64)) } }

/-- A set with an upset checksum cell (R231). -/
def AccSet.upsetCheck (a : AccSet) (fresh kind index : Nat) : AccSet :=
  let v : W64 := (Config.freeWord fresh index 63101).setWidth 64
  match kind with
  | 0 => { a with rc := a.rc.set index v }
  | 1 => { a with cc := a.cc.set index v }
  | _ => { a with corner := v }

/-- A latch with an upset byte. -/
def Matrix.upsetLatch (m : Matrix) (fresh n row byte : Nat) : Matrix :=
  { m with latches := modifyAt n (fun l => l.map fun l =>
    { l with data := modifyAt row (fun r => r.set byte ((Config.freeWord fresh byte 63102).setWidth 8)) l.data }) m.latches }

/-- A record with a reserved KIND or STATE, as ECC leaves it (R18). [DEDUCED, log 107: unsafe] -/
def Record.spoiled (r : Record) (fresh : Nat) : Record :=
  let n := Config.choice fresh 63200
  if n % 2 = 0 then { r with kind := 4 + n / 2 % 12 } else { r with state := 8 + n / 2 % 8 }

/-- The record at a place of a list is spoiled. -/
def spoilAt (fresh index : Nat) (rs : List Record) : List Record := modifyAt index (fun r => r.spoiled fresh) rs

/-- A record of a bucket is spoiled (R18). -/
def Die.spoilRecord (d : Die) (fresh bucket level index : Nat) : Die :=
  { d with buckets := modifyAt bucket (modifyAt level (spoilAt fresh index)) d.buckets }

/-- A record that stands with a core is spoiled (R18). -/
def Core.spoilRecord (c : Core) (fresh place index : Nat) : Core :=
  match place with
  | 0 => { c with slot := spoilAt fresh index c.slot }
  | 1 => { c with plan := spoilAt fresh index c.plan }
  | n =>
    if n < 6 then { c with posts := modifyAt (n - 2) (spoilAt fresh index) c.posts }
    else { c with queues := modifyAt (n - 6) (fun q =>
      { q with waiter := q.waiter.map fun w => { w with record := w.record.spoiled fresh } }) c.queues }

/-- A record parked on a barrier is spoiled (R18). -/
def SyncObj.spoilRecord (o : SyncObj) (fresh index : Nat) : SyncObj :=
  { o with waiters := modifyAt index (fun w => { w with parked := w.parked.map fun p => (p.1.spoiled fresh, p.2) }) o.waiters }

/-- A message that the NoC does not deliver after its retries (R316, R360): a QPUT is refused, and what goes to or comes from
a synchronisation engine is a die machine check. -/
def State.undelivered (s : State) (op : Nat) : State :=
  match s.findOp op with
  | some p =>
    (match p.op with
     | .put core q h user _ _ => s.putRefused p core q h user
     | .sync die _ _ _ => s.dieCheck die 7 op
     | .decrement die _ _ _ _ => s.dieCheck die 7 op
     | .fabricArrive die _ _ => s.dieCheck die 7 op
     | _ => s)
  | none => s

/-- A transom entry with KIND 0 (R360). -/
def Transom.spoil (t : Transom) (n : Nat) : Transom :=
  let e := (t.entries.getD n 0).toNat
  { t with entries := t.entries.set n (BitVec.ofNat 512 (e - 2 ^ 120 * bits e 120 8)) }

/-- A key slot whose parity fails is cleared; accesses under it find every block uncorrectable from then on (R420). -/
def State.loseKey (s : State) (slot : Nat) : State := s.onHub fun h => { h with keys := Sparse.erase h.keys slot }

/-- A unit number that must exist. -/
def within (n bound : Nat) (t : State) : Host.Outcome State Fault Refusal :=
  if n < bound then .next t else .fault (.noSuchUnit n)

/-- SINGLE_FAULT (R8): what the structure that it strikes makes of it.
[DESIGN CHOICE, log 106: unsafe; DEDUCED, log 107: unsafe] -/
def execSingleFault (fault : FaultSite) (s : State) : Host.Outcome State Fault Refusal :=
  match fault with
  | .register core n => if n < 170 then within core 640 (s.onCore core fun c => c.registerFault n) else .fault (.noSuchUnit n)
  | .coreLine core o => if o < 2 ^ 23 then
      within core 640 (s.onCore core fun c => { c with badLines := o / 64 :: c.badLines.filter (· != o / 64) })
    else .fault (.noSuchUnit o)
  | .clusterLine k o => if o < 2 ^ 24 then
      within k 160 (s.onCluster k fun c => { c with badLines := o / 64 :: c.badLines.filter (· != o / 64) })
    else .fault (.noSuchUnit o)
  | .threshold core n =>
    within core 640 (s.onCore core fun c => { c with landings := markEntry (0x40000000000 + BitVec.ofNat 64 n) n c.landings })
  | .residue core => within core 640 (s.onCore core fun c => c.residueFault s.fresh)
  | .issue core => within core 640 (s.onCore core Core.issueFault)
  | .matrixControl core => within core 640 (s.onCore core Core.sequencerFault)
  | .accumulator core set row col => within core 640 (s.onCore core fun c => c.upset s.fresh set row col)
  | .checksum core set kind n =>
    within core 640 (s.onCore core fun c => c.onMat fun m => m.putSet set ((m.set_ set).upsetCheck s.fresh kind n))
  | .latch core n row byte => within core 640 (s.onCore core fun c => c.onMat fun m => m.upsetLatch s.fresh n row byte)
  | .trace core n =>
    within core 640 (s.onCore core fun c => { c with trace := { c.trace with entries := Sparse.erase c.trace.entries n } })
  | .loopBuffer core => within core 640 s
  | .rangeEntry core va => within core 640 (s.onCore core fun c =>
      { c with table := c.table.filter fun d => !(decide (d.vbase ≤ va) && decide (va < d.vlimit)) })
  | .queueRegisters core q => if q < 8 then
      within core 640 (((s.onCore core fun c => c.setQueue q { c.queue q with desc := (c.queue q).desc &&& ~~~0x80000000#64 }).dieEvent
        (dieOfCore core) 0x0A core (core + 2 ^ 64 * q)).dieCheck (dieOfCore core) 3 (8 * core + q))
    else .fault (.noSuchUnit q)
  | .overflow core q => within core 640 (s.onCore core fun c =>
      if (c.queue q).spilled.isEmpty then c else c.setQueue q { c.queue q with spoiled := true })
  | .corrected die => within die 8 (s.onDie die fun d => { d with corrected := d.corrected + 1 })
  | .copyEngine k e => execEngineFault k e s
  | .lintel n => within n 160 ((s.setNode n { s.node n with stopped := true }).dieCheck (n / 20) 3 n)
  | .heldOperand n tag => within n 160 (s.operandLost n tag)
  | .syncEngine die => within die 8 ((s.onDie die fun d => { d with stopped := true }).dieCheck die 3 0)
  | .object die obj => within die 8 (s.loseObject die obj 1)
  | .record die b l i => within die 8 (s.onDie die fun d => d.spoilRecord s.fresh b l i)
  | .coreRecord core place n => within core 640 (s.onCore core fun c => c.spoilRecord s.fresh place n)
  | .parkedRecord die obj n => within die 8 (s.putObject die obj ((s.object die obj).spoilRecord s.fresh n))
  | .nextRecord die n => within die 8 (s.onDie die fun d => { d with next := spoilAt s.fresh n d.next })
  | .nocMessage op => .next (s.undelivered op)
  | .copyBuffer k e => within k 160 (if e < 8 then s.bufferFault k e else s)
  | .transomEntry u n =>
    if u = 8 then .next (s.onHub fun h => { h with transom := h.transom.spoil n })
    else within u 8 (s.onDie u fun d => { d with transom := d.transom.spoil n })
  | .waitScan die => within die 8 (s.dieCheck die 6 0)
  | .tagSlot k n => within k 160 (s.onCluster k fun c => { c with badSlots := n :: c.badSlots.filter (· != n) })
  | .hbmBlock a => if hbmAddress a then
      .next (s.onPlatform fun p =>
        if p.poison.contains (a / 64) then p else { p with hard := a / 64 :: p.hard.filter (· != a / 64) })
    else .fault (.noSuchUnit a)
  | .hbmSymbols a => if hbmAddress a then
      .next (s.onPlatform fun p =>
        if p.poison.contains (a / 64) || p.hard.contains (a / 64) then p
        else { p with soft := a / 64 :: p.soft.filter (· != a / 64) })
    else .fault (.noSuchUnit a)
  | .delivery core => within core 640 (s.onFabric fun f => { f with lost := f.lost ++ [core] })
  | .keySlot n => within n 1024 (s.loseKey n)
  | .hub => .next s.hubCheck
  | .router => .next s.hubCheck

end Sys2Proof.Machine
end

