-- ==== Sys2Proof/Machine/System.lean ====
section
/-! DEFINITION. The control-register, trap and trace words of major 0x1 (R162, R176 to R178, R279). -/

namespace Sys2Proof.Machine

/-- The copy of a control register that the executing context reaches is the handler's own (R121). -/
def Core.cregCopy (c : Core) (r : Nat) : Bool :=
  c.inHandler && (decide (r ≤ 0x004) || (decide (0x010 ≤ r) && decide (r ≤ 0x019)))

/-- MFC (R162): the value at the issue cycle lands two cycles later; one cycle after an MTC of the register it is
unspecified (R64). -/
def execMfc (d : BitVec 5) (r : BitVec 11) (s : State) : Host.Outcome State Fault Refusal :=
  let c := s.here
  let port := Port.creg (c.cregCopy r.toNat) r.toNat
  let v := if c.openWindow port then (Config.freeWord s.fresh (c.iss.word + 1) port.code).toNat % 2 ^ 64
    else c.cregValue s.cur s.time r.toNat
  .next (if c.mayRead r.toNat then s.toReg d 2 (BitVec.ofNat 64 v) else s.illegal)

/-- MTC (R162): the value lands in the control register two cycles later. -/
def execMtc (a : BitVec 5) (r : BitVec 11) (s : State) : Host.Outcome State Fault Refusal :=
  .next (if s.here.mayWrite r.toNat then
      s.onHere fun c => c.land (.creg (c.cregCopy r.toNat) r.toNat) 2 (s.reg a).toNat
    else s.illegal)

/-- TRAP (R176): the cause is requested and taken after the bundle. [DEDUCED, log 13: unsafe] -/
def execTrap (k : BitVec 11) (s : State) : Host.Outcome State Fault Refusal :=
  .next (s.onHere fun c => c.request
    { code := 15, tval := k.setWidth 64, tbundle := c.iss.start, xcode := 0, deferred := false, epc := none,
      level := c.level })

/-- BKPT (R176): the breakpoint cause, precise at its bundle. -/
def execBkpt (k : BitVec 11) (s : State) : Host.Outcome State Fault Refusal :=
  .next (s.fault 14 (k.setWidth 64) 0)

/-- RETT (R177, R264), legal in trap-handler mode of the main context (R178). The data of its trace entry is not given.
[DESIGN CHOICE, log 18: safe] -/
def execRett (s : State) : Host.Outcome State Fault Refusal :=
  let c := s.here
  .next (if c.inHandler || !c.main.hmode then s.illegal
    else (s.traced 3 ((Config.freeWord s.fresh (c.iss.word + 1) 9100).toNat % 2 ^ 64)).returnFromTrap)

/-- RETH (R177, R120, R244), legal in the message-handler context (R178): the range table goes back to the set of the
strand that the core holds, where the handler changed it. -/
def execReth (s : State) : Host.Outcome State Fault Refusal :=
  .next (if s.here.inHandler then
      (s.traced 10 0).endHandler.onHere fun c =>
        match c.savedSet, c.strand with
        | some _, some r => { c with savedSet := none, table := [], tableSet := some r.rset.toNat }
        | _, _ => { c with savedSet := none }
    else s.illegal)

/-- TRAPACK (R177), legal in both handler modes (R178). -/
def execTrapack (s : State) : Host.Outcome State Fault Refusal :=
  .next (if s.here.handlerMode then s.onHere fun c => c.setCtx { c.ctx with tack := true } else s.illegal)

/-- TRACE.W (R279). -/
def execTraceW (a : BitVec 5) (s : State) : Host.Outcome State Fault Refusal :=
  .next (s.traced 8 (s.reg a).toNat)

/-- TRACE.R (R279): one entry into a register pair. In handler mode the pair must not leave its bank. -/
def execTraceR (d a : BitVec 5) (s : State) : Host.Outcome State Fault Refusal :=
  let c := s.here
  let e := ((Sparse.get? c.trace.entries (fieldOf (s.reg a) 0 10)).getD 0).toNat
  .next (if d.toNat = 31 ∨ (c.handlerMode ∧ d.toNat = 15) then s.illegal
    else s.onHere fun c =>
      (c.land (c.sPort d.toNat) 2 (e % 2 ^ 64)).land (c.sPort (d.toNat + 1)) 2 (e / 2 ^ 64))

/-- TRIG.FIRE (R279). -/
def execTrigFire (s : State) : Host.Outcome State Fault Refusal :=
  .next (s.onHere fun c =>
    let c := c.early s.fresh s.time traceRegs
    if flagOf c.trace.ctl 0 && !c.trace.stat.getLsbD 1 then
      { c with trace := c.trace.fire s.fresh s.time c.inHandler c.handlerMode c.iss.start }
    else c)

/-- TRIG.REARM (R279). -/
def execTrigRearm (s : State) : Host.Outcome State Fault Refusal :=
  .next (s.onHere fun c => { c with trace := { c.trace with stat := 0, entries := [], idx := 0, after := 0 } })

end Sys2Proof.Machine
end

