-- ==== Sys2Proof/Machine/Vector.lean ====
section
/-! DEFINITION. The vector words (R180 to R208): lanes and masks, floating arithmetic and special functions, compares,
dot products and reductions, integer and fixed-point words, conversions, movement, mask words, and the vector accesses of
the core scratchpad. Each word takes its operands as held at issue and lands one result with its flags. -/

namespace Sys2Proof.Machine

/-! Lanes and masks. -/

/-- Lane `i` of width `w` (R119). -/
def lane (w : Nat) (v : Vec) (i : Nat) : Nat := bits v.toNat (w * i) w

/-- The number that lanes of width `w` make, lane 0 lowest. -/
def ofLanes (w : Nat) : List Nat → Nat
  | [] => 0
  | v :: vs => v % 2 ^ w + 2 ^ w * ofLanes w vs

/-- Mask bit that governs lane `i` of width `w` (R181). -/
def maskBit (w i : Nat) : Nat := if w = 4 then i / 2 else i

/-- What a vector register holds, for the lanes that a word does not write (R63). -/
def State.oldVec (s : State) (y : Bool) (d : BitVec 5) : Vec := BitVec.ofNat 512 (s.here.held_ (vPort y d.toNat))

/-- The result of lanes of width `w` lands (R180 to R182): an active lane takes its value and flags, an inactive one keeps
its value or is zeroed. -/
def State.landLanes (s : State) (y : Bool) (d : BitVec 5) (w lat : Nat) (z : Bool) (active : Nat → Bool)
    (f : Nat → Rounded) : State :=
  let old := s.oldVec y d
  let rs := (List.range (512 / w)).map fun i => (i, if active i then some (f i) else none)
  let v := ofLanes w (rs.map fun r => match r.2 with
    | some x => x.code
    | none => if z then 0 else lane w old r.1)
  let es := rs.filterMap fun r => r.2.map fun x => (r.1, x.flags)
  s.onHere fun c => c.landFlagged (vPort y d.toNat) lat v (flagsOf es) (offerOf s.osn es)

/-- A V word; illegal in the message-handler context. -/
def State.vector (s : State) (y : Bool) (d : BitVec 5) (w lat : Nat) (z : Bool) (active : Nat → Bool)
    (f : Nat → Rounded) : State := s.mainOnly (s.landLanes y d w lat z active f)

/-- A V word whose lanes its mask register governs (R181). -/
def State.masked (s : State) (x : BitVec 1) (d : BitVec 5) (m : BitVec 3) (z : BitVec 1) (w lat : Nat)
    (f : Nat → Rounded) : State :=
  let k := s.mask m
  s.vector (x == 1) d w lat (z == 1) (fun i => k.getLsbD (maskBit w i)) f

/-- A result without flags. -/
def plain (v : Nat) : Rounded := { code := v, flags := 0 }

/-- The formats that the type field of a floating word names: F32, F64, BF16, F16 (R53). -/
def laneFmt (t : BitVec 2) : Nat := match t.toNat with | 0 => 1 | 1 => 0 | n => n

/-- Latency of a floating word, longer for F64 (R60). -/
def fpLat (t : BitVec 2) (short long : Nat) : Nat := if t = 1 then long else short

/-! Floating arithmetic (R185). -/

/-- A floating word of two operands. -/
def State.float2 (s : State) (x : BitVec 1) (t : BitVec 2) (d a b : BitVec 5) (m : BitVec 3) (z : BitVec 1)
    (short long : Nat) (sr : Bool) (f : Rnd → Nat → Nat → Nat → Rounded) : State :=
  let y := x == 1
  let fmt := laneFmt t
  let w := elemBits fmt
  let va := s.vec y a
  let vb := s.vec y b
  (s.takeSr sr).masked x d m z w (fpLat t short long) fun i => f (s.rnd s.mode i) fmt (lane w va i) (lane w vb i)

/-- A fused word: the destination is read at issue as the addend. -/
def State.fused (s : State) (x : BitVec 1) (t : BitVec 2) (d a b : BitVec 5) (m : BitVec 3) (z : BitVec 1)
    (negProduct negAddend : Bool) : State :=
  let y := x == 1
  let fmt := laneFmt t
  let w := elemBits fmt
  let va := s.vec y a
  let vb := s.vec y b
  let vd := s.vec y d
  (s.takeSr true).masked x d m z w (fpLat t 4 6) fun i =>
    let r := s.rnd s.mode i
    let p := readElem r fmt (lane w va i)
    let q := readElem r fmt (lane w vd i)
    fmaRounded r fmt (if negProduct then p.neg else p) (readElem r fmt (lane w vb i)) (if negAddend then q.neg else q)

/-- The sign operations of VABS and VNEG. -/
def signOp (r : Rnd) (fmt v : Nat) (negate : Bool) : Rounded :=
  let v := flushIn r fmt v
  let n := decodeFloat fmt v
  if n.isNan then { code := canonicalNan fmt, flags := ivIf n.signals }
  else
    let mag := v % signCode fmt
    plain (if negate && v < signCode fmt then mag + signCode fmt else mag)

/-! Special functions (R186 to R191). -/

/-- rnd12 of R186: `n × 2^e` with a sticky part, to 12 significant bits; and whether bits were dropped. -/
def round12 (n : Nat) (e : Int) (sticky : Bool) : Nat × Int × Bool :=
  let k := Nat.log2 n - 11
  let q := n / 2 ^ k
  let rem := n % 2 ^ k
  let up := if 2 * rem > 2 ^ k then true else if 2 * rem = 2 ^ k then sticky || q % 2 == 1 else false
  (if up then q + 1 else q, e + (k : Nat), rem != 0 || sticky)

/-- The delivered estimate: rounded by RNE, IX where it differs from the exact value, and with that UF where it is
tiny. -/
def estimate (r : Rnd) (fmt : Nat) (neg : Bool) (n : Nat) (e : Int) (sticky : Bool) : Rounded :=
  let (q, k, dropped) := round12 n e sticky
  let y := roundFin { r with rm := 0, sat := false } fmt neg q k false
  let tiny := (Nat.log2 q : Nat) + k < minExp fmt + (fracBits fmt : Nat)
  { y with flags := y.flags ||| (if dropped then flagIX ||| (if tiny then flagUF else 0) else 0) }

/-- VRCPE (R186). [DEDUCED, log 28: unsafe] -/
def rcpe (r : Rnd) (fmt v : Nat) : Rounded :=
  match readElem r fmt v with
  | .nan sig => { roundNan fmt with flags := ivIf sig }
  | .inf neg => plain (signedCode fmt neg 0)
  | .fin neg m e =>
    if m = 0 then { roundInf r fmt neg with flags := flagDZ }
    else
      let k := 40 + Nat.log2 m
      estimate r fmt neg (2 ^ k / m) (-e - (k : Nat)) (2 ^ k % m != 0)

/-- VRSQE (R186). [DEDUCED, log 28: unsafe] -/
def rsqe (r : Rnd) (fmt v : Nat) : Rounded :=
  match readElem r fmt v with
  | .nan sig => { roundNan fmt with flags := ivIf sig }
  | .inf neg => if neg then { roundNan fmt with flags := flagIV } else plain 0
  | .fin neg m e =>
    if m = 0 then { roundInf r fmt neg with flags := flagDZ }
    else if neg then { roundNan fmt with flags := flagIV }
    else
      let (m, e) := if e % 2 = 0 then (m, e) else (2 * m, e - 1)
      let k := 40 + Nat.log2 m
      let q := isqrt (2 ^ (2 * k) / m)
      estimate r fmt false q (-(e / 2) - (k : Nat)) (q * q * m != 2 ^ (2 * k))

/-- `s` integer square roots, the root of order `2^s`. -/
def rootOrder : Nat → Nat → Nat
  | 0, n => n
  | s + 1, n => rootOrder s (isqrt n)

/-- rnd_q((ln 2)^j / j!) of R187 in units of 2^-q, j from 1. -/
def fexpCoeffs (fmt : Nat) : List Nat :=
  if fmt = 0 then [0xB17217F7D1CF79AC, 0x3D7F7BFF058B1D51, 0x0E35846B82505FC6, 0x0276556DF749CEE5]
  else [0xB17217F8, 0x3D7F7BFF]

/-- The polynomial of R187 by powers of `z`: terms of the coefficients from the current power on. -/
def fexpTerms (q : Nat) (z : Num) : List Nat → Num → List Num
  | [], _ => []
  | c :: cs, p =>
    let p := (Num.mul p z).1
    (Num.mul (.fin false c (-(q : Nat))) p).1 :: fexpTerms q z cs p

/-- VFEXP (R187). [DEDUCED, log 28: unsafe] -/
def fexp (r : Rnd) (fmt v : Nat) : Rounded :=
  let (s, q) := if fmt = 0 then (10, 64) else (6, 32)
  match readElem r fmt v with
  | .nan sig => { roundNan fmt with flags := ivIf sig }
  | .inf neg => if neg then plain 0 else roundInf r fmt false
  | .fin neg m e =>
    if Num.lt (.fin false 1 0) (.fin false m e) then { roundNan fmt with flags := flagIV }
    else
      let k := (roundInteger Rnd.nearest neg m (e + (s : Nat))).1
      let z := (Num.add Rnd.nearest (.fin neg m e) (Num.ofScaled (-k) (-(s : Nat)) false)).1
      -- 2^(q + 1 + k / 2^s), floor, then to the nearest multiple
      let t := (rootOrder s (2 ^ (((q + 1) * 2 ^ s : Nat) + k).toNat) + 1) / 2
      let p := sumFinite Rnd.nearest (.fin false 1 0 :: fexpTerms q z (fexpCoeffs fmt) (.fin false 1 0))
      roundTo { r with rm := 0, sat := false } fmt (Num.mul (.fin false t (-(q : Nat))) p).1

/-- VSCALEB (R188). Scales beyond ±5,000 round as ±5,000 do in both formats. -/
def scaleb (r : Rnd) (fmt a b : Nat) : Rounded :=
  let x := readElem r fmt a
  match x, readElem r fmt b with
  | .nan p, n => { roundNan fmt with flags := ivIf (p || n.signals) }
  | _, .nan p => { roundNan fmt with flags := ivIf p }
  | .inf neg, .inf down => if down then { roundNan fmt with flags := flagIV } else roundInf r fmt neg
  | .inf neg, .fin _ _ _ => roundInf r fmt neg
  | .fin neg m _, .inf down =>
    if m = 0 then (if down then plain (signedCode fmt neg 0) else { roundNan fmt with flags := flagIV })
    else if down then plain (signedCode fmt neg 0) else roundInf r fmt neg
  | .fin neg m e, .fin bn bm be =>
    let n := (roundInteger { Rnd.nearest with rm := 1 } bn bm be).1
    roundFin r fmt neg m (e + max (-5000) (min 5000 n)) false

/-- VGETEXP (R189). -/
def getexp (r : Rnd) (fmt v : Nat) : Rounded :=
  match readElem r fmt v with
  | .nan sig => { roundNan fmt with flags := ivIf sig }
  | .inf _ => roundInf r fmt false
  | .fin _ m e =>
    if m = 0 then { roundInf r fmt true with flags := flagDZ }
    else roundTo Rnd.nearest fmt (Num.ofScaled ((Nat.log2 m : Nat) + e) 0 false)

/-- VRNDI to an integral value of the format (R190). -/
def rndi (r : Rnd) (fmt v : Nat) : Rounded :=
  match readElem r fmt v with
  | .nan sig => { roundNan fmt with flags := ivIf sig }
  | .inf neg => roundInf r fmt neg
  | .fin neg m e =>
    let (i, inexact) := roundInteger r neg m e
    let y := roundFin Rnd.nearest fmt neg i.natAbs 0 false
    { y with flags := if inexact then flagIX else 0 }

/-- VCLASS (R191). -/
def classOf (r : Rnd) (fmt v : Nat) : Rounded :=
  let v := flushIn r fmt v
  plain (2 ^ (match decodeFloat fmt v with
    | .nan sig => if sig then 0 else 1
    | .inf neg => if neg then 2 else 9
    | .fin neg m _ =>
      if m = 0 then (if neg then 5 else 6)
      else if isSubnormalCode fmt v then (if neg then 4 else 7)
      else if neg then 3 else 8))

/-- A special function of one operand, in F32 (`wide` false) or F64. -/
def State.special (s : State) (x : BitVec 1) (d a : BitVec 5) (m : BitVec 3) (z : BitVec 1) (wide : Bool) (lat : Nat)
    (sr : Bool) (f : Rnd → Nat → Nat → Rounded) : State :=
  let fmt := if wide then 0 else 1
  let w := elemBits fmt
  let va := s.vec (x == 1) a
  (s.takeSr sr).masked x d m z w lat fun i => f (s.rnd s.mode i) fmt (lane w va i)

/-- VSCALEB in F32 or F64. -/
def State.scaled (s : State) (x : BitVec 1) (d a b : BitVec 5) (m : BitVec 3) (z : BitVec 1) (wide : Bool) : State :=
  let fmt := if wide then 0 else 1
  let w := elemBits fmt
  let va := s.vec (x == 1) a
  let vb := s.vec (x == 1) b
  (s.takeSr true).masked x d m z w 2 fun i => scaleb (s.rnd s.mode i) fmt (lane w va i) (lane w vb i)

/-! Compares (R192). -/

/-- A value lands in a k register, flags with it. -/
def State.toMask (s : State) (k : BitVec 3) (lat : Nat) (v : Nat) (es : List (Nat × BitVec 8)) : State :=
  s.onHere fun c => c.landFlagged (.k k.toNat) lat v (flagsOf es) (offerOf s.osn es)

/-- The k register that a VCMP of `n` lanes writes: an active lane's truth, an inactive lane's old bit or zero, and zeros
above the lanes. -/
def State.compare (s : State) (k m : BitVec 3) (z : BitVec 1) (n : Nat) (f : Nat → Bool × BitVec 8) : State :=
  s.mainOnly <|
    let on := s.mask m
    let old := s.here.held_ (.k k.toNat)
    let rs := (List.range n).map fun i =>
      if on.getLsbD i then (i, f i) else (i, (z != 1 && old.testBit i, (0 : BitVec 8)))
    let v := (rs.map fun r => bitAt r.2.1 r.1).foldl (· + ·) 0
    s.toMask k 2 v (rs.map fun r => (r.1, r.2.2))

/-- A compare of floating lanes; `any` says that any NaN is invalid. -/
def State.compareFloat (s : State) (x : BitVec 1) (t : BitVec 2) (k : BitVec 3) (a b : BitVec 5) (m : BitVec 3)
    (z : BitVec 1) (any : Bool) (f : Num → Num → Bool) : State :=
  let fmt := laneFmt t
  let w := elemBits fmt
  let va := s.vec (x == 1) a
  let vb := s.vec (x == 1) b
  s.compare k m z (512 / w) fun i =>
    let r := s.rnd s.mode i
    let p := readElem r fmt (lane w va i)
    let q := readElem r fmt (lane w vb i)
    (f p q, ivIf (p.signals || q.signals || (any && (p.isNan || q.isNan))))

/-- A compare of integer lanes of 32 or 64 bits. -/
def State.compareInt (s : State) (x : BitVec 1) (j : BitVec 1) (k : BitVec 3) (a b : BitVec 5) (m : BitVec 3)
    (z : BitVec 1) (f : Nat → Nat → Nat → Bool) : State :=
  let w := if j = 1 then 64 else 32
  let va := s.vec (x == 1) a
  let vb := s.vec (x == 1) b
  s.compare k m z (512 / w) fun i => (f w (lane w va i) (lane w vb i), 0)

/-! Dot products and reductions (R194, R195). -/

/-- VDOT16 in a format. -/
def State.dot16 (s : State) (x : BitVec 1) (d a b : BitVec 5) (m : BitVec 3) (z : BitVec 1) (fmt : Nat) : State :=
  let y := x == 1
  let w := elemBits fmt
  let va := s.vec y a
  let vb := s.vec y b
  let vd := s.vec y d
  let k := s.mask m
  let r := Rnd.ofMode s.mode 0
  let elems := fun (v : Vec) g => (List.range 16).map fun j => (lane w v (16 * g + j), 127)
  s.vector y d 32 6 (z == 1) (fun g => decide (g < 512 / w / 16) && k.getLsbD g) fun g =>
    dot r fmt (.fin false 1 0) (lane 32 vd g) (elems va g) (elems vb g)

/-- A reduction: lane 0 of the destination takes it, the lanes above are zero; flags offer element 0. -/
def State.reduce (s : State) (x : BitVec 1) (d a b : BitVec 5) (m : BitVec 3) (w : Nat)
    (f : Nat → List (Option Nat) → Rounded) : State :=
  s.mainOnly <|
    let va := s.vec (x == 1) a
    let k := s.mask m
    let r := f (lane w (s.vec (x == 1) b) 0)
      ((List.range (512 / w)).map fun i => if k.getLsbD i then some (lane w va i) else none)
    s.onHere fun c => c.landFlagged (vPort (x == 1) d.toNat) 6 (r.code % 2 ^ w) r.flags (Offer.ofElem s.osn 0 r.flags)

/-- The sum of R195 in a floating format: one dot product with ones. -/
def redAddFloat (r : Rnd) (fmt b : Nat) (us : List (Option Nat)) : Rounded :=
  let one := if fmt = 0 then 0x3FF0000000000000 else 0x3F800000
  dot r fmt (.fin false 1 0) b ((padTo 16 (some 0) us).map fun u => (u.getD 0, 127)) (List.replicate 16 (one, 127))

/-- The minimum or maximum of R195 over floats. -/
def redMinMax (max : Bool) (r : Rnd) (b : Nat) (us : List (Option Nat)) : Rounded :=
  us.foldl (fun acc u => match u with
    | none => acc
    | some v => let y := minMaxCode max r 1 acc.code v; { y with flags := y.flags ||| acc.flags }) (minMaxCode max r 1 b b)

/-- The sum of R195 over integers of `w` bits. -/
def redAddInt (w b : Nat) (us : List (Option Nat)) : Rounded :=
  let i := us.foldl (fun i u => match u with | none => i | some v => i + signed w v) (signed w b)
  { code := wrap w i, flags := if i < -((2 ^ (w - 1) : Nat) : Int) ∨ ((2 ^ (w - 1) : Nat) : Int) ≤ i then flagOF else 0 }

/-- The minimum or maximum of R195 over 32-bit integers. -/
def redMinMaxInt (max : Bool) (b : Nat) (us : List (Option Nat)) : Rounded :=
  plain (us.foldl (fun acc u => match u with
    | none => acc
    | some v => if (if max then signed 32 acc < signed 32 v else signed 32 v < signed 32 acc) then v else acc) b)

/-! Integer and fixed-point arithmetic (R196, R197). -/

/-- An integer word of lanes of width `w`. -/
def State.int2 (s : State) (x : BitVec 1) (d a b : BitVec 5) (m : BitVec 3) (z : BitVec 1) (w lat : Nat)
    (f : Nat → Nat → Nat) : State :=
  let va := s.vec (x == 1) a
  let vb := s.vec (x == 1) b
  s.masked x d m z w lat fun i => plain (f (lane w va i) (lane w vb i))

/-- Lane width of an integer word by its type field (R53). -/
def intWidth (i : BitVec 2) : Nat := 8 * 2 ^ i.toNat

/-- Lane width of a shift or integer compare. -/
def wordWidth (j : BitVec 1) : Nat := if j = 1 then 64 else 32

/-- An exact FIX64 result into its lane (R197). -/
def fixResult (r : Rnd) (i : Int) (ix : BitVec 8) : Rounded :=
  if i < -(2 ^ 63 : Int) ∨ (2 ^ 63 : Int) ≤ i then
    (if r.sat then { code := if i < 0 then 2 ^ 63 else 2 ^ 63 - 1, flags := flagST ||| ix }
     else { code := wrap 64 i, flags := flagOF ||| ix })
  else { code := wrap 64 i, flags := ix }

/-- The product of FIX64 values (R197). -/
def fixProduct (r : Rnd) (a b : Nat) : Rounded :=
  let p := signed 64 a * signed 64 b
  let (i, inexact) := roundInteger r (decide (p < 0)) p.natAbs (-(r.fixp : Nat))
  fixResult r i (if inexact then flagIX else 0)

/-! Movement (R201 to R204). -/

/-- A word whose mask bits govern bytes (R181). -/
def State.bytewise (s : State) (x : BitVec 1) (d : BitVec 5) (m : BitVec 3) (z : BitVec 1) (lat : Nat) (f : Nat → Nat) :
    State := s.masked x d m z 8 lat fun j => plain (f j)

/-- A vector lands whole, without flags. -/
def State.toVec (s : State) (x : BitVec 1) (d : BitVec 5) (lat v : Nat) : State :=
  s.mainOnly (s.onHere fun c => c.land (vPort (x == 1) d.toNat) lat v)

/-- The 16 offsets of a gather or scatter, none for an inactive lane (R207). -/
def State.offsets (s : State) (x : BitVec 1) (b : BitVec 5) (a : BitVec 4) (m : BitVec 3) : List (Option Int) :=
  let vb := s.vec (x == 1) b
  let base := (s.regN a.toNat).toInt
  let k := s.mask m
  (List.range 16).map fun i => if k.getLsbD i then some (base + (lane 32 vb i : Nat)) else none

/-- The first offset that R116 does not admit. -/
def badOffset (es : List (Option Int)) : Option Int :=
  (es.filterMap id).find? fun e => !admitted false e 4

/-- Trace entry of a gather or scatter, whose offset and size R276 does not give. [DESIGN CHOICE, log 18: safe] -/
def State.traceLanes (s : State) : State :=
  s.traced 5 ((Config.freeWord s.fresh (s.here.iss.word + 1) 9200).toNat % 2 ^ 48)

/-- VADD (R185). -/
def execVadd (x : BitVec 1) (t : BitVec 2) (d a b : BitVec 5) (m : BitVec 3) (z : BitVec 1) (s : State) : Host.Outcome State Fault Refusal :=
  .next (s.float2 x t d a b m z 4 6 true fun r fmt p q => addRounded r fmt (readElem r fmt p) (readElem r fmt q))

/-- VSUB (R185). -/
def execVsub (x : BitVec 1) (t : BitVec 2) (d a b : BitVec 5) (m : BitVec 3) (z : BitVec 1) (s : State) : Host.Outcome State Fault Refusal :=
  .next (s.float2 x t d a b m z 4 6 true fun r fmt p q => addRounded r fmt (readElem r fmt p) (readElem r fmt q).neg)

/-- VMUL (R185). -/
def execVmul (x : BitVec 1) (t : BitVec 2) (d a b : BitVec 5) (m : BitVec 3) (z : BitVec 1) (s : State) : Host.Outcome State Fault Refusal :=
  .next (s.float2 x t d a b m z 4 6 true fun r fmt p q => mulRounded r fmt (readElem r fmt p) (readElem r fmt q))

/-- VFMA (R185). -/
def execVfma (x : BitVec 1) (t : BitVec 2) (d a b : BitVec 5) (m : BitVec 3) (z : BitVec 1) (s : State) : Host.Outcome State Fault Refusal :=
  .next (s.fused x t d a b m z false false)

/-- VFMS (R185). -/
def execVfms (x : BitVec 1) (t : BitVec 2) (d a b : BitVec 5) (m : BitVec 3) (z : BitVec 1) (s : State) : Host.Outcome State Fault Refusal :=
  .next (s.fused x t d a b m z false true)

/-- VFNMA (R185). -/
def execVfnma (x : BitVec 1) (t : BitVec 2) (d a b : BitVec 5) (m : BitVec 3) (z : BitVec 1) (s : State) : Host.Outcome State Fault Refusal :=
  .next (s.fused x t d a b m z true false)

/-- VMIN (R185). -/
def execVmin (x : BitVec 1) (t : BitVec 2) (d a b : BitVec 5) (m : BitVec 3) (z : BitVec 1) (s : State) : Host.Outcome State Fault Refusal :=
  .next (s.float2 x t d a b m z 2 2 false fun r fmt p q => minMaxCode false r fmt p q)

/-- VMAX (R185). -/
def execVmax (x : BitVec 1) (t : BitVec 2) (d a b : BitVec 5) (m : BitVec 3) (z : BitVec 1) (s : State) : Host.Outcome State Fault Refusal :=
  .next (s.float2 x t d a b m z 2 2 false fun r fmt p q => minMaxCode true r fmt p q)

/-- VABS (R185). -/
def execVabs (x : BitVec 1) (t : BitVec 2) (d a : BitVec 5) (m : BitVec 3) (z : BitVec 1) (s : State) : Host.Outcome State Fault Refusal :=
  .next (s.float2 x t d a a m z 2 2 false fun r fmt p _ => signOp r fmt p false)

/-- VNEG (R185). -/
def execVneg (x : BitVec 1) (t : BitVec 2) (d a : BitVec 5) (m : BitVec 3) (z : BitVec 1) (s : State) : Host.Outcome State Fault Refusal :=
  .next (s.float2 x t d a a m z 2 2 false fun r fmt p _ => signOp r fmt p true)

/-- VDIV (R185). -/
def execVdiv (x : BitVec 1) (t : BitVec 2) (d a b : BitVec 5) (m : BitVec 3) (z : BitVec 1) (s : State) : Host.Outcome State Fault Refusal :=
  .next (s.float2 x t d a b m z 14 22 true fun r fmt p q => divRounded r fmt (readElem r fmt p) (readElem r fmt q))

/-- VSQRT (R185). -/
def execVsqrt (x : BitVec 1) (t : BitVec 2) (d a : BitVec 5) (m : BitVec 3) (z : BitVec 1) (s : State) : Host.Outcome State Fault Refusal :=
  .next (s.float2 x t d a a m z 14 22 true fun r fmt p _ => sqrtRounded r fmt (readElem r fmt p))

/-- VCMP over floating lanes (R192). -/
def execVcmpEqFloat (x : BitVec 1) (t : BitVec 2) (k : BitVec 3) (a b : BitVec 5) (m : BitVec 3) (z : BitVec 1) (s : State) : Host.Outcome State Fault Refusal :=
  .next (s.compareFloat x t k a b m z false fun p q => Num.eq p q)

/-- VCMP over floating lanes (R192). -/
def execVcmpLtFloat (x : BitVec 1) (t : BitVec 2) (k : BitVec 3) (a b : BitVec 5) (m : BitVec 3) (z : BitVec 1) (s : State) : Host.Outcome State Fault Refusal :=
  .next (s.compareFloat x t k a b m z true fun p q => Num.lt p q)

/-- VCMP over floating lanes (R192). -/
def execVcmpLeFloat (x : BitVec 1) (t : BitVec 2) (k : BitVec 3) (a b : BitVec 5) (m : BitVec 3) (z : BitVec 1) (s : State) : Host.Outcome State Fault Refusal :=
  .next (s.compareFloat x t k a b m z true fun p q => Num.lt p q || Num.eq p q)

/-- VCMP over floating lanes (R192). -/
def execVcmpUnFloat (x : BitVec 1) (t : BitVec 2) (k : BitVec 3) (a b : BitVec 5) (m : BitVec 3) (z : BitVec 1) (s : State) : Host.Outcome State Fault Refusal :=
  .next (s.compareFloat x t k a b m z false fun p q => p.isNan || q.isNan)

/-- VIADD (R196). -/
def execViadd (x : BitVec 1) (i : BitVec 2) (d a b : BitVec 5) (m : BitVec 3) (z : BitVec 1) (s : State) : Host.Outcome State Fault Refusal :=
  .next (s.int2 x d a b m z (intWidth i) 2 fun p q => p + q)

/-- VISUB (R196). -/
def execVisub (x : BitVec 1) (i : BitVec 2) (d a b : BitVec 5) (m : BitVec 3) (z : BitVec 1) (s : State) : Host.Outcome State Fault Refusal :=
  .next (s.int2 x d a b m z (intWidth i) 2 fun p q => wrap (intWidth i) ((p : Int) - q))

/-- VIMUL (R196). -/
def execVimul (x : BitVec 1) (i : BitVec 2) (d a b : BitVec 5) (m : BitVec 3) (z : BitVec 1) (s : State) : Host.Outcome State Fault Refusal :=
  .next (s.int2 x d a b m z (intWidth i) 4 fun p q => p * q)

/-- VIMULH (R196). -/
def execVimulh (x : BitVec 1) (i : BitVec 2) (d a b : BitVec 5) (m : BitVec 3) (z : BitVec 1) (s : State) : Host.Outcome State Fault Refusal :=
  .next (s.int2 x d a b m z (intWidth i) 4 fun p q => wrap (intWidth i) (signed (intWidth i) p * signed (intWidth i) q / (2 ^ intWidth i : Nat)))

/-- VIMIN (R196). -/
def execVimin (x : BitVec 1) (i : BitVec 2) (d a b : BitVec 5) (m : BitVec 3) (z : BitVec 1) (s : State) : Host.Outcome State Fault Refusal :=
  .next (s.int2 x d a b m z (intWidth i) 2 fun p q => if signed (intWidth i) p < signed (intWidth i) q then p else q)

/-- VIMAX (R196). -/
def execVimax (x : BitVec 1) (i : BitVec 2) (d a b : BitVec 5) (m : BitVec 3) (z : BitVec 1) (s : State) : Host.Outcome State Fault Refusal :=
  .next (s.int2 x d a b m z (intWidth i) 2 fun p q => if signed (intWidth i) p < signed (intWidth i) q then q else p)

/-- VAND (R196), masked by bytes. -/
def execVand (x : BitVec 1) (d a b : BitVec 5) (m : BitVec 3) (z : BitVec 1) (s : State) : Host.Outcome State Fault Refusal :=
  .next (s.int2 x d a b m z 8 2 fun p q => p &&& q)

/-- VOR (R196), masked by bytes. -/
def execVor (x : BitVec 1) (d a b : BitVec 5) (m : BitVec 3) (z : BitVec 1) (s : State) : Host.Outcome State Fault Refusal :=
  .next (s.int2 x d a b m z 8 2 fun p q => p ||| q)

/-- VXOR (R196), masked by bytes. -/
def execVxor (x : BitVec 1) (d a b : BitVec 5) (m : BitVec 3) (z : BitVec 1) (s : State) : Host.Outcome State Fault Refusal :=
  .next (s.int2 x d a b m z 8 2 fun p q => p ^^^ q)

/-- VANDN (R196), masked by bytes. -/
def execVandn (x : BitVec 1) (d a b : BitVec 5) (m : BitVec 3) (z : BitVec 1) (s : State) : Host.Outcome State Fault Refusal :=
  .next (s.int2 x d a b m z 8 2 fun p q => p &&& (255 - q))

/-- VSHL (R196). -/
def execVshl (x j : BitVec 1) (d a b : BitVec 5) (m : BitVec 3) (z : BitVec 1) (s : State) : Host.Outcome State Fault Refusal :=
  .next (s.int2 x d a b m z (wordWidth j) 2 fun p q => p * 2 ^ (q % wordWidth j))

/-- VSHR (R196). -/
def execVshr (x j : BitVec 1) (d a b : BitVec 5) (m : BitVec 3) (z : BitVec 1) (s : State) : Host.Outcome State Fault Refusal :=
  .next (s.int2 x d a b m z (wordWidth j) 2 fun p q => p / 2 ^ (q % wordWidth j))

/-- VSAR (R196). -/
def execVsar (x j : BitVec 1) (d a b : BitVec 5) (m : BitVec 3) (z : BitVec 1) (s : State) : Host.Outcome State Fault Refusal :=
  .next (s.int2 x d a b m z (wordWidth j) 2 fun p q => wrap (wordWidth j) (signed (wordWidth j) p / (2 ^ (q % wordWidth j) : Nat)))

/-- VFXMUL (R197). -/
def execVfxmulFix64 (x : BitVec 1) (d a b : BitVec 5) (m : BitVec 3) (z : BitVec 1) (s : State) : Host.Outcome State Fault Refusal :=
  .next (let va := s.vec (x == 1) a
    let vb := s.vec (x == 1) b
    (s.takeSr true).masked x d m z 64 4 fun i => fixProduct (s.rnd s.mode i) (lane 64 va i) (lane 64 vb i))

/-- VFXADD (R197). -/
def execVfxaddFix64 (x : BitVec 1) (d a b : BitVec 5) (m : BitVec 3) (z : BitVec 1) (s : State) : Host.Outcome State Fault Refusal :=
  .next (let va := s.vec (x == 1) a
    let vb := s.vec (x == 1) b
    s.masked x d m z 64 2 fun i =>
      fixResult (s.rnd s.mode i) (signed 64 (lane 64 va i) + signed 64 (lane 64 vb i)) 0)

/-- VDOT16 in format code 2 (R194). -/
def execVdot16Bf16 (x : BitVec 1) (d a b : BitVec 5) (m : BitVec 3) (z : BitVec 1) (s : State) : Host.Outcome State Fault Refusal :=
  .next (s.dot16 x d a b m z 2)

/-- VDOT16 in format code 3 (R194). -/
def execVdot16F16 (x : BitVec 1) (d a b : BitVec 5) (m : BitVec 3) (z : BitVec 1) (s : State) : Host.Outcome State Fault Refusal :=
  .next (s.dot16 x d a b m z 3)

/-- VDOT16 in format code 4 (R194). -/
def execVdot16E4m3 (x : BitVec 1) (d a b : BitVec 5) (m : BitVec 3) (z : BitVec 1) (s : State) : Host.Outcome State Fault Refusal :=
  .next (s.dot16 x d a b m z 4)

/-- VDOT16 in format code 5 (R194). -/
def execVdot16E5m2 (x : BitVec 1) (d a b : BitVec 5) (m : BitVec 3) (z : BitVec 1) (s : State) : Host.Outcome State Fault Refusal :=
  .next (s.dot16 x d a b m z 5)

/-- VDOT16 in format code 11 (R194). -/
def execVdot16I8 (x : BitVec 1) (d a b : BitVec 5) (m : BitVec 3) (z : BitVec 1) (s : State) : Host.Outcome State Fault Refusal :=
  .next (s.dot16 x d a b m z 11)

/-- VDOT16 in format code 10 (R194). -/
def execVdot16Log6 (x : BitVec 1) (d a b : BitVec 5) (m : BitVec 3) (z : BitVec 1) (s : State) : Host.Outcome State Fault Refusal :=
  .next (s.dot16 x d a b m z 10)

/-- VDOT16 in format code 6 (R194). -/
def execVdot16E2m1 (x : BitVec 1) (d a b : BitVec 5) (m : BitVec 3) (z : BitVec 1) (s : State) : Host.Outcome State Fault Refusal :=
  .next (s.dot16 x d a b m z 6)

/-- VCMP over integer lanes (R192). -/
def execVcmpEqInt (x j : BitVec 1) (k : BitVec 3) (a b : BitVec 5) (m : BitVec 3) (z : BitVec 1) (s : State) : Host.Outcome State Fault Refusal :=
  .next (s.compareInt x j k a b m z fun _ p q => p == q)

/-- VCMP over integer lanes (R192). -/
def execVcmpLtInt (x j : BitVec 1) (k : BitVec 3) (a b : BitVec 5) (m : BitVec 3) (z : BitVec 1) (s : State) : Host.Outcome State Fault Refusal :=
  .next (s.compareInt x j k a b m z fun w p q => decide (signed w p < signed w q))

/-- VCMP over integer lanes (R192). -/
def execVcmpLtuInt (x j : BitVec 1) (k : BitVec 3) (a b : BitVec 5) (m : BitVec 3) (z : BitVec 1) (s : State) : Host.Outcome State Fault Refusal :=
  .next (s.compareInt x j k a b m z fun _ p q => decide (p < q))

/-- VCMP over integer lanes (R192). -/
def execVcmpLeInt (x j : BitVec 1) (k : BitVec 3) (a b : BitVec 5) (m : BitVec 3) (z : BitVec 1) (s : State) : Host.Outcome State Fault Refusal :=
  .next (s.compareInt x j k a b m z fun w p q => decide (signed w p ≤ signed w q))

/-- VCVT (R198): lanes at and above the smaller lane count are inactive. -/
def execVcvt (x : BitVec 1) (f : BitVec 4) (d a : BitVec 5) (src : BitVec 4) (m : BitVec 3) (z : BitVec 1) (s : State) : Host.Outcome State Fault Refusal :=
  .next (let ws := elemBits src.toNat
    let wd := elemBits f.toNat
    let va := s.vec (x == 1) a
    let k := s.mask m
    let e := min (512 / ws) (512 / wd)
    (s.takeSr true).vector (x == 1) d wd 3 (z == 1) (fun i => decide (i < e) && k.getLsbD (maskBit wd i)) fun i =>
      convert (s.rnd s.mode i) src.toNat f.toNat (lane ws va i))

/-- VMXQ (R199). -/
def execVmxq (x : BitVec 1) (d a b : BitVec 5) (e : BitVec 3) (s : State) : Host.Outcome State Fault Refusal :=
  .next (s.mainOnly <|
    let y := x == 1
    let ef := 4 + e.toNat
    let lo := s.vec y a
    let hi := BitVec.ofNat 512 (s.here.readPort s.fresh (vPort y (a.toNat + 1)))
    let xs := (List.range 32).map fun i =>
      let r := s.rnd s.mode i
      (readElem r 1 (if i < 16 then lane 32 lo i else lane 32 hi (i - 16)), r.sr)
    let r := s.rnd s.mode 0
    let q := mxq r ef (readElem r 1 (lane 32 (s.vec y b) 0)) xs
    let w := elemBits ef
    let v := ofLanes w (q.2.1.map (·.code)) + 2 ^ 256 * q.1
    let es := (0, q.2.2) :: (q.2.1.zipIdx.map fun p => (p.2, p.1.flags))
    (s.takeSr true).onHere fun c => c.landFlagged (vPort y d.toNat) 3 v (flagsOf es) (offerOf s.osn es))

/-- VMXD (R200): a register pair. -/
def execVmxd (x : BitVec 1) (d a b : BitVec 5) (e : BitVec 3) (s : State) : Host.Outcome State Fault Refusal :=
  .next (s.mainOnly <|
    let y := x == 1
    let ef := 4 + e.toNat
    let va := s.vec y a
    let scale := lane 8 va 32
    let ts := readElem (s.rnd s.mode 0) 1 (lane 32 (s.vec y b) 0)
    let rs := (List.range 32).map fun i =>
      if ts.isNan || scale == 255 then plain (canonicalNan 1) else mulRounded (s.rnd s.mode i) 1 (mxElem ef scale (lane (elemBits ef) va i)) ts
    let es := rs.zipIdx.map fun p => (p.2, p.1.flags)
    (s.takeSr true).onHere fun c =>
      (c.landFlagged (vPort y d.toNat) 3 (ofLanes 32 ((rs.take 16).map (·.code))) (flagsOf es) (offerOf s.osn es)).land
        (vPort y (d.toNat + 1)) 3 (ofLanes 32 ((rs.drop 16).map (·.code))))

/-- VRCPE (R186), F32. -/
def execVrcpeF32 (x : BitVec 1) (d a : BitVec 5) (m : BitVec 3) (z : BitVec 1) (s : State) : Host.Outcome State Fault Refusal :=
  .next (s.special x d a m z false 4 false rcpe)

/-- VRSQE (R186), F32. -/
def execVrsqeF32 (x : BitVec 1) (d a : BitVec 5) (m : BitVec 3) (z : BitVec 1) (s : State) : Host.Outcome State Fault Refusal :=
  .next (s.special x d a m z false 4 false rsqe)

/-- VFEXP (R187), F32. -/
def execVfexpF32 (x : BitVec 1) (d a : BitVec 5) (m : BitVec 3) (z : BitVec 1) (s : State) : Host.Outcome State Fault Refusal :=
  .next (s.special x d a m z false 6 false fexp)

/-- VGETEXP (R189), F32. -/
def execVgetexpF32 (x : BitVec 1) (d a : BitVec 5) (m : BitVec 3) (z : BitVec 1) (s : State) : Host.Outcome State Fault Refusal :=
  .next (s.special x d a m z false 2 false getexp)

/-- VRNDI (R190), F32. -/
def execVrndiF32 (x : BitVec 1) (d a : BitVec 5) (m : BitVec 3) (z : BitVec 1) (s : State) : Host.Outcome State Fault Refusal :=
  .next (s.special x d a m z false 3 true rndi)

/-- VCLASS (R191), F32. -/
def execVclassF32 (x : BitVec 1) (d a : BitVec 5) (m : BitVec 3) (z : BitVec 1) (s : State) : Host.Outcome State Fault Refusal :=
  .next (s.special x d a m z false 2 false classOf)

/-- VSCALEB (R188), F32. -/
def execVscalebF32 (x : BitVec 1) (d a b : BitVec 5) (m : BitVec 3) (z : BitVec 1) (s : State) : Host.Outcome State Fault Refusal :=
  .next (s.scaled x d a b m z false)

/-- VRNDI to an integer of the lane (R190), F32. -/
def execVrndiIF32 (x : BitVec 1) (d a : BitVec 5) (m : BitVec 3) (z : BitVec 1) (s : State) : Host.Outcome State Fault Refusal :=
  .next (s.special x d a m z false 3 true fun r fmt v => convert r fmt 13 v)

/-- VRCPE (R186), F64. -/
def execVrcpeF64 (x : BitVec 1) (d a : BitVec 5) (m : BitVec 3) (z : BitVec 1) (s : State) : Host.Outcome State Fault Refusal :=
  .next (s.special x d a m z true 4 false rcpe)

/-- VRSQE (R186), F64. -/
def execVrsqeF64 (x : BitVec 1) (d a : BitVec 5) (m : BitVec 3) (z : BitVec 1) (s : State) : Host.Outcome State Fault Refusal :=
  .next (s.special x d a m z true 4 false rsqe)

/-- VFEXP (R187), F64. -/
def execVfexpF64 (x : BitVec 1) (d a : BitVec 5) (m : BitVec 3) (z : BitVec 1) (s : State) : Host.Outcome State Fault Refusal :=
  .next (s.special x d a m z true 6 false fexp)

/-- VGETEXP (R189), F64. -/
def execVgetexpF64 (x : BitVec 1) (d a : BitVec 5) (m : BitVec 3) (z : BitVec 1) (s : State) : Host.Outcome State Fault Refusal :=
  .next (s.special x d a m z true 2 false getexp)

/-- VRNDI (R190), F64. -/
def execVrndiF64 (x : BitVec 1) (d a : BitVec 5) (m : BitVec 3) (z : BitVec 1) (s : State) : Host.Outcome State Fault Refusal :=
  .next (s.special x d a m z true 3 true rndi)

/-- VCLASS (R191), F64. -/
def execVclassF64 (x : BitVec 1) (d a : BitVec 5) (m : BitVec 3) (z : BitVec 1) (s : State) : Host.Outcome State Fault Refusal :=
  .next (s.special x d a m z true 2 false classOf)

/-- VSCALEB (R188), F64. -/
def execVscalebF64 (x : BitVec 1) (d a b : BitVec 5) (m : BitVec 3) (z : BitVec 1) (s : State) : Host.Outcome State Fault Refusal :=
  .next (s.scaled x d a b m z true)

/-- VRNDI to an integer of the lane (R190), F64. -/
def execVrndiIF64 (x : BitVec 1) (d a : BitVec 5) (m : BitVec 3) (z : BitVec 1) (s : State) : Host.Outcome State Fault Refusal :=
  .next (s.special x d a m z true 3 true fun r fmt v => convert r fmt 14 v)

/-- VSEL (R193). -/
def execVsel (x : BitVec 1) (d a b : BitVec 5) (k : BitVec 3) (s : State) : Host.Outcome State Fault Refusal :=
  .next (let va := s.vec (x == 1) a
    let vb := s.vec (x == 1) b
    let sel := s.mask k
    s.toVec x d 2 (ofLanes 8 ((List.range 64).map fun j => if sel.getLsbD j then lane 8 va j else lane 8 vb j)))

/-- VMOV (R201). -/
def execVmov (x : BitVec 1) (d a : BitVec 5) (m : BitVec 3) (z : BitVec 1) (s : State) : Host.Outcome State Fault Refusal :=
  .next (let va := s.vec (x == 1) a
    s.bytewise x d m z 2 fun j => lane 8 va j)

/-- VXMOV (R201): from the other cluster. -/
def execVxmov (x : BitVec 1) (d a : BitVec 5) (m : BitVec 3) (z : BitVec 1) (s : State) : Host.Outcome State Fault Refusal :=
  .next (let va := s.vec (x != 1) a
    s.bytewise x d m z 2 fun j => lane 8 va j)

/-- VBCAST (R202). -/
def execVbcast (x : BitVec 1) (d a : BitVec 5) (w : BitVec 2) (m : BitVec 3) (z : BitVec 1) (s : State) : Host.Outcome State Fault Refusal :=
  .next (let v := (s.reg a).toNat
    s.masked x d m z (intWidth w) 3 fun _ => plain (v % 2 ^ intWidth w))

/-- VEXT (R203). -/
def execVext (x : BitVec 1) (d a n : BitVec 5) (h : BitVec 1) (w : BitVec 2) (e : BitVec 1) (s : State) : Host.Outcome State Fault Refusal :=
  .next (let k := intWidth w
    let v := lane k (s.vec (x == 1) a) (32 * h.toNat + n.toNat)
    s.mainOnly (s.toReg d 3 (BitVec.ofNat 64 (if e = 1 then signExtended (k / 8) v else v))))

/-- VINS (R203): the other lanes take their value as read at issue. -/
def execVins (x : BitVec 1) (d a n : BitVec 5) (h : BitVec 1) (w : BitVec 2) (s : State) : Host.Outcome State Fault Refusal :=
  .next (let k := intWidth w
    let old := s.vec (x == 1) d
    let v := (s.reg a).toNat % 2 ^ k
    s.toVec x d 3 (ofLanes k ((List.range (512 / k)).map fun i => if i = 32 * h.toNat + n.toNat then v else lane k old i)))

/-- VPERM (R204). -/
def execVperm (x : BitVec 1) (d a b : BitVec 5) (m : BitVec 3) (z : BitVec 1) (s : State) : Host.Outcome State Fault Refusal :=
  .next (let va := s.vec (x == 1) a
    let vb := s.vec (x == 1) b
    s.bytewise x d m z 3 fun j => if 128 ≤ lane 8 vb j then 0 else lane 8 va (lane 8 vb j % 64))

/-- VSHUF (R204): the destination is read at issue as the index. -/
def execVshuf (x : BitVec 1) (d a b : BitVec 5) (m : BitVec 3) (z : BitVec 1) (s : State) : Host.Outcome State Fault Refusal :=
  .next (let va := s.vec (x == 1) a
    let vb := s.vec (x == 1) b
    let vd := s.vec (x == 1) d
    s.bytewise x d m z 3 fun j =>
      let ix := lane 8 vd j
      if 128 ≤ ix then 0 else if ix < 64 then lane 8 va ix else lane 8 vb (ix - 64))

/-- VRED.ADD.F32 (R195). -/
def execVredAddF32 (x : BitVec 1) (d a b : BitVec 5) (m : BitVec 3) (s : State) : Host.Outcome State Fault Refusal :=
  .next (s.reduce x d a b m 32 (redAddFloat (Rnd.ofMode s.mode 0) 1))

/-- VRED.ADD.F64 (R195). -/
def execVredAddF64 (x : BitVec 1) (d a b : BitVec 5) (m : BitVec 3) (s : State) : Host.Outcome State Fault Refusal :=
  .next (s.reduce x d a b m 64 (redAddFloat (Rnd.ofMode s.mode 0) 0))

/-- VRED.MIN.F32 (R195). -/
def execVredMinF32 (x : BitVec 1) (d a b : BitVec 5) (m : BitVec 3) (s : State) : Host.Outcome State Fault Refusal :=
  .next (s.reduce x d a b m 32 (redMinMax false (Rnd.ofMode s.mode 0)))

/-- VRED.MAX.F32 (R195). -/
def execVredMaxF32 (x : BitVec 1) (d a b : BitVec 5) (m : BitVec 3) (s : State) : Host.Outcome State Fault Refusal :=
  .next (s.reduce x d a b m 32 (redMinMax true (Rnd.ofMode s.mode 0)))

/-- VRED.ADD.I32 (R195). -/
def execVredAddI32 (x : BitVec 1) (d a b : BitVec 5) (m : BitVec 3) (s : State) : Host.Outcome State Fault Refusal :=
  .next (s.reduce x d a b m 32 (redAddInt 32))

/-- VRED.ADD.I64 (R195). -/
def execVredAddI64 (x : BitVec 1) (d a b : BitVec 5) (m : BitVec 3) (s : State) : Host.Outcome State Fault Refusal :=
  .next (s.reduce x d a b m 64 (redAddInt 64))

/-- VRED.MIN.I32 (R195). -/
def execVredMinI32 (x : BitVec 1) (d a b : BitVec 5) (m : BitVec 3) (s : State) : Host.Outcome State Fault Refusal :=
  .next (s.reduce x d a b m 32 (redMinMaxInt false))

/-- VRED.MAX.I32 (R195). -/
def execVredMaxI32 (x : BitVec 1) (d a b : BitVec 5) (m : BitVec 3) (s : State) : Host.Outcome State Fault Refusal :=
  .next (s.reduce x d a b m 32 (redMinMaxInt true))

/-- KAND (R205). -/
def execKand (_x : BitVec 1) (d a b : BitVec 3) (s : State) : Host.Outcome State Fault Refusal :=
  .next (s.mainOnly (s.toMask d 2 (s.mask a &&& s.mask b).toNat []))

/-- KOR (R205). -/
def execKor (_x : BitVec 1) (d a b : BitVec 3) (s : State) : Host.Outcome State Fault Refusal :=
  .next (s.mainOnly (s.toMask d 2 (s.mask a ||| s.mask b).toNat []))

/-- KXOR (R205). -/
def execKxor (_x : BitVec 1) (d a b : BitVec 3) (s : State) : Host.Outcome State Fault Refusal :=
  .next (s.mainOnly (s.toMask d 2 (s.mask a ^^^ s.mask b).toNat []))

/-- KNOT (R205). -/
def execKnot (_x : BitVec 1) (d a : BitVec 3) (s : State) : Host.Outcome State Fault Refusal :=
  .next (s.mainOnly (s.toMask d 2 (~~~(s.mask a)).toNat []))

/-- KMOV between k registers (R205). -/
def execKmov (_x : BitVec 1) (d a : BitVec 3) (s : State) : Host.Outcome State Fault Refusal :=
  .next (s.mainOnly (s.toMask d 2 (s.mask a).toNat []))

/-- KMOV from a scalar register (R205). -/
def execKmovFromS (_x : BitVec 1) (d : BitVec 3) (a : BitVec 5) (s : State) : Host.Outcome State Fault Refusal :=
  .next (s.mainOnly (s.toMask d 2 (s.reg a).toNat []))

/-- KMOV to a scalar register (R205). -/
def execKmovToS (_x : BitVec 1) (d : BitVec 5) (a : BitVec 3) (s : State) : Host.Outcome State Fault Refusal :=
  .next (s.mainOnly (s.toReg d 2 (s.mask a)))

/-- KPOP (R205). -/
def execKpop (_x : BitVec 1) (d : BitVec 5) (a : BitVec 3) (s : State) : Host.Outcome State Fault Refusal :=
  .next (s.mainOnly (s.toReg d 2 (BitVec.ofNat 64 (onesBelow (s.mask a) 64))))

/-- KUNI (R205). -/
def execKuni (_x : BitVec 1) (d a : BitVec 3) (l : BitVec 2) (s : State) : Host.Outcome State Fault Refusal :=
  .next (let m := s.mask a
    let w := 8 * 2 ^ l.toNat
    s.mainOnly (s.toMask d 2 (ofLanes 1 ((List.range 64).map fun j => (m.getLsbD (j * w / 64)).toNat)) []))

/-- VLD (R206). -/
def execVld (y : BitVec 1) (d a l : BitVec 5) (f : BitVec 6) (s : State) : Host.Outcome State Fault Refusal :=
  .next (s.mainOnly (s.loadInto false (vPort (y == 1) d.toNat) a f 64 l 0))

/-- VST (R206). -/
def execVst (y : BitVec 1) (d a : BitVec 5) (f : BitVec 6) (s : State) : Host.Outcome State Fault Refusal :=
  .next (s.mainOnly (s.storeFrom false (s.vec (y == 1) d).toNat a f 64))

/-- VGATHER (R207, R208). -/
def execVgather (x : BitVec 1) (d b : BitVec 5) (a : BitVec 4) (m : BitVec 3) (l : BitVec 5) (s : State) : Host.Outcome State Fault Refusal :=
  .next (s.mainOnly <|
    let es := s.offsets x b a m
    match badOffset es with
    | some e => s.misaligned (w64 e)
    | none =>
      let old := s.oldVec (x == 1) d
      let v := ofLanes 32 (es.zipIdx.map fun e => match e.1 with
        | some _ => 0
        | none => lane 32 old e.2)
      let wants := es.zipIdx.filterMap fun e => e.1.map fun o => Want.of false o.toNat 4 (4 * e.2) 11
      (s.timedLoad (vPort (x == 1) d.toNat) 12 l v wants 0).traceLanes)

/-- VSCATTER (R207, R208): line by line, the lanes of a line in ascending order. A line with an uncorrectable error stays bad, even
where the lanes cover all of it. [DESIGN CHOICE, log 133: unsafe] -/
def execVscatter (x : BitVec 1) (d b : BitVec 5) (a : BitVec 4) (m : BitVec 3) (s : State) : Host.Outcome State Fault Refusal :=
  .next (s.mainOnly <|
    let es := s.offsets x b a m
    match badOffset es with
    | some e => s.misaligned (w64 e)
    | none =>
      let vd := s.vec (x == 1) d
      let ws := es.zipIdx.filterMap fun e => e.1.map fun o => (o.toNat, natToBytes 4 (lane 32 vd e.2))
      let lines := (ws.map fun w => w.1 / 64).eraseDups
      (lines.foldl (fun s n => s.storeLine false n
        (fun b => (ws.filter (fun w => w.1 / 64 == n)).foldl (fun b w => overlay b (w.1 % 64) w.2) b) false) s).traceLanes)

end Sys2Proof.Machine
end

