-- ==== Sys2Proof/Machine/Dispatch.lean ====
section
/-! DEFINITION. One arm for each instruction: the call of its meaning. -/

namespace Sys2Proof.Machine

def exec (i : Instr) (s : State) : Host.Outcome State Fault Refusal :=
  match i with
  | .loopBack core => Sys2Proof.Machine.execLoopBack core s
  | .timedLanding core => Sys2Proof.Machine.execTimedLanding core s
  | .lateDataArrival core periods bank => Sys2Proof.Machine.execLateDataArrival core periods bank s
  | .pickup core => Sys2Proof.Machine.execPickup core s
  | .idleRetry core => Sys2Proof.Machine.execIdleRetry core s
  | .suspension core => Sys2Proof.Machine.execSuspension core s
  | .pinWake core => Sys2Proof.Machine.execPinWake core s
  | .trapEntry core => Sys2Proof.Machine.execTrapEntry core s
  | .messageHandlerStart core => Sys2Proof.Machine.execMessageHandlerStart core s
  | .watchdogExpiry core => Sys2Proof.Machine.execWatchdogExpiry core s
  | .preemptionService core => Sys2Proof.Machine.execPreemptionService core s
  | .coreResume core => Sys2Proof.Machine.execCoreResume core s
  | .saveTimerExpiry core => Sys2Proof.Machine.execSaveTimerExpiry core s
  | .rangeWalk core code va => Sys2Proof.Machine.execRangeWalk core code va s
  | .matrixStep core => Sys2Proof.Machine.execMatrixStep core s
  | .stepResultsComplete core => Sys2Proof.Machine.execStepResultsComplete core s
  | .latchLoad core => Sys2Proof.Machine.execLatchLoad core s
  | .nestPass core => Sys2Proof.Machine.execNestPass core s
  | .drain core => Sys2Proof.Machine.execDrain core s
  | .matrixClear core => Sys2Proof.Machine.execMatrixClear core s
  | .postPlacement core op => Sys2Proof.Machine.execPostPlacement core op s
  | .tagArbiterApply core op => Sys2Proof.Machine.execTagArbiterApply core op s
  | .messageArrival core op => Sys2Proof.Machine.execMessageArrival core op s
  | .sendAcknowledgement core op => Sys2Proof.Machine.execSendAcknowledgement core op s
  | .sendHoldExpiry core op => Sys2Proof.Machine.execSendHoldExpiry core op s
  | .chunkAdmission cluster xfer => Sys2Proof.Machine.execChunkAdmission cluster xfer s
  | .blockComplete cluster xfer => Sys2Proof.Machine.execBlockComplete cluster xfer s
  | .tileVerification cluster xfer => Sys2Proof.Machine.execTileVerification cluster xfer s
  | .transferComplete cluster xfer => Sys2Proof.Machine.execTransferComplete cluster xfer s
  | .engineFault cluster engine => Sys2Proof.Machine.execEngineFault cluster engine s
  | .syncOperation core op => Sys2Proof.Machine.execSyncOperation core op s
  | .barrierDecrement op => Sys2Proof.Machine.execBarrierDecrement op s
  | .objectFetch die obj => Sys2Proof.Machine.execObjectFetch die obj s
  | .waitScan die => Sys2Proof.Machine.execWaitScan die s
  | .meetArrival op => Sys2Proof.Machine.execMeetArrival op s
  | .orphanScan node => Sys2Proof.Machine.execOrphanScan node s
  | .resultReoffer node => Sys2Proof.Machine.execResultReoffer node s
  | .rangeUpdate core op => Sys2Proof.Machine.execRangeUpdate core op s
  | .compactionBlock => Sys2Proof.Machine.execCompactionBlock s
  | .doorbell value => Sys2Proof.Machine.execDoorbell value s
  | .launch => Sys2Proof.Machine.execLaunch s
  | .collectiveEntry => Sys2Proof.Machine.execCollectiveEntry s
  | .jobStart => Sys2Proof.Machine.execJobStart s
  | .jobEnd => Sys2Proof.Machine.execJobEnd s
  | .unknownEntry => Sys2Proof.Machine.execUnknownEntry s
  | .phaseCommit => Sys2Proof.Machine.execPhaseCommit s
  | .preempt => Sys2Proof.Machine.execPreempt s
  | .preemptAcknowledgement engine => Sys2Proof.Machine.execPreemptAcknowledgement engine s
  | .preemptionTimeout engine => Sys2Proof.Machine.execPreemptionTimeout engine s
  | .resume => Sys2Proof.Machine.execResume s
  | .cancel => Sys2Proof.Machine.execCancel s
  | .continueCmd => Sys2Proof.Machine.execContinueCmd s
  | .freeze => Sys2Proof.Machine.execFreeze s
  | .unfreeze => Sys2Proof.Machine.execUnfreeze s
  | .hcmdInvalid value => Sys2Proof.Machine.execHcmdInvalid value s
  | .hstatRead => Sys2Proof.Machine.execHstatRead s
  | .eyectlWrite stack value => Sys2Proof.Machine.execEyectlWrite stack value s
  | .hostRegisterWrite offset value => Sys2Proof.Machine.execHostRegisterWrite offset value s
  | .windowRead offset len => Sys2Proof.Machine.execWindowRead offset len s
  | .windowWrite offset bytes => Sys2Proof.Machine.execWindowWrite offset bytes s
  | .attestationRequest nonce => Sys2Proof.Machine.execAttestationRequest nonce s
  | .boot => Sys2Proof.Machine.execBoot s
  | .patrolScrub stack => Sys2Proof.Machine.execPatrolScrub stack s
  | .scrubWriteback stack => Sys2Proof.Machine.execScrubWriteback stack s
  | .eyeThresholdCrossed stack lane => Sys2Proof.Machine.execEyeThresholdCrossed stack lane s
  | .retrainingSlot stack => Sys2Proof.Machine.execRetrainingSlot stack s
  | .droop die => Sys2Proof.Machine.execDroop die s
  | .powerLoop others => Sys2Proof.Machine.execPowerLoop others s
  | .thermalLoop die reading => Sys2Proof.Machine.execThermalLoop die reading s
  | .railPoll die reading => Sys2Proof.Machine.execRailPoll die reading s
  | .regulatorTimeout die => Sys2Proof.Machine.execRegulatorTimeout die s
  | .flitReplay replay => Sys2Proof.Machine.execFlitReplay replay s
  | .portRetrain port => Sys2Proof.Machine.execPortRetrain port s
  | .packageDeath package => Sys2Proof.Machine.execPackageDeath package s
  | .packetArrival packet => Sys2Proof.Machine.execPacketArrival packet s
  | .packetTimeout op => Sys2Proof.Machine.execPacketTimeout op s
  | .fabricCompletion op status bytes => Sys2Proof.Machine.execFabricCompletion op status bytes s
  | .fabricBarrierArrival entry child => Sys2Proof.Machine.execFabricBarrierArrival entry child s
  | .fabricBarrierRelease entry => Sys2Proof.Machine.execFabricBarrierRelease entry s
  | .roundBreak round => Sys2Proof.Machine.execRoundBreak round s
  | .collectiveJoin peer hash => Sys2Proof.Machine.execCollectiveJoin peer hash s
  | .joinTimeout peer => Sys2Proof.Machine.execJoinTimeout peer s
  | .collectiveChunk contribution => Sys2Proof.Machine.execCollectiveChunk contribution s
  | .reset level unit => Sys2Proof.Machine.execReset level unit s
  | .singleFault fault => Sys2Proof.Machine.execSingleFault fault s
  | .portRetrainingEnd port ok => Sys2Proof.Machine.execPortRetrainingEnd port ok s
  | .engineResumeReport engine => Sys2Proof.Machine.execEngineResumeReport engine s
  | .getResponseArrival op bytes => Sys2Proof.Machine.execGetResponseArrival op bytes s
  | .nop => Sys2Proof.Machine.execNop s
  | .br r g n d => Sys2Proof.Machine.execBr r g n d s
  | .jmp r g n sh => Sys2Proof.Machine.execJmp r g n sh s
  | .callDisp r g n d => Sys2Proof.Machine.execCallDisp r g n d s
  | .callReg r g n sh => Sys2Proof.Machine.execCallReg r g n sh s
  | .ret r g n sh => Sys2Proof.Machine.execRet r g n sh s
  | .brvAll r k d => Sys2Proof.Machine.execBrvAll r k d s
  | .brvNone r k d => Sys2Proof.Machine.execBrvNone r k d s
  | .loop n l sh => Sys2Proof.Machine.execLoop n l sh s
  | .bsel r a t => Sys2Proof.Machine.execBsel r a t s
  | .fenceL => Sys2Proof.Machine.execFenceL s
  | .mfc d r => Sys2Proof.Machine.execMfc d r s
  | .mtc a r => Sys2Proof.Machine.execMtc a r s
  | .trap k => Sys2Proof.Machine.execTrap k s
  | .bkpt k => Sys2Proof.Machine.execBkpt k s
  | .rett => Sys2Proof.Machine.execRett s
  | .reth => Sys2Proof.Machine.execReth s
  | .trapack => Sys2Proof.Machine.execTrapack s
  | .post d a b l => Sys2Proof.Machine.execPost d a b l s
  | .postn d a b l => Sys2Proof.Machine.execPostn d a b l s
  | .susp => Sys2Proof.Machine.execSusp s
  | .pinM => Sys2Proof.Machine.execPinM s
  | .pinQ a => Sys2Proof.Machine.execPinQ a s
  | .pinB d a => Sys2Proof.Machine.execPinB d a s
  | .pinT a => Sys2Proof.Machine.execPinT a s
  | .endStrand => Sys2Proof.Machine.execEndStrand s
  | .gnew d a l => Sys2Proof.Machine.execGnew d a l s
  | .gjoin d a l => Sys2Proof.Machine.execGjoin d a l s
  | .gleave d a l => Sys2Proof.Machine.execGleave d a l s
  | .gfree d a l => Sys2Proof.Machine.execGfree d a l s
  | .ginfo d a l => Sys2Proof.Machine.execGinfo d a l s
  | .dgst d a l => Sys2Proof.Machine.execDgst d a l s
  | .traceW a => Sys2Proof.Machine.execTraceW a s
  | .traceR d a => Sys2Proof.Machine.execTraceR d a s
  | .trigFire => Sys2Proof.Machine.execTrigFire s
  | .trigRearm => Sys2Proof.Machine.execTrigRearm s
  | .addSr d a b g => Sys2Proof.Machine.execAddSr d a b g s
  | .addSi d a im => Sys2Proof.Machine.execAddSi d a im s
  | .subSr d a b g => Sys2Proof.Machine.execSubSr d a b g s
  | .subSi d a im => Sys2Proof.Machine.execSubSi d a im s
  | .andSr d a b g => Sys2Proof.Machine.execAndSr d a b g s
  | .andSi d a im => Sys2Proof.Machine.execAndSi d a im s
  | .orSr d a b g => Sys2Proof.Machine.execOrSr d a b g s
  | .orSi d a im => Sys2Proof.Machine.execOrSi d a im s
  | .xorSr d a b g => Sys2Proof.Machine.execXorSr d a b g s
  | .xorSi d a im => Sys2Proof.Machine.execXorSi d a im s
  | .andnSr d a b g => Sys2Proof.Machine.execAndnSr d a b g s
  | .andnSi d a im => Sys2Proof.Machine.execAndnSi d a im s
  | .shlSr d a b g => Sys2Proof.Machine.execShlSr d a b g s
  | .shlSi d a im => Sys2Proof.Machine.execShlSi d a im s
  | .shrSr d a b g => Sys2Proof.Machine.execShrSr d a b g s
  | .shrSi d a im => Sys2Proof.Machine.execShrSi d a im s
  | .sarSr d a b g => Sys2Proof.Machine.execSarSr d a b g s
  | .sarSi d a im => Sys2Proof.Machine.execSarSi d a im s
  | .rotSr d a b g => Sys2Proof.Machine.execRotSr d a b g s
  | .rotSi d a im => Sys2Proof.Machine.execRotSi d a im s
  | .minSr d a b g => Sys2Proof.Machine.execMinSr d a b g s
  | .minSi d a im => Sys2Proof.Machine.execMinSi d a im s
  | .maxSr d a b g => Sys2Proof.Machine.execMaxSr d a b g s
  | .maxSi d a im => Sys2Proof.Machine.execMaxSi d a im s
  | .minuSr d a b g => Sys2Proof.Machine.execMinuSr d a b g s
  | .minuSi d a im => Sys2Proof.Machine.execMinuSi d a im s
  | .maxuSr d a b g => Sys2Proof.Machine.execMaxuSr d a b g s
  | .maxuSi d a im => Sys2Proof.Machine.execMaxuSi d a im s
  | .mulSr d a b g => Sys2Proof.Machine.execMulSr d a b g s
  | .mulSi d a im => Sys2Proof.Machine.execMulSi d a im s
  | .mulh d a b g => Sys2Proof.Machine.execMulh d a b g s
  | .mulhu d a b g => Sys2Proof.Machine.execMulhu d a b g s
  | .div d a b g => Sys2Proof.Machine.execDiv d a b g s
  | .divu d a b g => Sys2Proof.Machine.execDivu d a b g s
  | .rem d a b g => Sys2Proof.Machine.execRem d a b g s
  | .remu d a b g => Sys2Proof.Machine.execRemu d a b g s
  | .clz d a g => Sys2Proof.Machine.execClz d a g s
  | .ctz d a g => Sys2Proof.Machine.execCtz d a g s
  | .popc d a g => Sys2Proof.Machine.execPopc d a g s
  | .brev d a g => Sys2Proof.Machine.execBrev d a g s
  | .extB d a g => Sys2Proof.Machine.execExtB d a g s
  | .extBu d a g => Sys2Proof.Machine.execExtBu d a g s
  | .extH d a g => Sys2Proof.Machine.execExtH d a g s
  | .extHu d a g => Sys2Proof.Machine.execExtHu d a g s
  | .extW d a g => Sys2Proof.Machine.execExtW d a g s
  | .extWu d a g => Sys2Proof.Machine.execExtWu d a g s
  | .bfx d a b g => Sys2Proof.Machine.execBfx d a b g s
  | .bfi d a b g => Sys2Proof.Machine.execBfi d a b g s
  | .addsh1 d a b g => Sys2Proof.Machine.execAddsh1 d a b g s
  | .addsh2 d a b g => Sys2Proof.Machine.execAddsh2 d a b g s
  | .addsh3 d a b g => Sys2Proof.Machine.execAddsh3 d a b g s
  | .addsh4 d a b g => Sys2Proof.Machine.execAddsh4 d a b g s
  | .sel d a b p => Sys2Proof.Machine.execSel d a b p s
  | .cmpEqSr p a b g => Sys2Proof.Machine.execCmpEqSr p a b g s
  | .cmpEqSi p a im => Sys2Proof.Machine.execCmpEqSi p a im s
  | .cmpNeSr p a b g => Sys2Proof.Machine.execCmpNeSr p a b g s
  | .cmpNeSi p a im => Sys2Proof.Machine.execCmpNeSi p a im s
  | .cmpLtSr p a b g => Sys2Proof.Machine.execCmpLtSr p a b g s
  | .cmpLtSi p a im => Sys2Proof.Machine.execCmpLtSi p a im s
  | .cmpGeSr p a b g => Sys2Proof.Machine.execCmpGeSr p a b g s
  | .cmpGeSi p a im => Sys2Proof.Machine.execCmpGeSi p a im s
  | .cmpLtuSr p a b g => Sys2Proof.Machine.execCmpLtuSr p a b g s
  | .cmpLtuSi p a im => Sys2Proof.Machine.execCmpLtuSi p a im s
  | .cmpGeuSr p a b g => Sys2Proof.Machine.execCmpGeuSr p a b g s
  | .cmpGeuSi p a im => Sys2Proof.Machine.execCmpGeuSi p a im s
  | .plogAnd d a b g => Sys2Proof.Machine.execPlogAnd d a b g s
  | .plogOr d a b g => Sys2Proof.Machine.execPlogOr d a b g s
  | .plogXor d a b g => Sys2Proof.Machine.execPlogXor d a b g s
  | .plogAndn d a b g => Sys2Proof.Machine.execPlogAndn d a b g s
  | .movi d im => Sys2Proof.Machine.execMovi d im s
  | .limm im => Sys2Proof.Machine.execLimm im s
  | .vadd x t d a b m z => Sys2Proof.Machine.execVadd x t d a b m z s
  | .vsub x t d a b m z => Sys2Proof.Machine.execVsub x t d a b m z s
  | .vmul x t d a b m z => Sys2Proof.Machine.execVmul x t d a b m z s
  | .vfma x t d a b m z => Sys2Proof.Machine.execVfma x t d a b m z s
  | .vfms x t d a b m z => Sys2Proof.Machine.execVfms x t d a b m z s
  | .vfnma x t d a b m z => Sys2Proof.Machine.execVfnma x t d a b m z s
  | .vmin x t d a b m z => Sys2Proof.Machine.execVmin x t d a b m z s
  | .vmax x t d a b m z => Sys2Proof.Machine.execVmax x t d a b m z s
  | .vabs x t d a m z => Sys2Proof.Machine.execVabs x t d a m z s
  | .vneg x t d a m z => Sys2Proof.Machine.execVneg x t d a m z s
  | .vdiv x t d a b m z => Sys2Proof.Machine.execVdiv x t d a b m z s
  | .vsqrt x t d a m z => Sys2Proof.Machine.execVsqrt x t d a m z s
  | .vcmpEqFloat x t k a b m z => Sys2Proof.Machine.execVcmpEqFloat x t k a b m z s
  | .vcmpLtFloat x t k a b m z => Sys2Proof.Machine.execVcmpLtFloat x t k a b m z s
  | .vcmpLeFloat x t k a b m z => Sys2Proof.Machine.execVcmpLeFloat x t k a b m z s
  | .vcmpUnFloat x t k a b m z => Sys2Proof.Machine.execVcmpUnFloat x t k a b m z s
  | .viadd x im d a b m z => Sys2Proof.Machine.execViadd x im d a b m z s
  | .visub x im d a b m z => Sys2Proof.Machine.execVisub x im d a b m z s
  | .vimul x im d a b m z => Sys2Proof.Machine.execVimul x im d a b m z s
  | .vimulh x im d a b m z => Sys2Proof.Machine.execVimulh x im d a b m z s
  | .vimin x im d a b m z => Sys2Proof.Machine.execVimin x im d a b m z s
  | .vimax x im d a b m z => Sys2Proof.Machine.execVimax x im d a b m z s
  | .vand x d a b m z => Sys2Proof.Machine.execVand x d a b m z s
  | .vor x d a b m z => Sys2Proof.Machine.execVor x d a b m z s
  | .vxor x d a b m z => Sys2Proof.Machine.execVxor x d a b m z s
  | .vandn x d a b m z => Sys2Proof.Machine.execVandn x d a b m z s
  | .vshl x j d a b m z => Sys2Proof.Machine.execVshl x j d a b m z s
  | .vshr x j d a b m z => Sys2Proof.Machine.execVshr x j d a b m z s
  | .vsar x j d a b m z => Sys2Proof.Machine.execVsar x j d a b m z s
  | .vfxmulFix64 x d a b m z => Sys2Proof.Machine.execVfxmulFix64 x d a b m z s
  | .vfxaddFix64 x d a b m z => Sys2Proof.Machine.execVfxaddFix64 x d a b m z s
  | .vdot16Bf16 x d a b m z => Sys2Proof.Machine.execVdot16Bf16 x d a b m z s
  | .vdot16F16 x d a b m z => Sys2Proof.Machine.execVdot16F16 x d a b m z s
  | .vdot16E4m3 x d a b m z => Sys2Proof.Machine.execVdot16E4m3 x d a b m z s
  | .vdot16E5m2 x d a b m z => Sys2Proof.Machine.execVdot16E5m2 x d a b m z s
  | .vdot16I8 x d a b m z => Sys2Proof.Machine.execVdot16I8 x d a b m z s
  | .vdot16Log6 x d a b m z => Sys2Proof.Machine.execVdot16Log6 x d a b m z s
  | .vdot16E2m1 x d a b m z => Sys2Proof.Machine.execVdot16E2m1 x d a b m z s
  | .vcmpEqInt x j k a b m z => Sys2Proof.Machine.execVcmpEqInt x j k a b m z s
  | .vcmpLtInt x j k a b m z => Sys2Proof.Machine.execVcmpLtInt x j k a b m z s
  | .vcmpLtuInt x j k a b m z => Sys2Proof.Machine.execVcmpLtuInt x j k a b m z s
  | .vcmpLeInt x j k a b m z => Sys2Proof.Machine.execVcmpLeInt x j k a b m z s
  | .vcvt x f d a sh m z => Sys2Proof.Machine.execVcvt x f d a sh m z s
  | .vmxq x d a b e => Sys2Proof.Machine.execVmxq x d a b e s
  | .vmxd x d a b e => Sys2Proof.Machine.execVmxd x d a b e s
  | .vrcpeF32 x d a m z => Sys2Proof.Machine.execVrcpeF32 x d a m z s
  | .vrsqeF32 x d a m z => Sys2Proof.Machine.execVrsqeF32 x d a m z s
  | .vfexpF32 x d a m z => Sys2Proof.Machine.execVfexpF32 x d a m z s
  | .vscalebF32 x d a b m z => Sys2Proof.Machine.execVscalebF32 x d a b m z s
  | .vgetexpF32 x d a m z => Sys2Proof.Machine.execVgetexpF32 x d a m z s
  | .vrndiF32 x d a m z => Sys2Proof.Machine.execVrndiF32 x d a m z s
  | .vrndiIF32 x d a m z => Sys2Proof.Machine.execVrndiIF32 x d a m z s
  | .vclassF32 x d a m z => Sys2Proof.Machine.execVclassF32 x d a m z s
  | .vrcpeF64 x d a m z => Sys2Proof.Machine.execVrcpeF64 x d a m z s
  | .vrsqeF64 x d a m z => Sys2Proof.Machine.execVrsqeF64 x d a m z s
  | .vfexpF64 x d a m z => Sys2Proof.Machine.execVfexpF64 x d a m z s
  | .vscalebF64 x d a b m z => Sys2Proof.Machine.execVscalebF64 x d a b m z s
  | .vgetexpF64 x d a m z => Sys2Proof.Machine.execVgetexpF64 x d a m z s
  | .vrndiF64 x d a m z => Sys2Proof.Machine.execVrndiF64 x d a m z s
  | .vrndiIF64 x d a m z => Sys2Proof.Machine.execVrndiIF64 x d a m z s
  | .vclassF64 x d a m z => Sys2Proof.Machine.execVclassF64 x d a m z s
  | .vsel x d a b k => Sys2Proof.Machine.execVsel x d a b k s
  | .vmov x d a m z => Sys2Proof.Machine.execVmov x d a m z s
  | .vxmov x d a m z => Sys2Proof.Machine.execVxmov x d a m z s
  | .vbcast x d sh w m z => Sys2Proof.Machine.execVbcast x d sh w m z s
  | .vext x d a n h w e => Sys2Proof.Machine.execVext x d a n h w e s
  | .vins x d sh n h w => Sys2Proof.Machine.execVins x d sh n h w s
  | .vperm x d a b m z => Sys2Proof.Machine.execVperm x d a b m z s
  | .vshuf x d a b m z => Sys2Proof.Machine.execVshuf x d a b m z s
  | .vredAddF32 x d a b m => Sys2Proof.Machine.execVredAddF32 x d a b m s
  | .vredAddF64 x d a b m => Sys2Proof.Machine.execVredAddF64 x d a b m s
  | .vredMinF32 x d a b m => Sys2Proof.Machine.execVredMinF32 x d a b m s
  | .vredMaxF32 x d a b m => Sys2Proof.Machine.execVredMaxF32 x d a b m s
  | .vredAddI32 x d a b m => Sys2Proof.Machine.execVredAddI32 x d a b m s
  | .vredAddI64 x d a b m => Sys2Proof.Machine.execVredAddI64 x d a b m s
  | .vredMinI32 x d a b m => Sys2Proof.Machine.execVredMinI32 x d a b m s
  | .vredMaxI32 x d a b m => Sys2Proof.Machine.execVredMaxI32 x d a b m s
  | .kand x d a b => Sys2Proof.Machine.execKand x d a b s
  | .kor x d a b => Sys2Proof.Machine.execKor x d a b s
  | .kxor x d a b => Sys2Proof.Machine.execKxor x d a b s
  | .knot x d a => Sys2Proof.Machine.execKnot x d a s
  | .kmov x d a => Sys2Proof.Machine.execKmov x d a s
  | .kmovFromS x d a => Sys2Proof.Machine.execKmovFromS x d a s
  | .kmovToS x d a => Sys2Proof.Machine.execKmovToS x d a s
  | .kpop x d a => Sys2Proof.Machine.execKpop x d a s
  | .kuni x d a l => Sys2Proof.Machine.execKuni x d a l s
  | .tmma sh acc a b r => Sys2Proof.Machine.execTmma sh acc a b r s
  | .tmmaLatch sh acc l b r => Sys2Proof.Machine.execTmmaLatch sh acc l b r s
  | .tlatch sh l a => Sys2Proof.Machine.execTlatch sh l a s
  | .tgo sh acc a b p => Sys2Proof.Machine.execTgo sh acc a b p s
  | .tdrain acc a => Sys2Proof.Machine.execTdrain acc a s
  | .twait d l => Sys2Proof.Machine.execTwait d l s
  | .tstat d l => Sys2Proof.Machine.execTstat d l s
  | .tclr acc => Sys2Proof.Machine.execTclr acc s
  | .trow a => Sys2Proof.Machine.execTrow a s
  | .ldB d a l f => Sys2Proof.Machine.execLdB d a l f s
  | .ldBu d a l f => Sys2Proof.Machine.execLdBu d a l f s
  | .ldH d a l f => Sys2Proof.Machine.execLdH d a l f s
  | .ldHu d a l f => Sys2Proof.Machine.execLdHu d a l f s
  | .ldW d a l f => Sys2Proof.Machine.execLdW d a l f s
  | .ldWu d a l f => Sys2Proof.Machine.execLdWu d a l f s
  | .ldD d a l f => Sys2Proof.Machine.execLdD d a l f s
  | .stB d a f => Sys2Proof.Machine.execStB d a f s
  | .stH d a f => Sys2Proof.Machine.execStH d a f s
  | .stW d a f => Sys2Proof.Machine.execStW d a f s
  | .stD d a f => Sys2Proof.Machine.execStD d a f s
  | .vld y d a l f => Sys2Proof.Machine.execVld y d a l f s
  | .vst y d a f => Sys2Proof.Machine.execVst y d a f s
  | .vgather x d b a m l => Sys2Proof.Machine.execVgather x d b a m l s
  | .vscatter x d b a m => Sys2Proof.Machine.execVscatter x d b a m s
  | .kldW d a l f => Sys2Proof.Machine.execKldW d a l f s
  | .kldWu d a l f => Sys2Proof.Machine.execKldWu d a l f s
  | .kldD d a l f => Sys2Proof.Machine.execKldD d a l f s
  | .kstW d a f => Sys2Proof.Machine.execKstW d a f s
  | .kstD d a f => Sys2Proof.Machine.execKstD d a f s
  | .kvld y d a l f => Sys2Proof.Machine.execKvld y d a l f s
  | .kvst y d a f => Sys2Proof.Machine.execKvst y d a f s
  | .klook d a l => Sys2Proof.Machine.execKlook d a l s
  | .ktag d a b => Sys2Proof.Machine.execKtag d a b s
  | .kuntag d a b => Sys2Proof.Machine.execKuntag d a b s
  | .qput d a b => Sys2Proof.Machine.execQput d a b s
  | .qget d a l => Sys2Proof.Machine.execQget d a l s
  | .qstat d a l => Sys2Proof.Machine.execQstat d a l s
  | .qcfgRel a b => Sys2Proof.Machine.execQcfgRel a b s
  | .qcfgOpen a b => Sys2Proof.Machine.execQcfgOpen a b s
  | .qcfgClose a => Sys2Proof.Machine.execQcfgClose a s
  | .xfer d a l => Sys2Proof.Machine.execXfer d a l s
  | .xwait d a l => Sys2Proof.Machine.execXwait d a l s
  | .xstat d a l => Sys2Proof.Machine.execXstat d a l s
  | .xcancel a => Sys2Proof.Machine.execXcancel a s
  | .xcancelAll => Sys2Proof.Machine.execXcancelAll s
  | .binit a b => Sys2Proof.Machine.execBinit a b s
  | .barrive a => Sys2Proof.Machine.execBarrive a s
  | .bwait d a b => Sys2Proof.Machine.execBwait d a b s
  | .bexpect a b => Sys2Proof.Machine.execBexpect a b s
  | .binv a => Sys2Proof.Machine.execBinv a s
  | .aadd d a b l => Sys2Proof.Machine.execAadd d a b l s
  | .acas d a b l => Sys2Proof.Machine.execAcas d a b l s
  | .amin d a b l => Sys2Proof.Machine.execAmin d a b l s
  | .amax d a b l => Sys2Proof.Machine.execAmax d a b l s
  | .aor d a b l => Sys2Proof.Machine.execAor d a b l s
  | .afix d a b l => Sys2Proof.Machine.execAfix d a b l s
  | .aread d a l => Sys2Proof.Machine.execAread d a l s
  | .mtaga d l => Sys2Proof.Machine.execMtaga d l s
  | .mtagf d a l => Sys2Proof.Machine.execMtagf d a l s
  | .meet d a b x o => Sys2Proof.Machine.execMeet d a b x o s
  | .meetT d a b o => Sys2Proof.Machine.execMeetT d a b o s
  | .mstat d a l => Sys2Proof.Machine.execMstat d a l s
  | .rlook d a b l => Sys2Proof.Machine.execRlook d a b l s
  | .rsplit d a b l => Sys2Proof.Machine.execRsplit d a b l s
  | .rmerge d a b l => Sys2Proof.Machine.execRmerge d a b l s
  | .rinv a => Sys2Proof.Machine.execRinv a s
  | .rresSet d a b => Sys2Proof.Machine.execRresSet d a b s
  | .rresGrow d a b => Sys2Proof.Machine.execRresGrow d a b s
  | .rprotAll a b => Sys2Proof.Machine.execRprotAll a b s
  | .rprotPerm a b => Sys2Proof.Machine.execRprotPerm a b s
  | .rprotKey a b => Sys2Proof.Machine.execRprotKey a b s
  | .rfence d l => Sys2Proof.Machine.execRfence d l s
  | .rmove a b => Sys2Proof.Machine.execRmove a b s
  | .fput a => Sys2Proof.Machine.execFput a s
  | .fget a => Sys2Proof.Machine.execFget a s
  | .fbar d a b => Sys2Proof.Machine.execFbar d a b s
  | .fstat d a l => Sys2Proof.Machine.execFstat d a l s
  | .cpost a => Sys2Proof.Machine.execCpost a s

end Sys2Proof.Machine
end

