-- ==== Sys2Proof/Machine/Reads.lean ====
section
/-! DEFINITION. The registers that each word reads, and what an uncorrectable error in one of them does to the bundle that
reads it (R269, R280). -/

namespace Sys2Proof.Machine

/-- A register pair that a tile operand names (R213). -/
def Core.pairPorts (c : Core) (n : BitVec 5) : List Port := [c.sPort n.toNat, c.sPort (n.toNat + 1)]

/-- The destination, where a mask leaves lanes of it as they were (R63). -/
def merged (x : BitVec 1) (d : BitVec 5) (m : BitVec 3) (z : BitVec 1) : List Port :=
  if z = 0 ∧ m ≠ 0 then [vPort (x == 1) d.toNat] else []

/-- The mask that a compare writes, where its own mask leaves lanes of it as they were (R63). -/
def mergedMask (k m : BitVec 3) (z : BitVec 1) : List Port := if z = 0 ∧ m ≠ 0 then [.k k.toNat] else []

/-- The register that MFC reads behind a control register number: a loop counter, or a register of the other window. -/
def Core.cregReads (c : Core) (r : Nat) : List Port :=
  if r = 0x00C ∨ r = 0x00D then [.creg false r]
  else if c.inHandler ∧ 0x0F0 ≤ r ∧ r ≤ 0x0FF then []
  else if 0x0F0 ≤ r ∧ r ≤ 0x0FF then [.s (r - 0x0E0)]
  else []

/-- What a guarded word reads: its predicate, and its operands where the guard holds, for a word whose guard is false has no
trap but those of decoding (R47). -/
def State.whenActs (s : State) (g : BitVec 3) (negate : Bool) (operands : List Port) : List Port :=
  s.here.pPort g.toNat :: (if s.guarded g negate then operands else [])

/-- The registers that a word reads. Events, and words that read none, read none. -/
def wordReads (s : State) (i : Instr) : List Port :=
  let c := s.here
  match i with
  | .br _ g n _ => s.whenActs g (n == 1) []
  | .jmp _ g n j => s.whenActs g (n == 1) [c.sPort j.toNat]
  | .callDisp _ g n _ => s.whenActs g (n == 1) []
  | .callReg _ g n j => s.whenActs g (n == 1) [c.sPort j.toNat]
  | .ret _ g n j => s.whenActs g (n == 1) [c.sPort j.toNat]
  | .brvAll _ k _ => [.k k.toNat]
  | .brvNone _ k _ => [.k k.toNat]
  | .loop _ _ j => [c.sPort j.toNat]
  | .bsel _ a _ => [c.sPort a.toNat]
  | .mfc _ r => c.cregReads r.toNat
  | .mtc a _ => [c.sPort a.toNat]
  | .post _ a b _ => [c.sPort a.toNat, c.sPort b.toNat]
  | .postn _ a b _ => [c.sPort a.toNat, c.sPort b.toNat]
  | .pinQ a => [c.sPort a.toNat]
  | .pinB _ a => [c.sPort a.toNat]
  | .pinT a => [c.sPort a.toNat]
  | .gnew _ a _ => [c.sPort a.toNat]
  | .gjoin _ a _ => [c.sPort a.toNat]
  | .gleave _ a _ => [c.sPort a.toNat]
  | .gfree _ a _ => [c.sPort a.toNat]
  | .ginfo _ a _ => [c.sPort a.toNat]
  | .dgst _ a _ => [c.sPort a.toNat]
  | .traceW a => [c.sPort a.toNat]
  | .traceR _ a => [c.sPort a.toNat]
  | .addSr _ a b g => s.whenActs g false [c.sPort a.toNat, c.sPort b.toNat]
  | .addSi _ a _ => [c.sPort a.toNat]
  | .subSr _ a b g => s.whenActs g false [c.sPort a.toNat, c.sPort b.toNat]
  | .subSi _ a _ => [c.sPort a.toNat]
  | .andSr _ a b g => s.whenActs g false [c.sPort a.toNat, c.sPort b.toNat]
  | .andSi _ a _ => [c.sPort a.toNat]
  | .orSr _ a b g => s.whenActs g false [c.sPort a.toNat, c.sPort b.toNat]
  | .orSi _ a _ => [c.sPort a.toNat]
  | .xorSr _ a b g => s.whenActs g false [c.sPort a.toNat, c.sPort b.toNat]
  | .xorSi _ a _ => [c.sPort a.toNat]
  | .andnSr _ a b g => s.whenActs g false [c.sPort a.toNat, c.sPort b.toNat]
  | .andnSi _ a _ => [c.sPort a.toNat]
  | .shlSr _ a b g => s.whenActs g false [c.sPort a.toNat, c.sPort b.toNat]
  | .shlSi _ a _ => [c.sPort a.toNat]
  | .shrSr _ a b g => s.whenActs g false [c.sPort a.toNat, c.sPort b.toNat]
  | .shrSi _ a _ => [c.sPort a.toNat]
  | .sarSr _ a b g => s.whenActs g false [c.sPort a.toNat, c.sPort b.toNat]
  | .sarSi _ a _ => [c.sPort a.toNat]
  | .rotSr _ a b g => s.whenActs g false [c.sPort a.toNat, c.sPort b.toNat]
  | .rotSi _ a _ => [c.sPort a.toNat]
  | .minSr _ a b g => s.whenActs g false [c.sPort a.toNat, c.sPort b.toNat]
  | .minSi _ a _ => [c.sPort a.toNat]
  | .maxSr _ a b g => s.whenActs g false [c.sPort a.toNat, c.sPort b.toNat]
  | .maxSi _ a _ => [c.sPort a.toNat]
  | .minuSr _ a b g => s.whenActs g false [c.sPort a.toNat, c.sPort b.toNat]
  | .minuSi _ a _ => [c.sPort a.toNat]
  | .maxuSr _ a b g => s.whenActs g false [c.sPort a.toNat, c.sPort b.toNat]
  | .maxuSi _ a _ => [c.sPort a.toNat]
  | .mulSr _ a b g => s.whenActs g false [c.sPort a.toNat, c.sPort b.toNat]
  | .mulSi _ a _ => [c.sPort a.toNat]
  | .mulh _ a b g => s.whenActs g false [c.sPort a.toNat, c.sPort b.toNat]
  | .mulhu _ a b g => s.whenActs g false [c.sPort a.toNat, c.sPort b.toNat]
  | .div _ a b g => s.whenActs g false [c.sPort a.toNat, c.sPort b.toNat]
  | .divu _ a b g => s.whenActs g false [c.sPort a.toNat, c.sPort b.toNat]
  | .rem _ a b g => s.whenActs g false [c.sPort a.toNat, c.sPort b.toNat]
  | .remu _ a b g => s.whenActs g false [c.sPort a.toNat, c.sPort b.toNat]
  | .clz _ a g => s.whenActs g false [c.sPort a.toNat]
  | .ctz _ a g => s.whenActs g false [c.sPort a.toNat]
  | .popc _ a g => s.whenActs g false [c.sPort a.toNat]
  | .brev _ a g => s.whenActs g false [c.sPort a.toNat]
  | .extB _ a g => s.whenActs g false [c.sPort a.toNat]
  | .extBu _ a g => s.whenActs g false [c.sPort a.toNat]
  | .extH _ a g => s.whenActs g false [c.sPort a.toNat]
  | .extHu _ a g => s.whenActs g false [c.sPort a.toNat]
  | .extW _ a g => s.whenActs g false [c.sPort a.toNat]
  | .extWu _ a g => s.whenActs g false [c.sPort a.toNat]
  | .bfx _ a b g => s.whenActs g false [c.sPort a.toNat, c.sPort b.toNat]
  | .bfi d a b g => s.whenActs g false [c.sPort d.toNat, c.sPort a.toNat, c.sPort b.toNat]
  | .addsh1 _ a b g => s.whenActs g false [c.sPort a.toNat, c.sPort b.toNat]
  | .addsh2 _ a b g => s.whenActs g false [c.sPort a.toNat, c.sPort b.toNat]
  | .addsh3 _ a b g => s.whenActs g false [c.sPort a.toNat, c.sPort b.toNat]
  | .addsh4 _ a b g => s.whenActs g false [c.sPort a.toNat, c.sPort b.toNat]
  | .sel _ a b p => [c.sPort a.toNat, c.sPort b.toNat, c.pPort p.toNat]
  | .cmpEqSr _ a b g => s.whenActs g false [c.sPort a.toNat, c.sPort b.toNat]
  | .cmpEqSi _ a _ => [c.sPort a.toNat]
  | .cmpNeSr _ a b g => s.whenActs g false [c.sPort a.toNat, c.sPort b.toNat]
  | .cmpNeSi _ a _ => [c.sPort a.toNat]
  | .cmpLtSr _ a b g => s.whenActs g false [c.sPort a.toNat, c.sPort b.toNat]
  | .cmpLtSi _ a _ => [c.sPort a.toNat]
  | .cmpGeSr _ a b g => s.whenActs g false [c.sPort a.toNat, c.sPort b.toNat]
  | .cmpGeSi _ a _ => [c.sPort a.toNat]
  | .cmpLtuSr _ a b g => s.whenActs g false [c.sPort a.toNat, c.sPort b.toNat]
  | .cmpLtuSi _ a _ => [c.sPort a.toNat]
  | .cmpGeuSr _ a b g => s.whenActs g false [c.sPort a.toNat, c.sPort b.toNat]
  | .cmpGeuSi _ a _ => [c.sPort a.toNat]
  | .plogAnd _ a b g => s.whenActs g false [c.pPort a.toNat, c.pPort b.toNat]
  | .plogOr _ a b g => s.whenActs g false [c.pPort a.toNat, c.pPort b.toNat]
  | .plogXor _ a b g => s.whenActs g false [c.pPort a.toNat, c.pPort b.toNat]
  | .plogAndn _ a b g => s.whenActs g false [c.pPort a.toNat, c.pPort b.toNat]
  | .vadd x _ d a b m z => [vPort (x == 1) a.toNat, vPort (x == 1) b.toNat, .k m.toNat] ++ merged x d m z
  | .vsub x _ d a b m z => [vPort (x == 1) a.toNat, vPort (x == 1) b.toNat, .k m.toNat] ++ merged x d m z
  | .vmul x _ d a b m z => [vPort (x == 1) a.toNat, vPort (x == 1) b.toNat, .k m.toNat] ++ merged x d m z
  | .vfma x _ d a b m _ => [vPort (x == 1) d.toNat, vPort (x == 1) a.toNat, vPort (x == 1) b.toNat, .k m.toNat]
  | .vfms x _ d a b m _ => [vPort (x == 1) d.toNat, vPort (x == 1) a.toNat, vPort (x == 1) b.toNat, .k m.toNat]
  | .vfnma x _ d a b m _ => [vPort (x == 1) d.toNat, vPort (x == 1) a.toNat, vPort (x == 1) b.toNat, .k m.toNat]
  | .vmin x _ d a b m z => [vPort (x == 1) a.toNat, vPort (x == 1) b.toNat, .k m.toNat] ++ merged x d m z
  | .vmax x _ d a b m z => [vPort (x == 1) a.toNat, vPort (x == 1) b.toNat, .k m.toNat] ++ merged x d m z
  | .vabs x _ d a m z => [vPort (x == 1) a.toNat, .k m.toNat] ++ merged x d m z
  | .vneg x _ d a m z => [vPort (x == 1) a.toNat, .k m.toNat] ++ merged x d m z
  | .vdiv x _ d a b m z => [vPort (x == 1) a.toNat, vPort (x == 1) b.toNat, .k m.toNat] ++ merged x d m z
  | .vsqrt x _ d a m z => [vPort (x == 1) a.toNat, .k m.toNat] ++ merged x d m z
  | .vcmpEqFloat x _ k a b m z => [vPort (x == 1) a.toNat, vPort (x == 1) b.toNat, .k m.toNat] ++ mergedMask k m z
  | .vcmpLtFloat x _ k a b m z => [vPort (x == 1) a.toNat, vPort (x == 1) b.toNat, .k m.toNat] ++ mergedMask k m z
  | .vcmpLeFloat x _ k a b m z => [vPort (x == 1) a.toNat, vPort (x == 1) b.toNat, .k m.toNat] ++ mergedMask k m z
  | .vcmpUnFloat x _ k a b m z => [vPort (x == 1) a.toNat, vPort (x == 1) b.toNat, .k m.toNat] ++ mergedMask k m z
  | .viadd x _ d a b m z => [vPort (x == 1) a.toNat, vPort (x == 1) b.toNat, .k m.toNat] ++ merged x d m z
  | .visub x _ d a b m z => [vPort (x == 1) a.toNat, vPort (x == 1) b.toNat, .k m.toNat] ++ merged x d m z
  | .vimul x _ d a b m z => [vPort (x == 1) a.toNat, vPort (x == 1) b.toNat, .k m.toNat] ++ merged x d m z
  | .vimulh x _ d a b m z => [vPort (x == 1) a.toNat, vPort (x == 1) b.toNat, .k m.toNat] ++ merged x d m z
  | .vimin x _ d a b m z => [vPort (x == 1) a.toNat, vPort (x == 1) b.toNat, .k m.toNat] ++ merged x d m z
  | .vimax x _ d a b m z => [vPort (x == 1) a.toNat, vPort (x == 1) b.toNat, .k m.toNat] ++ merged x d m z
  | .vand x d a b m z => [vPort (x == 1) a.toNat, vPort (x == 1) b.toNat, .k m.toNat] ++ merged x d m z
  | .vor x d a b m z => [vPort (x == 1) a.toNat, vPort (x == 1) b.toNat, .k m.toNat] ++ merged x d m z
  | .vxor x d a b m z => [vPort (x == 1) a.toNat, vPort (x == 1) b.toNat, .k m.toNat] ++ merged x d m z
  | .vandn x d a b m z => [vPort (x == 1) a.toNat, vPort (x == 1) b.toNat, .k m.toNat] ++ merged x d m z
  | .vshl x _ d a b m z => [vPort (x == 1) a.toNat, vPort (x == 1) b.toNat, .k m.toNat] ++ merged x d m z
  | .vshr x _ d a b m z => [vPort (x == 1) a.toNat, vPort (x == 1) b.toNat, .k m.toNat] ++ merged x d m z
  | .vsar x _ d a b m z => [vPort (x == 1) a.toNat, vPort (x == 1) b.toNat, .k m.toNat] ++ merged x d m z
  | .vfxmulFix64 x d a b m z => [vPort (x == 1) a.toNat, vPort (x == 1) b.toNat, .k m.toNat] ++ merged x d m z
  | .vfxaddFix64 x d a b m z => [vPort (x == 1) a.toNat, vPort (x == 1) b.toNat, .k m.toNat] ++ merged x d m z
  | .vdot16Bf16 x d a b m _ => [vPort (x == 1) d.toNat, vPort (x == 1) a.toNat, vPort (x == 1) b.toNat, .k m.toNat]
  | .vdot16F16 x d a b m _ => [vPort (x == 1) d.toNat, vPort (x == 1) a.toNat, vPort (x == 1) b.toNat, .k m.toNat]
  | .vdot16E4m3 x d a b m _ => [vPort (x == 1) d.toNat, vPort (x == 1) a.toNat, vPort (x == 1) b.toNat, .k m.toNat]
  | .vdot16E5m2 x d a b m _ => [vPort (x == 1) d.toNat, vPort (x == 1) a.toNat, vPort (x == 1) b.toNat, .k m.toNat]
  | .vdot16I8 x d a b m _ => [vPort (x == 1) d.toNat, vPort (x == 1) a.toNat, vPort (x == 1) b.toNat, .k m.toNat]
  | .vdot16Log6 x d a b m _ => [vPort (x == 1) d.toNat, vPort (x == 1) a.toNat, vPort (x == 1) b.toNat, .k m.toNat]
  | .vdot16E2m1 x d a b m _ => [vPort (x == 1) d.toNat, vPort (x == 1) a.toNat, vPort (x == 1) b.toNat, .k m.toNat]
  | .vcmpEqInt x _ k a b m z => [vPort (x == 1) a.toNat, vPort (x == 1) b.toNat, .k m.toNat] ++ mergedMask k m z
  | .vcmpLtInt x _ k a b m z => [vPort (x == 1) a.toNat, vPort (x == 1) b.toNat, .k m.toNat] ++ mergedMask k m z
  | .vcmpLtuInt x _ k a b m z => [vPort (x == 1) a.toNat, vPort (x == 1) b.toNat, .k m.toNat] ++ mergedMask k m z
  | .vcmpLeInt x _ k a b m z => [vPort (x == 1) a.toNat, vPort (x == 1) b.toNat, .k m.toNat] ++ mergedMask k m z
  | .vcvt x _ d a _ m z => [vPort (x == 1) a.toNat, .k m.toNat] ++ merged x d m z
  | .vmxq x _ a b _ => [vPort (x == 1) a.toNat, vPort (x == 1) (a.toNat + 1), vPort (x == 1) b.toNat]
  | .vmxd x _ a b _ => [vPort (x == 1) a.toNat, vPort (x == 1) b.toNat]
  | .vrcpeF32 x d a m z => [vPort (x == 1) a.toNat, .k m.toNat] ++ merged x d m z
  | .vrsqeF32 x d a m z => [vPort (x == 1) a.toNat, .k m.toNat] ++ merged x d m z
  | .vfexpF32 x d a m z => [vPort (x == 1) a.toNat, .k m.toNat] ++ merged x d m z
  | .vscalebF32 x d a b m z => [vPort (x == 1) a.toNat, vPort (x == 1) b.toNat, .k m.toNat] ++ merged x d m z
  | .vgetexpF32 x d a m z => [vPort (x == 1) a.toNat, .k m.toNat] ++ merged x d m z
  | .vrndiF32 x d a m z => [vPort (x == 1) a.toNat, .k m.toNat] ++ merged x d m z
  | .vrndiIF32 x d a m z => [vPort (x == 1) a.toNat, .k m.toNat] ++ merged x d m z
  | .vclassF32 x d a m z => [vPort (x == 1) a.toNat, .k m.toNat] ++ merged x d m z
  | .vrcpeF64 x d a m z => [vPort (x == 1) a.toNat, .k m.toNat] ++ merged x d m z
  | .vrsqeF64 x d a m z => [vPort (x == 1) a.toNat, .k m.toNat] ++ merged x d m z
  | .vfexpF64 x d a m z => [vPort (x == 1) a.toNat, .k m.toNat] ++ merged x d m z
  | .vscalebF64 x d a b m z => [vPort (x == 1) a.toNat, vPort (x == 1) b.toNat, .k m.toNat] ++ merged x d m z
  | .vgetexpF64 x d a m z => [vPort (x == 1) a.toNat, .k m.toNat] ++ merged x d m z
  | .vrndiF64 x d a m z => [vPort (x == 1) a.toNat, .k m.toNat] ++ merged x d m z
  | .vrndiIF64 x d a m z => [vPort (x == 1) a.toNat, .k m.toNat] ++ merged x d m z
  | .vclassF64 x d a m z => [vPort (x == 1) a.toNat, .k m.toNat] ++ merged x d m z
  | .vsel x _ a b k => [vPort (x == 1) a.toNat, vPort (x == 1) b.toNat, .k k.toNat]
  | .vmov x d a m z => [vPort (x == 1) a.toNat, .k m.toNat] ++ merged x d m z
  | .vxmov x d a m z => [vPort (x != 1) a.toNat, .k m.toNat] ++ merged x d m z
  | .vbcast x d j _ m z => [c.sPort j.toNat, .k m.toNat] ++ merged x d m z
  | .vext x _ a _ _ _ _ => [vPort (x == 1) a.toNat]
  | .vins x d j _ _ _ => [vPort (x == 1) d.toNat, c.sPort j.toNat]
  | .vperm x d a b m z => [vPort (x == 1) a.toNat, vPort (x == 1) b.toNat, .k m.toNat] ++ merged x d m z
  | .vshuf x d a b m _ => [vPort (x == 1) d.toNat, vPort (x == 1) a.toNat, vPort (x == 1) b.toNat, .k m.toNat]
  | .vredAddF32 x _ a b m => [vPort (x == 1) a.toNat, vPort (x == 1) b.toNat, .k m.toNat]
  | .vredAddF64 x _ a b m => [vPort (x == 1) a.toNat, vPort (x == 1) b.toNat, .k m.toNat]
  | .vredMinF32 x _ a b m => [vPort (x == 1) a.toNat, vPort (x == 1) b.toNat, .k m.toNat]
  | .vredMaxF32 x _ a b m => [vPort (x == 1) a.toNat, vPort (x == 1) b.toNat, .k m.toNat]
  | .vredAddI32 x _ a b m => [vPort (x == 1) a.toNat, vPort (x == 1) b.toNat, .k m.toNat]
  | .vredAddI64 x _ a b m => [vPort (x == 1) a.toNat, vPort (x == 1) b.toNat, .k m.toNat]
  | .vredMinI32 x _ a b m => [vPort (x == 1) a.toNat, vPort (x == 1) b.toNat, .k m.toNat]
  | .vredMaxI32 x _ a b m => [vPort (x == 1) a.toNat, vPort (x == 1) b.toNat, .k m.toNat]
  | .kand _ _ a b => [.k a.toNat, .k b.toNat]
  | .kor _ _ a b => [.k a.toNat, .k b.toNat]
  | .kxor _ _ a b => [.k a.toNat, .k b.toNat]
  | .knot _ _ a => [.k a.toNat]
  | .kmov _ _ a => [.k a.toNat]
  | .kmovFromS _ _ a => [c.sPort a.toNat]
  | .kmovToS _ _ a => [.k a.toNat]
  | .kpop _ _ a => [.k a.toNat]
  | .kuni _ _ a _ => [.k a.toNat]
  | .tmma _ _ a b _ => c.pairPorts a ++ c.pairPorts b
  | .tmmaLatch _ _ _ b _ => c.pairPorts b
  | .tlatch _ _ a => c.pairPorts a
  | .tgo _ _ a b p => c.pairPorts a ++ c.pairPorts b ++ c.pairPorts p
  | .tdrain _ a => c.pairPorts a
  | .trow a => [c.sPort a.toNat]
  | .ldB _ a _ _ => [c.sPort a.toNat]
  | .ldBu _ a _ _ => [c.sPort a.toNat]
  | .ldH _ a _ _ => [c.sPort a.toNat]
  | .ldHu _ a _ _ => [c.sPort a.toNat]
  | .ldW _ a _ _ => [c.sPort a.toNat]
  | .ldWu _ a _ _ => [c.sPort a.toNat]
  | .ldD _ a _ _ => [c.sPort a.toNat]
  | .stB d a _ => [c.sPort d.toNat, c.sPort a.toNat]
  | .stH d a _ => [c.sPort d.toNat, c.sPort a.toNat]
  | .stW d a _ => [c.sPort d.toNat, c.sPort a.toNat]
  | .stD d a _ => [c.sPort d.toNat, c.sPort a.toNat]
  | .vld _ _ a _ _ => [c.sPort a.toNat]
  | .vst y d a _ => [c.sPort a.toNat, vPort (y == 1) d.toNat]
  | .vgather x d b a m _ => [c.sPort a.toNat, vPort (x == 1) b.toNat, .k m.toNat] ++ merged x d m 0
  | .vscatter x d b a m => [c.sPort a.toNat, vPort (x == 1) b.toNat, vPort (x == 1) d.toNat, .k m.toNat]
  | .kldW _ a _ _ => [c.sPort a.toNat]
  | .kldWu _ a _ _ => [c.sPort a.toNat]
  | .kldD _ a _ _ => [c.sPort a.toNat]
  | .kstW d a _ => [c.sPort d.toNat, c.sPort a.toNat]
  | .kstD d a _ => [c.sPort d.toNat, c.sPort a.toNat]
  | .kvld _ _ a _ _ => [c.sPort a.toNat]
  | .kvst y d a _ => [c.sPort a.toNat, vPort (y == 1) d.toNat]
  | .klook _ a _ => [c.sPort a.toNat]
  | .ktag d a b => [c.sPort d.toNat, c.sPort a.toNat, c.sPort b.toNat]
  | .kuntag d a b => [c.sPort d.toNat, c.sPort a.toNat, c.sPort b.toNat]
  | .qput d a b => [c.sPort d.toNat, c.sPort a.toNat, c.sPort b.toNat]
  | .qget _ a _ => [c.sPort a.toNat]
  | .qstat _ a _ => [c.sPort a.toNat]
  | .qcfgRel a b => [c.sPort a.toNat, c.sPort b.toNat]
  | .qcfgOpen a b => [c.sPort a.toNat, c.sPort b.toNat]
  | .qcfgClose a => [c.sPort a.toNat]
  | .xfer _ a _ => [c.sPort a.toNat]
  | .xwait _ a _ => [c.sPort a.toNat]
  | .xstat _ a _ => [c.sPort a.toNat]
  | .xcancel a => [c.sPort a.toNat]
  | .binit a b => [c.sPort a.toNat, c.sPort b.toNat]
  | .barrive a => [c.sPort a.toNat]
  | .bwait _ a b => [c.sPort a.toNat, c.sPort b.toNat]
  | .bexpect a b => [c.sPort a.toNat, c.sPort b.toNat]
  | .binv a => [c.sPort a.toNat]
  | .aadd _ a b _ => [c.sPort a.toNat, c.sPort b.toNat]
  | .acas _ a b _ => [c.sPort a.toNat, c.sPort b.toNat, c.sPort (b.toNat + 1)]
  | .amin _ a b _ => [c.sPort a.toNat, c.sPort b.toNat]
  | .amax _ a b _ => [c.sPort a.toNat, c.sPort b.toNat]
  | .aor _ a b _ => [c.sPort a.toNat, c.sPort b.toNat]
  | .afix _ a b _ => [c.sPort a.toNat, c.sPort b.toNat]
  | .aread _ a _ => [c.sPort a.toNat]
  | .mtagf _ a _ => [c.sPort a.toNat]
  | .meet d a b x _ => [c.sPort a.toNat, c.sPort b.toNat, vPort (x == 1) d.toNat]
  | .meetT d a b _ => [c.sPort d.toNat, c.sPort a.toNat, c.sPort b.toNat]
  | .mstat _ a _ => [c.sPort a.toNat]
  | .rlook _ a b _ => [c.sPort a.toNat, c.sPort b.toNat]
  | .rsplit _ a b _ => [c.sPort a.toNat, c.sPort b.toNat]
  | .rmerge _ a b _ => [c.sPort a.toNat, c.sPort b.toNat]
  | .rinv a => [c.sPort a.toNat]
  | .rresSet d a b => [c.sPort d.toNat, c.sPort a.toNat, c.sPort b.toNat]
  | .rresGrow d a b => [c.sPort d.toNat, c.sPort a.toNat, c.sPort b.toNat]
  | .rprotAll a b => [c.sPort a.toNat, c.sPort b.toNat]
  | .rprotPerm a b => [c.sPort a.toNat, c.sPort b.toNat]
  | .rprotKey a b => [c.sPort a.toNat, c.sPort b.toNat]
  | .rmove a b => [c.sPort a.toNat, c.sPort b.toNat]
  | .fput a => [c.sPort a.toNat]
  | .fget a => [c.sPort a.toNat]
  | .fbar d a b => [c.sPort d.toNat, c.sPort a.toNat, c.sPort b.toNat]
  | .fstat _ a _ => [c.sPort a.toNat]
  | .cpost a => [c.sPort a.toNat]
  | _ => []

/-- The first register with an uncorrectable error that a word reads (R269). -/
def State.badRead (s : State) (ports : List Port) : Option Nat :=
  (ports.map Port.number).find? fun n => s.here.badRegs.contains n

/-- The bundle that would read the register takes a precise machine check; for registers beyond those that R269 numbers TVAL
is left open. [DEDUCED, log 25: unsafe] -/
def State.registerCheck (s : State) (n : Nat) : State :=
  s.fault 1 (if n < 144 then BitVec.ofNat 64 (0x30000000000 + n) else (Config.freeWord s.fresh n 9700).setWidth 64) 1

end Sys2Proof.Machine
end

