-- ==== Sys2Proof/Machine/Bundle.lean ====
section
/-! DEFINITION. Issuing a bundle (R41, R43, R59, R62, R173, R260): its words read the state before the bundle, their
effects are taken in pipe order, and a precise fault of any word keeps all of them from executing. -/

namespace Sys2Proof.Machine

noncomputable section

/-- The state in which one word of a bundle stands. -/
def State.atItem (s : State) (i : Item) : State :=
  s.onHere fun c => { c with iss := { c.iss with word := i.off, raw := i.raw, slot := i.slot, ext := none } }

/-- One word of a bundle executes; the LIMM after it supplies its bits first (R44). -/
def State.runItem (s : State) (i : Item) : Host.Outcome State Fault Refusal :=
  let s := s.atItem i
  match i.instr with
  | none => .next s.illegal
  | some w =>
    match i.ext with
    | none => exec w s
    | some e =>
      match exec (.limm e) s with
      | .next t => exec w t
      | o => o

/-- The words one after the other, each on the state that the ones before it left. -/
def State.runItems (s : State) : List Item → Host.Outcome State Fault Refusal
  | [] => .next s
  | i :: is =>
    match s.runItem i with
    | .next t => State.runItems t is
    | o => o

/-- How a bundle ends when each of its words is tried by itself on the state before it. -/
inductive Verdict where
  /-- Every word may execute. -/
  | issues
  /-- The bundle waits. -/
  | waits (s : State)
  /-- The bundle waits and the clock domain freezes. -/
  | freezes (s : State)
  /-- A precise fault of this code, taken. -/
  | traps (code : Nat) (s : State)
  /-- The step stops. -/
  | stops (o : Host.Outcome State Fault Refusal)

/-- A trap that decoding alone decides, or one before it in priority (R43, R58, R259). -/
def Verdict.decoding : Verdict → Bool
  | .traps n _ => decide (n ≤ 5)
  | _ => false

/-- The trap of the higher priority, the first word's among equals (R259). -/
def Verdict.prior (a b : Verdict) : Verdict :=
  match a, b with
  | .traps m s, .traps n t => if n < m then .traps n t else .traps m s
  | .traps m s, _ => .traps m s
  | _, v => v

/-- The stronger of two verdicts, the first word's among equals: a stop, a trap of the decoding, a wait, a freeze, then any
other trap, those of higher priority first (R43, R58, R259). [DEDUCED, log 12: unsafe] -/
def Verdict.stronger (a b : Verdict) : Verdict :=
  match a, b with
  | .stops o, _ => .stops o
  | _, .stops o => .stops o
  | a, b =>
  if a.decoding || b.decoding then a.prior b
  else match a, b with
  | .waits s, _ => .waits s
  | _, .waits s => .waits s
  | .freezes s, _ => .freezes s
  | _, .freezes s => .freezes s
  | a, b => a.prior b

/-- The first register with an uncorrectable error that a word of a bundle reads (R269). -/
def State.itemReads (s : State) (i : Item) : Option Nat := s.badRead ((i.instr.map (wordReads (s.atItem i))).getD [])

/-- The verdict of one word: a machine check where it reads a register with an uncorrectable error (R269), otherwise that of
its execution. [DEDUCED, log 12: unsafe] -/
def State.tryItem (s : State) (i : Item) : Verdict :=
  match s.itemReads i with
  | some n => .traps 1 ((s.atItem i).registerCheck n)
  | none =>
    match s.runItem i with
    | .next t =>
      match t.here.iss.mark with
      | .done => .issues
      | .stalled => .waits t
      | .frozen => .freezes t
      | .trapped n => .traps n t
    | o => .stops o

/-- The bundle that ends a loop body reads the loop's counter (R172), and takes the machine check that its error gives. -/
def State.tryCounter (s : State) (ends : Bool) : Verdict :=
  match (if ends then s.badRead [.creg false (0x00C + bitAt s.here.loop.sel 0)] else none) with
  | some n => .traps 1 (s.registerCheck n)
  | none => .issues

/-- The verdict of a bundle: of its words, and of a pipe that it names twice (R43). [DEDUCED, log 12: unsafe] -/
def State.tryItems (s : State) (is : List Item) : Verdict :=
  let v := is.foldl (fun v i => v.stronger (s.tryItem i)) .issues
  match conflictAt is [] with
  | none => v
  | some off => v.stronger (.traps 5 (s.fault 5 (BitVec.ofNat 64 off) 0))

/-- After the words of a bundle: sequence numbers and stochastic values are taken (R20, R145), and control goes on (R70,
R71, R178). `handler` and `mode` say in which context and mode it issued. A drain waits for the windows of its own bundle's
words as well. [DESIGN CHOICE, log 116: unsafe] -/
def Core.finish (c : Core) (handler mode : Bool) (slots : Nat) : Core :=
  let x := if handler then c.hand else c.main
  let y := { x with
    osn := x.osn + BitVec.ofNat 64 slots
    src := x.src + BitVec.ofNat 64 c.iss.srUsed
    pc := c.iss.npc, origin := c.iss.origin, from_ := c.iss.start }
  let c := if handler then { c with hand := y } else { c with main := y }
  let at_ := c.cycle + c.iss.lat
  { c with walkMiss := [], issueAt := if c.iss.drain || mode then max at_ c.lastDue else at_ }

/-- The loop buffer after a bundle of its body (R171, R172): the first pass captures the body, and the last bundle loops
back unless a branch was taken. -/
def State.afterBody (s : State) (words : List (Nat × W32)) : Host.Outcome State Fault Refusal :=
  let c := s.here
  let l := c.loop
  if !l.active then .next s
  else
    let body := if l.pos = l.body.length then l.body ++ [(c.iss.start, words.map (·.2))] else l.body
    if l.pos + 1 = l.count then
      exec (.loopBack s.cur) (s.onHere fun c => { c with loop := { l with body := body } })
    else .next (s.onHere fun c => { c with loop := { l with body := body, pos := l.pos + 1, next := c.iss.npc } })

/-- The words of the next bundle: from the loop buffer on a later pass (R171), otherwise fetched. After a RETT to another
EPC than the saved one the loop stays active, and its body goes on once the next bundle is the one that it expects (R173).
[DESIGN CHOICE, log 117: unsafe] -/
def State.nextWords (s : State) (c : Core) : Except FetchFault (List (Nat × W32)) :=
  let l := c.loop
  if !c.handlerMode && l.active && c.main.pc == l.next && decide (l.pos < l.body.length) then
    let b := l.body.getD l.pos (0, [])
    .ok ((List.range b.2.length).zipWith (fun i w => (b.1 + i, w)) b.2)
  else s.fetchBundle c

/-- The next bundle needs a walk of the code range first (R244). -/
def State.needsCode (s : State) (c : Core) : Bool :=
  let l := c.loop
  !(!c.handlerMode && l.active && c.main.pc == l.next && decide (l.pos < l.body.length)) && !s.codeValid c

/-- A bundle that waits is tried again a cycle later. -/
def State.again (s : State) : State := s.onHere fun c => { c with issueAt := c.cycle + 1 }

/-- The clock domain freezes for a full threshold buffer (R67, R124, R131). [DEDUCED, log 21: unsafe] -/
def State.frozenFull (s : State) : State :=
  s.onHere fun c =>
    let n := BitVec.ofNat 64 (Config.periods s.fresh)
    { c with full := true, frozen := c.frozen + n, frzfull := c.frzfull + n }

/-- The bundle in hand starts at a word offset and spans some words. -/
def State.takeUp (s : State) (words : List (Nat × W32)) : State :=
  s.onHere fun c =>
    let start := c.ctx.pc
    { c with iss := { Issue.reset with
        start := start, last := start + (words.length - 1), word := start, npc := start + words.length } }

/-- The words of a bundle are known: they execute, or the bundle waits or traps. -/
def State.issueWords (s : State) (words : List (Nat × W32)) : Host.Outcome State Fault Refusal :=
  let s := s.takeUp words
  let c := s.here
  let is := if c.handlerMode then handlerItems words else itemsOf words 0
  let inBody := !c.handlerMode && c.loop.active && c.main.pc == c.loop.next
  match (s.tryItems is).stronger (s.tryCounter (inBody && decide (c.loop.pos + 1 = c.loop.count))) with
  | .stops o => o
  | .waits t => .next t.again
  | .freezes _ => .next s.frozenFull
  | .traps _ t => .next t
  | .issues =>
    match s.runItems (inPipeOrder is) with
    | .next t =>
      match t.here.iss.mark with
      | .done =>
        match (if inBody then t.afterBody words else .next t) with
        | .next u => .next (u.onHere fun d => d.finish c.inHandler c.handlerMode is.length)
        | o => o
      | .frozen => .next s.frozenFull
      | _ => .next s.again
    | o => o

/-- A FENCE.L of the context still waits for accesses before it (R170): a load's request, or a store, for which any cycle up to
the last one at which its bank may grant it can pass. [DEDUCED, log 23: unsafe] -/
def State.fenceHolds (s : State) : Bool :=
  let c := s.here
  match c.fence with
  | none => false
  | some (t, h) =>
    let stores := (sharers s.cur true).flatMap fun k => (s.core k).oldLines.filter fun o => o.fenced.contains (s.cur, h)
    h == c.inHandler &&
      ((c.landings.any fun l => l.handler == h && decide (l.t0 < t) && !l.wants.isEmpty) ||
        (!stores.isEmpty && decide (c.issueAt < t + 18 + stores.length) && Config.choice s.fresh 64200 % 2 == 1))

/-- A FENCE.L of the context has passed: no agent reads a line without the stores before it (R170). -/
def State.passFence (s : State) : State :=
  match s.here.fence with
  | none => s
  | some (_, h) =>
    if h != s.here.inHandler then s
    else
      ((sharers s.cur true).foldl (fun s k => s.onCore k fun c =>
        { c with oldLines := c.oldLines.filter fun o => !o.fenced.contains (s.cur, h) }) s).onHere fun c => { c with fence := none }

/-- The next bundle of a core issues at its cycle (R59, R68): what is due lands first. A trap that a landing requests is
taken before the bundle (R260), and a FENCE.L holds it until the accesses before have been granted (R170). A fetch that fails
raises the fetch fault (R268). -/
def State.issue (s : State) : Host.Outcome State Fault Refusal :=
  let s := (s.onHere fun c => c.advance s.time s.fresh (max c.cycle c.issueAt)).serveQueues s.cur
  let c := s.here
  if c.stuck || !c.candidates.isEmpty then .next s
  else if s.fenceHolds then .next s.again
  else
  let s := s.passFence
  let c := s.here
  if s.needsCode c then .next (s.takeUp []).askCode.again
  else
    match s.nextWords c with
    | .ok words => (s.noteFetch c words).issueWords words
    | .error e =>
      let x := c.ctx
      let s := s.onHere fun c => { c with iss := { Issue.reset with start := x.pc, word := x.pc } }
      .next (s.faultAt 3 (BitVec.ofNat 64 e.tval) e.xcode x.pc (x.fetchBundle e.xcode))

end

end Sys2Proof.Machine
end

