-- ==== Sys2Proof/Machine/Turn.lean ====
section
/-! DEFINITION. What can happen next: the events that wait in the agenda, in the order that their arbiters keep (R7), what
each unit can do by itself, and the bundles that can issue. Where several things can happen, no rule orders them, and the
step takes any one. -/

namespace Sys2Proof.Machine

/-- Something that can happen next. -/
inductive Turn where
  /-- The event at a place of the agenda. -/
  | waiting (place : Nat)
  /-- An event of a unit of the package. -/
  | own (i : Instr)
  /-- A scratchpad bank grants the oldest line request of a core (R127, R296). -/
  | grant (core bank : Nat)
  /-- The clock domain of a core freezes for operand lines of its array that have not been granted (R224). -/
  | arrayLate (core : Nat)
  /-- A command that has waited for the end of a commit takes its effect (R398). -/
  | held
  /-- A copy engine reads a line for the chunk of a transfer that it runs (R326). -/
  | engineRead (cluster xfer engine : Nat)
  /-- A copy engine writes a line of the block in hand. -/
  | engineWrite (cluster xfer engine : Nat)
  /-- The array of a core reads or writes one line of the operation in hand (R225). -/
  | line (core : Nat)
  /-- A part of a matrix operation of a core ends (R224). -/
  | arrayEnd (core : Nat)
  /-- Packets that an update of their range held back are applied (R248). -/
  | packets
  /-- The death notice leaves (R425). -/
  | notice
  /-- A collective opens the round of its join (R445). -/
  | join
  /-- A remote operation reads or sends on (R429). -/
  | send (op : Nat)
  /-- The close of a tag number reaches the hub arbiter (R375). -/
  | tagClose (tnum : Nat)
  /-- The command processor creates the next record of a launch (R394). -/
  | root
  /-- An operation under way takes its next step: a group instruction or an MTAGA at the hub arbiter, the open of a tag at its
  node, a bank's grant of a payload line, the next write of a meet's result (R78, R310, R370, R374, R376). -/
  | goesOn (op : Nat)
  /-- The next bundle of a core issues. -/
  | bundle (core : Nat)
  deriving DecidableEq, Repr

/-! Order at the arbiters. -/

/-- No operation with a lower number is of the same kind as this one. -/
def State.isFirst (s : State) (op : Nat) (same : Pending → Bool) : Bool :=
  s.ops.all fun p => !(same p && decide (p.id < op))

/-- Two issuers are one context of one core. -/
def Issuer.sameContext (a b : Issuer) : Bool := a.core == b.core && a.handler == b.handler

/-- A synchronisation operation on an object of a die. -/
def Op.onDie (die : Nat) : Op → Bool
  | .sync d _ _ _ => d == die
  | _ => false

/-- The node that an operation goes to. -/
def Op.node : Op → Option Nat
  | .meet o _ => some (homeNode (tagNumber o.tag))
  | .tagFree tag => some (homeNode (tagNumber tag))
  | .tagStat tag => some (homeNode (tagNumber tag))
  | _ => none

/-- The lines of an operand have been read. -/
def Op.hasLines : Op → Bool
  | .meet _ rest => rest.isNone
  | _ => true

/-- An operation on the tag table of a cluster. -/
def Op.onTags : Op → Bool
  | .look _ _ => true
  | .ktag _ _ _ _ => true
  | .kuntag _ _ _ _ => true
  | _ => false

/-- A post to a die. -/
def Op.postTo (die : Nat) : Op → Bool
  | .post _ d _ _ _ => d == die
  | _ => false

/-- A QPUT to a queue. -/
def Op.putTo (core q : Nat) : Op → Bool
  | .put c n _ _ _ _ => c == core && n == q
  | _ => false

/-- A range instruction that waits for its first step. -/
def Op.asksRange : Op → Bool
  | .rangeAsk _ _ _ => true
  | _ => false

/-- An FBAR. -/
def Op.isFbar : Op → Bool
  | .fbar _ _ _ => true
  | _ => false

/-- A CPOST. -/
def Op.isPost : Op → Bool
  | .cpost _ _ => true
  | _ => false

/-- A group instruction. -/
def Op.isGroup : Op → Bool
  | .group _ _ => true
  | _ => false

/-- Numbers of the engines that are no cores (R400). -/
def lintelEngine (node : Nat) : Nat := 1920 + node
/-- A synchronisation engine. -/
def syncEngine (die : Nat) : Nat := 2080 + die
/-- The LXU. -/
def lxuEngine : Nat := 2088
/-- The fabric router. -/
def routerEngine : Nat := 2089

/-- The synchronisation engine of a die runs: neither a machine check, a failed boot test nor a pre-emption has stopped it (R360,
R400, R416). -/
def State.syncRuns (s : State) (die : Nat) : Bool := !s.stopped (syncEngine die) && !(s.die die).stopped

/-- An event that waits has its turn at its arbiter: what one source sent it before has been taken (R84, R249, R300, R306,
R343, R364), and a pre-emption has not stopped its engine (R400). -/
def State.inTurn (s : State) (i : Instr) : Bool :=
  match i with
  | .postPlacement _ op =>
    (match s.findOp op with
     | some ⟨_, b, .post _ die _ _ _⟩ => s.isFirst op fun p => p.by_.core == b.core && p.op.postTo die
     | _ => true)
  | .tagArbiterApply _ op =>
    (match s.findOp op with
     | some p => s.isFirst op fun q => q.by_.core == p.by_.core && q.op.onTags
     | none => true)
  | .messageArrival _ op =>
    (match s.findOp op with
     | some ⟨_, b, .put core q _ _ _ payload⟩ =>
       payload.isSome && s.isFirst op fun p => p.by_.core == b.core && p.op.putTo core q
     | _ => true)
  | .lateDataArrival core n _ => (s.core core).allowsFreeze n
  | .sendHoldExpiry core op => (s.core core).sendHold.all fun h => h.1 != op || decide (h.2 ≤ s.time)
  | .rangeUpdate _ op =>
    (match s.findOp op with
     | some ⟨_, b, .rangeAsk _ _ _⟩ => s.isFirst op fun p => p.by_.core == b.core && p.op.asksRange
     | _ => true)
  | .syncOperation _ op =>
    (match s.findOp op with
     | some ⟨_, b, .sync die _ _ _⟩ =>
       s.syncRuns die && s.isFirst op fun p => p.by_.sameContext b && p.op.onDie die
     | some ⟨_, _, .fabricArrive die _ _⟩ =>
       s.syncRuns die && s.isFirst op fun p =>
         match p.op with | .fabricArrive d _ _ => d == die | _ => false
     | _ => true)
  | .barrierDecrement op =>
    (match s.findOp op with
     | some ⟨_, b, .decrement die _ _ source _⟩ =>
       s.syncRuns die && s.isFirst source fun p => p.by_.sameContext b && p.op.onDie die
     | _ => true)
  | .objectFetch die _ => s.syncRuns die
  | .meetArrival op =>
    (match s.findOp op with
     | some p => !(p.op.node.any fun n => s.stopped (lintelEngine n) || !s.nodeSettled n) && p.op.hasLines &&
       s.isFirst op fun q => q.by_.sameContext p.by_ && q.op.node.isSome && q.op.node == p.op.node
     | none => true)
  | .getResponseArrival op _ => s.writesLocal op
  | .fabricCompletion op _ _ => s.writesLocal op
  | .collectiveJoin _ _ => !s.stopped lxuEngine
  | .collectiveChunk _ => !s.stopped lxuEngine
  | _ => true

/-- An event that the host sends: they arrive in the order in which it sends them (R389). -/
def fromHost (i : Instr) : Bool :=
  match i with
  | .doorbell _ => true
  | .preempt => true
  | .resume => true
  | .cancel => true
  | .continueCmd => true
  | .freeze => true
  | .unfreeze => true
  | .hcmdInvalid _ => true
  | .hstatRead => true
  | .eyectlWrite _ _ => true
  | .hostRegisterWrite _ _ => true
  | .windowRead _ _ => true
  | .windowWrite _ _ => true
  | .attestationRequest _ => true
  | _ => false

/-- The places of the agenda whose events may be taken. [DESIGN CHOICE, log 3: safe] -/
def State.waitingTurns (s : State) : List Turn :=
  let host := s.agenda.findIdx? fromHost
  ((List.range s.agenda.length).filter fun n =>
    match s.agenda[n]? with
    | some i => s.inTurn i && (!fromHost i || host == some n)
    | none => false).map .waiting

/-! Cores. -/

/-- The core issues bundles: of a handler run, of a strand, or of trap-handler code that a suspension waits for (R86, R120). -/
def Core.issues (c : Core) : Bool :=
  c.inHandler || (match c.act with
    | .running => true
    | .leaving _ => c.main.hmode
    | _ => false)

/-- What the sequencer does next, and its cycle: a part in hand ends, or an operation goes on; a core that serves a
pre-emption stands at its interruption point (R224, R226, R272). -/
def State.sequencerTurn (s : State) (core : Nat) (c : Core) : Option (Nat × Turn) :=
  if c.mat.ending then some (c.mat.lastEnd + 1, .arrayEnd core)
  else if c.saveStart.isSome && c.mat.atPoint s.wholePass c.cycle then none
  else (c.mat.nextEvent core).map fun e => (e.1, .own e.2)

/-- The next event of the core's array, up to the cycle at which the next bundle issues where one can issue. -/
def State.matrixTurn (s : State) (core : Nat) (c : Core) : Option Turn :=
  let next := s.sequencerTurn core c
  let flags := (Matrix.firstFlags c.mat.results).map fun f => (f.due, Turn.own (.stepResultsComplete core))
  let first : Option (Nat × Turn) := match flags, next with
    | some f, some n => if n.1 < f.1 then some n else some f
    | some f, none => some f
    | none, n => n
  match first with
  | some (t, i) =>
    let frozen := c.frozenFrom.any fun d => decide (d ≤ t)
    let now := !c.issues || c.saveStart.isSome || decide (t ≤ c.issueAt) ||
      (!c.candidates.isEmpty && decide (t ≤ c.entryCycle))
    -- a part ends once its lines have been granted, and until then the clock domain may freeze for them
    if frozen || !now then none else if i == .arrayEnd core && c.mat.moves then some (.arrayLate core) else some i
  | none => none

/-- The strand of the core can leave: the array is at rest where it must be; a PIN does not wait for it (R25, R26). -/
def Core.canLeave (c : Core) : Bool :=
  match c.act with
  | .leaving (.pinM) => true
  | .leaving (.pinQ _) => true
  | .leaving (.pinB _ _) => true
  | .leaving (.pinT _) => true
  | .leaving _ => c.mat.drained || !c.landings.isEmpty
  | _ => false

/-- The strand of a core that has no handler run can go on: a wake-up, or a start of the message handler (R87, R120). -/
def State.pinnedTurns (s : State) (core : Nat) (c : Core) : List Turn :=
  let alone := match s.hub.launch with
    | some l => !l.serial || !(s.cores.any fun c => c.2.holds)
    | none => true
  (if s.wakes core && !s.hub.hold && alone then [.own (.pinWake core)] else []) ++
    (if c.canSave then [.own (.preemptionService core)] else []) ++
    (if c.canStart then [.own (.messageHandlerStart core)] else [])

/-- An idle core: the message handler, a pre-emption, a search for work (R31, R93, R272). -/
def State.idleTurns (s : State) (core : Nat) (c : Core) (serial : Option Nat) : List Turn :=
  (if c.canSave then [.own (.preemptionService core)] else []) ++
  (if c.canStart then [.own (.messageHandlerStart core)] else []) ++
  (if !s.picksUp || serial.any (· != core) then []
    else if c.cycle < c.idleUntil then [.own (.idleRetry core)]
    else [.own (.pickup core)])

/-- A core that runs: traps come before everything else, but for a pre-emption whose code is not behind theirs; then a
pre-emption, a handler start, results that are due, and the next bundle (R120, R259, R260, R272). -/
def Core.runningTurns (c : Core) (core : Nat) : List Turn :=
  let asking := match c.act with | .asking _ => !c.inHandler | _ => false
  if c.saveStart.isSome && !c.urgent then (if c.canSave then [.own (.preemptionService core)] else [])
  else if !c.candidates.isEmpty && !asking then
    .own (.trapEntry core) :: (if c.canSave && !c.urgent then [.own (.preemptionService core)] else [])
  else if c.canSave then [.own (.preemptionService core)]
  else if c.canStart then [.own (.messageHandlerStart core)]
  else if c.issues then
    match firstLanding c.landings with
    | some l => if l.timed && l.arrived && decide (l.due ≤ c.issueAt) then [.own (.timedLanding core)] else [.bundle core]
    | none => [.bundle core]
  else if c.canLeave then [.own (.suspension core)]
  else []

/-- What a core can do next. `serial` names the core that serial re-execution lets pick up. -/
def State.coreTurns (s : State) (serial : Option Nat) (core : Nat) : List Turn :=
  let c := s.core core
  let dog : List Turn := if s.wdDue core then [.own (.watchdogExpiry core)] else []
  let timer : List Turn := match c.saveStart with
    | some t => if t + 1000 * c.wdSave.toNat ≤ s.time then [.own (.saveTimerExpiry core)] else []
    | none => []
  let frozen := c.full || c.landings.any fun l => !l.arrived && decide (l.due ≤ c.cycle)
  let grant : List Turn := (c.grantable.map fun g => .grant core (bankOf g.2.cluster g.2.off)) ++
    (if c.mat.moves && !frozen then [.line core] else [])
  -- nothing moves the core past the period by which a request of its is granted (R128, R297)
  dog ++ timer ++ grant ++
    (if c.mustGrant then [] else match c.act with
     | .saved _ => if s.hub.pstate = 3 ∧ s.hub.resuming.contains core then [.own (.coreResume core)] else []
     | .halted => if c.canSave then [.own (.preemptionService core)] else []
     | a =>
       if c.stuck then
         (match c.lateResult with
          | some l => [.own (.lateDataArrival core (l.ready - (l.due + c.frozen.toNat)) true)]
          | none => [])
       else if c.full then
         (if c.landings.any fun l => l.timed && l.arrived then [.own (.timedLanding core)] else [])
       else
         let rest := if c.isPinned && !c.inHandler then s.pinnedTurns core c
           else if a = .idle && !c.inHandler then s.idleTurns core c serial
           else c.runningTurns core
         match s.matrixTurn core c with
         | some t =>
           if t == .arrayLate core then [t] else if !c.issues && (c.isPinned || c.suspending) then t :: rest else [t]
         | none => rest)

/-- The cores that may do something: those not in their reset state, and while pick-ups are possible every idle one, or in
serial re-execution the one whose turn it is (R114). -/
def State.allCoreTurns (s : State) : List Turn :=
  let listed := s.cores.map (·.1)
  if s.picksUp then
    match s.hub.launch with
    | some l =>
      if l.serial then
        match s.serialChoice with
        | some r =>
          let n := r.lidx.toNat % 640
          (if listed.contains n then listed else listed ++ [n]).flatMap (s.coreTurns (some n))
        | none => listed.flatMap (s.coreTurns (some 640))
      else (List.range 640).flatMap (s.coreTurns none)
    | none => listed.flatMap (s.coreTurns none)
  else listed.flatMap (s.coreTurns none)

/-! Clusters, dies, nodes. -/

/-- What the runs of a transfer can do: read, write, or finish a block (R326); not those whose engine a pre-emption has
stopped. -/
def State.runTurns (s : State) (k : Nat) (x : Xfer) : List Turn :=
  let rs := x.runs.filter (s.runGoesOn k)
  (rs.flatMap fun r =>
    (if s.canRead x r then [.engineRead k x.id r.engine] else []) ++
      (if x.writesMore r && !s.holdsDest x then [.engineWrite k x.id r.engine] else [])) ++
    (if (s.finishers k x).isEmpty then [] else [.own (.blockComplete k x.id)])

/-- The transfers of a cluster (R326 to R330); a pre-emption stops its engines at their stopping units.
[DESIGN CHOICE, log 55: unsafe] -/
def State.clusterTurns (s : State) (k : Nat) (c : Cluster) : List Turn :=
  let stops := (List.range 8).any fun e => s.stopped (copyEngine k e)
  c.xfers.flatMap fun x =>
    s.runTurns k x ++
    (if stops then []
     else
      (if c.admits x then [.own (.chunkAdmission k x.id)] else []) ++
      (if x.toVerify then [.own (.tileVerification k x.id)] else []) ++
      (if s.canEnd x then [.own (.transferComplete k x.id)] else []))

/-- Wait scans and orphan timers are suspended during a pre-emption (R358, R366, R400). -/
def State.timersRun (s : State) : Bool := s.hub.pstate == 0 || s.hub.pstate == 4

/-- The wait scan of a die, where it has something to report (R358). -/
def State.dieTurns (s : State) (d : Nat) : List Turn :=
  if s.timersRun && !(s.scanDie d).2.isEmpty then [.own (.waitScan d)] else []

/-- The orphan scan and the offers of a node (R366, R372). -/
def State.nodeTurns (s : State) (n : Nat) (x : Node) : List Turn :=
  if x.stopped || s.stopped (lintelEngine n) then []
  else
    (if s.timersRun && !(s.orphans n).isEmpty then [.own (.orphanScan n)] else []) ++
      (if x.offers.any fun m => decide (m.1 ≤ s.time) then [.own (.resultReoffer n)] else [])

/-! The hub and the fabric. -/

/-- The entry that the command processor takes next (R390). -/
def State.entryTurns (s : State) : List Turn :=
  match s.entryDue with
  | some 1 => [.own .launch]
  | some 2 => []
  | some 3 => [.own .jobStart]
  | some 4 => [.own .jobEnd]
  | some _ => [.own .unknownEntry]
  | none => []

/-- The next chunk of a collective needs nothing from other packages, or the survivors of a death agree first, or its entry ends
(R444, R446, R447). -/
def State.chunkAlone (s : State) (c : Coll) : Bool :=
  c.joined && (if !(s.newlyDead c).isEmpty || s.collDone c then (s.survivors c).isEmpty
    else ((c.steps.getD c.stepNo .copy).others (collExtents c.dws) (s.ownCoords c.dws) c.dead).isEmpty)

/-- Collective entries, joins that have taken too long, and chunks (R440, R444, R445). -/
def State.collTurns (s : State) : List Turn :=
  if s.stopped lxuEngine then []
  else
    (if s.collDue.isSome then [.own .collectiveEntry] else []) ++
    (match s.hub.coll with
     | none => []
     | some c =>
       (if !c.joined && c.opened && decide (c.since + joinLimit c.dws ≤ s.time) then
          ((s.participants c.dws).filter fun p => !c.peers.contains p.1 && !c.dead.contains p.2).map fun p =>
            .own (.joinTimeout p.1)
        else []) ++
       (if s.chunkAlone c then [.own (.collectiveChunk [])] else []))

/-- The controllers of the stacks (R407, R414): the patrol goes on where a block has an error that no write has mended, write-backs
are made 64 ns after their reads, and scheduled retraining slots come. [DEDUCED, log 101: unsafe] -/
def State.stackTurns (s : State) : List Turn :=
  let p := s.platform
  let struck := (List.range 16).filter fun k => (p.soft ++ p.hard).any fun b => b / 2 ^ 30 == k
  struck.map (fun k => .own (.patrolScrub k)) ++
    p.eyes.flatMap fun e =>
      (if (e.2.armed.head?.any fun a => decide (a.2.2 + 64 ≤ s.time)) then [.own (.scrubWriteback e.1)] else []) ++
        (if e.2.rtpend then [.own (.retrainingSlot e.1)] else [])

/-- Acknowledgements, time limits and reports of the engines other than cores (R400, R401). -/
def State.engineTurns (s : State) : List Turn :=
  let engines := (List.range (engineCount - 640)).map (640 + ·)
  if s.hub.pstate = 1 then
    (engines.filter s.mayStop).map (fun e => .own (.preemptAcknowledgement e)) ++
      (if s.hub.preStart + 10000000 ≤ s.time then
         (engines.filter fun e => !s.hub.acks.contains e).map fun e => .own (.preemptionTimeout e)
       else [])
  else if s.hub.pstate = 3 then
    (s.hub.resuming.filter (640 ≤ ·)).map fun e => .own (.engineResumeReport e)
  else []

/-- A lintel node runs: neither a machine check nor a pre-emption has stopped it (R379, R400). -/
def State.nodeRuns (s : State) (n : Nat) : Bool := !(s.node n).stopped && !s.stopped (lintelEngine n)

/-- An operation under way can take its next step: the hub arbiter takes the group instructions of one core in issue order
(R78), and so its FBARs and its CPOSTs, and a node that is stopped does nothing. -/
def State.canGoOn (s : State) (p : Pending) : Bool :=
  match p.op with
  | .group _ _ => s.isFirst p.id fun q => q.by_.core == p.by_.core && q.op.isGroup
  | .tagAsk => true
  | .tagOpen n _ => s.nodeRuns (homeNode n) && s.nodeSettled (homeNode n)
  | .put _ _ _ _ _ none => true
  | .meet _ (some _) => true
  | .meetWrite n l r _ bytes _ _ =>
    s.nodeRuns n && r.dest.bound?.all fun b => !s.writeHeld (meetWriter l r).by_ b bytes.length
  | .fbar _ _ _ => s.isFirst p.id fun q => q.by_.core == p.by_.core && q.op.isFbar
  | .cpost _ _ => s.isFirst p.id fun q => q.by_.core == p.by_.core && q.op.isPost
  | _ => false

/-- Operations under way that can take their next step. -/
def State.opTurns (s : State) : List Turn := (s.ops.filter s.canGoOn).map fun p => .goesOn p.id

/-- An operation under way takes its next step. -/
def State.goOn (s : State) (op : Nat) : State :=
  match s.findOp op with
  | some ⟨_, _, .group _ _⟩ => s.applyGroup op
  | some ⟨_, _, .tagAsk⟩ => s.allocateTag op
  | some ⟨_, _, .tagOpen _ _⟩ => s.openTag op
  | some ⟨_, _, .meetWrite _ _ _ _ _ _ _⟩ => s.writeResult op
  | some ⟨_, _, .fbar _ _ _⟩ => s.serveFbar op
  | some ⟨_, _, .cpost _ _⟩ => s.servePost op
  | _ => s.readPayload op

/-- What the hub can do next. -/
def State.hubTurns (s : State) : List Turn :=
  s.opTurns ++ s.hub.closing.map .tagClose ++ (if s.creates then [.root] else []) ++ s.entryTurns ++ s.collTurns ++
    (if s.commitDue then [.own .phaseCommit] else []) ++
    (if s.hub.moves.isEmpty || s.updates.any (·.move) then [] else [.own .compactionBlock]) ++
    s.engineTurns ++
    (if s.hub.waiting.isEmpty || s.commits then [] else [.held]) ++
    (if s.packetsDue then [.packets] else []) ++ ((s.fabric.entries.filter s.breaks).map fun e => .own (.roundBreak ⟨e.key, false⟩)) ++
    (if s.noticeDue then [.notice] else []) ++ (if s.joinDue && !s.stopped lxuEngine then [.join] else []) ++
    (if s.cutFromPod && !s.fabric.dead.contains s.hub.index then [.own (.packageDeath s.hub.index)] else []) ++
    (if s.stopped routerEngine then [] else s.senders.map .send)

/-- Everything that can happen next, banks apart; before anything else the package boots (R415).
[DESIGN CHOICE, log 3: safe] -/
def State.allTurns (s : State) : List Turn :=
  if !s.platform.booted && !s.platform.bootFailed then [.own .boot]
  else
    s.waitingTurns ++ s.allCoreTurns ++ s.clusters.flatMap (fun c => s.clusterTurns c.1 c.2) ++
      s.dies.flatMap (fun d => s.dieTurns d.1) ++ s.nodes.flatMap (fun n => s.nodeTurns n.1 n.2) ++
      s.stackTurns ++ s.hubTurns

/-! The banks (R127, R296). -/

/-- A line access that a bank can be asked for: the bank, its rank, the time of its request, its core, and whether it stands
at the bank already, where nothing of a lower rank goes first. -/
structure Ask where
  /-- Bank of the package. -/
  bank : Nat
  /-- Rank (R127, R296). -/
  rank : Nat
  /-- Time base of the request. -/
  since : Nat
  /-- Core. -/
  core : Nat
  /-- It waits at the bank. -/
  waits : Bool
  deriving DecidableEq, Repr

/-- A number for each bank of the package: those of the core scratchpads, then those of the cluster scratchpads. -/
def bankNumber (core : Nat) (cluster : Bool) (off : Nat) : Nat :=
  if cluster then 10240 + 16 * clusterOf core + (bankOf true off - 16) else 16 * core + bankOf false off

/-- A load's request: of rank 2 once it has waited 4 periods, or 8 at a cluster bank, and of rank 4 before; in a frozen core, whose
periods the model does not count one by one, of either. [DEDUCED, log 22: unsafe] -/
def State.loadAsk (s : State) (core : Nat) (w : Want) : Ask :=
  let c := s.core core
  let age := c.period - w.at_
  let old := decide ((if w.cluster then 8 else 4) ≤ age) || (c.stuck && Config.choice s.fresh (64300 + core) % 2 == 1)
  { bank := bankNumber core w.cluster w.off, rank := if old then 2 else 4, since := w.since, core := core
    waits := decide (w.at_ ≤ c.period) }

/-- The request of a copy engine: the beats of a burst under way come first of all, the first beat of one last. -/
def engineAsk (core : Nat) (burst : Nat × Nat) (place : Option (Bool × Nat)) : Option Ask :=
  place.map fun p =>
    let goes := (burstWith burst (some p)).2 != 1
    { bank := bankNumber core p.1 p.2, rank := if goes then 1 else 6, since := 0, core := core, waits := goes }

/-- A read of the queue hardware or the fabric, of rank 5. -/
def readAsk (core : Nat) (cluster : Bool) (off : Nat) : Ask :=
  { bank := bankNumber core cluster off, rank := 5, since := 0, core := core, waits := false }

/-- A transfer's run, by cluster, transfer and engine. -/
def State.runOf (s : State) (k x e : Nat) : Option (Xfer × EngineRun) :=
  ((s.cluster k).xfer x).bind fun y => (y.runOn e).map fun r => (y, r)

/-- The line that the array of a core reads or writes next. -/
def State.arrayPlace (s : State) (core : Nat) : Option (Bool × Nat) :=
  let m := (s.core core).mat
  match m.writes with
  | l :: _ => some (l.1, l.2.1)
  | [] => choose s.fresh 65000 m.unread

/-- The line that an operation under way reads next. -/
def State.opAsk (s : State) (op : Nat) : Option Ask :=
  match s.findOp op with
  | some ⟨_, b, .put _ _ _ _ off none⟩ => some (readAsk b.core false off)
  | some ⟨_, b, .meet _ (some r)⟩ => some (readAsk b.core false r.1)
  | some ⟨_, b, .cpost off image⟩ =>
    if image.length < imageBytes off then some (readAsk b.core false (off + image.length)) else none
  | _ => none

/-- The bank that a turn needs (R127, R296). [DEDUCED, log 22: unsafe] -/
def State.ask (s : State) : Turn → Option Ask
  | .grant core bank =>
    ((s.core core).grantable.find? fun g => bankOf g.2.cluster g.2.off == bank).map fun g => s.loadAsk core g.2
  | .line core => (s.arrayPlace core).map fun p =>
      { bank := bankNumber core p.1 p.2, rank := 3, since := 0, core := core, waits := (s.core core).mat.late }
  | .arrayEnd core => (s.core core).mat.writes.head?.map fun l =>
      { bank := bankNumber core l.1 l.2.1, rank := 3, since := 0, core := core, waits := false }
  | .engineRead k x e => (s.runOf k x e).bind fun y => engineAsk y.1.by_.core y.2.reads (y.1.readPlace y.2)
  | .engineWrite k x e => (s.runOf k x e).bind fun y => engineAsk y.1.by_.core y.2.writes (y.1.writePlace y.2)
  | .goesOn op => s.opAsk op
  | .send op => (s.fabric.remote op).bind fun r => match r.op with
      | .fput lsp laddr _ _ _ _ _ _ _ _ none _ => some (readAsk r.by_.core (lsp == 2) (laddr + r.piece.1))
      | _ => none
  | _ => none

/-- A request comes before another one at their bank: by its rank, then by its age, then by its core's number (R127, R296). -/
def Ask.before (a b : Ask) : Bool :=
  a.waits && a.bank == b.bank &&
    (decide (a.rank < b.rank) || (a.rank == b.rank && b.waits &&
      (decide (a.since < b.since) || (a.since == b.since && decide (a.core < b.core)))))

/-- Everything that can happen next: of the accesses to one bank none before which another one stands there.
[DESIGN CHOICE, log 3: safe] -/
def State.turns (s : State) : List Turn :=
  let all := s.allTurns
  let asks := all.filterMap s.ask
  all.filter fun t => match s.ask t with
    | none => true
    | some a => !asks.any fun b => b.before a

/-! Events of one cycle (R355, R397). -/

/-- The event of a turn. -/
def State.eventOf (s : State) : Turn → Option Instr
  | .waiting n => s.agenda[n]?
  | .own i => some i
  | _ => none

/-- The arbiter that sees an event, 0 the hub's and 1 + d that of die d, with the event's place among those that it sees in one
cycle. The hub's takes reports of the dies in ascending die, then events of the directory and of compaction, then those of the
LXU and the fabric, then host commands (R397); a die's takes events of cores in ascending core, then those of its engine
(R355). -/
def State.eventOrder (s : State) : Instr → Option (Nat × Nat × Nat)
  | .waitScan d => some (0, 0, d)
  | .saveTimerExpiry core => some (0, 0, dieOfCore core)
  | .rangeUpdate _ _ => some (0, 1, 0)
  | .compactionBlock => some (0, 1, 0)
  | .collectiveJoin _ _ => some (0, 2, 0)
  | .joinTimeout _ => some (0, 2, 0)
  | .collectiveChunk _ => some (0, 2, 0)
  | .fabricBarrierArrival _ _ => some (0, 2, 0)
  | .fabricBarrierRelease _ => some (0, 2, 0)
  | .roundBreak _ => some (0, 2, 0)
  | .packageDeath _ => some (0, 2, 0)
  | .doorbell _ => some (0, 3, 0)
  | .preempt => some (0, 3, 0)
  | .resume => some (0, 3, 0)
  | .cancel => some (0, 3, 0)
  | .continueCmd => some (0, 3, 0)
  | .freeze => some (0, 3, 0)
  | .unfreeze => some (0, 3, 0)
  | .hostRegisterWrite _ _ => some (0, 3, 0)
  | .pickup core => some (1 + dieOfCore core, 0, core)
  | .postPlacement core op => match s.findOp op with
    | some ⟨_, _, .post _ die _ _ _⟩ => some (1 + die, 0, core)
    | _ => none
  | .syncOperation core op => match s.findOp op with
    | some ⟨_, _, .sync die _ _ _⟩ => some (1 + die, 0, core)
    | some ⟨_, _, .fabricArrive die _ _⟩ => some (1 + die, 2, 0)
    | _ => none
  | .barrierDecrement op => match s.findOp op with
    | some ⟨_, _, .decrement die _ _ _ _⟩ => some (1 + die, 1, 0)
    | _ => none
  | _ => none

/-- The place of a turn's event at its arbiter. -/
def State.turnOrder (s : State) (t : Turn) : Option (Nat × Nat × Nat) := (s.eventOf t).bind s.eventOrder

/-- One event comes before another one of its cycle at their arbiter. -/
def sooner (a b : Nat × Nat × Nat) : Bool := decide (a.2.1 < b.2.1) || (a.2.1 == b.2.1 && decide (a.2.2 < b.2.2))

/-- Of two turns at one arbiter the one whose event it takes first. -/
def State.firstOf (s : State) (t u : Turn) : Turn :=
  match s.turnOrder t, s.turnOrder u with
  | some a, some b => if a.1 == b.1 && sooner b a then u else t
  | _, _ => t

/-- Of the events that an arbiter sees in the cycle of this one, which are any of those that wait for it, the one that it takes
first (R355, R397). [DESIGN CHOICE, log 3: safe] -/
def State.sameCycle (s : State) (t : Turn) : Turn :=
  match s.turnOrder t with
  | none => t
  | some _ =>
    (s.turns.zipIdx.filter fun u => Config.choice s.fresh (66000 + u.2) % 2 == 1).foldl (fun t u => s.firstOf t u.1) t

end Sys2Proof.Machine
end

