-- ==== Sys2Proof/Machine/Take.lean ====
section
/-! DEFINITION. One turn of the package: an event is executed or a bundle issues, and time passes (R3, R4, R327). Beside it
the placing of an instruction where the next step fetches it. -/

namespace Sys2Proof.Machine

noncomputable section

/-- A turn is taken. -/
def State.take (s : State) : Turn → Host.Outcome State Fault Refusal
  | .waiting n =>
    match s.agenda[n]? with
    | some i => exec i { s with agenda := s.agenda.eraseIdx n }
    | none => .next s
  | .own i => exec i s
  | .grant core bank => .next (s.grantNext core bank)
  | .arrayLate core => .next (s.arrayLate core)
  | .held => .next s.serveHeld
  | .engineRead k x e => .next (s.engineRead k x e)
  | .engineWrite k x e => .next (s.engineWrite k x e)
  | .line core => .next (s.arrayLine core)
  | .arrayEnd core => .next (s.arrayEnd core)
  | .packets => .next s.resumePackets
  | .notice => .next s.sendNotice
  | .join => .next s.serveJoin
  | .send op => .next (s.sendNext op)
  | .tagClose n => .next (s.closeTag n)
  | .root => .next s.nextRoot
  | .goesOn op => .next (s.goOn op)
  | .bundle core => ({ s with cur := core } : State).issue

/-- Time passes; the token buckets fill by 256 bytes in a nanosecond, up to 1 MiB (R3, R327).
[DESIGN CHOICE, log 4: safe; DESIGN CHOICE, log 5: unsafe] -/
def State.passTime (s : State) : State :=
  let n := Config.tick s.fresh
  { s with
    time := s.time + n, fresh := s.fresh + 1
    clusters := s.clusters.map fun c => (c.1, { c.2 with tokens := min 1048576 (c.2.tokens + 256 * n) }) }

/-- The turn that the step takes, if anything can happen. [DESIGN CHOICE, log 3: safe] -/
def State.nextTurn (s : State) : Option Turn := (choose s.fresh 0 s.turns).map s.sameCycle

end

/-! Placing an instruction. -/

/-- The words to fetch for an instruction: a LIMM word stands behind the scalar immediate word that it extends (R44), here an
ADD of s8 and the immediate. -/
def fetchWords (w : Nat) : List Nat :=
  if isLimm (BitVec.ofNat 32 w) then [0x98042000, w % 2 ^ 32] else [w % 2 ^ 32]

/-- A code range of one page at the physical address 0, with key slot 1. -/
def codePage : Desc :=
  { rid := 1, vbase := 0, vlimit := 4096, poff := 0, rbase := 0, rlimit := 4096, key := 1, perm := 4, version := 0 }

/-- The record of a strand that stands at the first word of its code. -/
def firstRecord : Record :=
  { kind := 1, state := 1, prio := 0, nxph := false, wstat := false, trpend := false, pcore := 0, rpc := 0, lidx := 0
    rset := 0, phase := 0, mode := 0, dslot := 0, args := List.replicate 8 0 }

/-- A core that runs a strand at word offset 0 with nothing under way. -/
def Core.atStart (c : Core) (time : Nat) : Core :=
  { c with
    main := { c.main with pc := 0, origin := 0, hmode := false }
    inHandler := false, full := false, wdPeriod := 100000, wdStart := time, wdHeld := false, starts := [], landings := []
    requests := [], held := none, fence := none, badRegs := [], loop := Loop.reset, iss := Issue.reset
    act := .running, strand := some firstRecord
    preempt := false, saveStart := none, codeEntry := some codePage, codeLaunch := none
    mat := { c.mat.emptied with results := [] } }

/-- A package in which core 0 alone is about to do something, and that is to issue the words at the physical address 0.
[DEDUCED, log 6: safe] -/
def State.withWords (s : State) (words : List Nat) : State :=
  { s with
    cores := [(0, (s.core 0).atStart s.time)], clusters := [], dies := [], nodes := [], ops := [], agenda := []
    hub := { s.hub with
      pstate := 4, run := false, launch := none, coll := none, collQueue := [], hold := false, moves := [], waiting := []
      lqtail := s.hub.lqhead, keys := [(0, 1), (1, 1)], tags := s.hub.tags.filter fun t => t.2.1 != .closing }
    fabric := { s.fabric with entries := [], early := [], remotes := [], ports := [], notice := false }
    hbm := Memory.write s.hbm 0 (words.flatMap (natToBytes 4))
    platform := { s.platform with
      booted := true, soft := [], poison := [], hard := [], classes := []
      eyes := s.platform.eyes.map fun e => (e.1, { e.2 with rtpend := false, armed := [] })
      blockKey := Sparse.set s.platform.blockKey 0 1 } }

end Sys2Proof.Machine
end

