-- ==== Sys2Proof/Machine/Step.lean ====
section
/-! DEFINITION. The step of the package, and the state in which a given instruction is the next to run. -/

namespace Sys2Proof.Machine

/-- One step: of everything that can happen next one thing happens, and time passes; where nothing can happen, only time
passes. -/
noncomputable def step (s : State) : Host.Outcome State Fault Refusal :=
  match s.nextTurn with
  | none => .next s.passTime
  | some t =>
    match s.take t with
    | .next u => .next u.passTime
    | o => o

/-- The state with an instruction stored where the next step fetches it: the package has booted, core 0 runs a strand at word
offset 0 of a code range whose first word it is, and nothing else is under way. [DEDUCED, log 6: safe] -/
def State.withFetchWord (s : State) (_nbits w : Nat) : State := s.withWords (fetchWords w)

end Sys2Proof.Machine
end

