-- ==== Sys2Proof/Safety.lean ====
section
/-! DEFINITION. What counts as a safe run: a step that goes on, a run all of whose steps go on, and the canonical form of
every memory of the package. -/

namespace Sys2Proof.Machine

/-- The step from this state goes on. -/
def State.goesOn (s : State) : Prop := ∃ t, step s = .next t

/-- A run of `n` steps from this state goes on all the way. -/
def State.safeFor (s : State) : Nat → Prop
  | 0 => True
  | n + 1 => ∃ t, step s = .next t ∧ State.safeFor t n

/-- HBM and every scratchpad are in canonical form. -/
def State.memoriesWf (s : State) : Bool :=
  Memory.wf s.hbm && s.cores.all (fun c => Memory.wf c.2.scratch) && s.clusters.all fun c => Memory.wf c.2.scratch

/-- Each of these instructions answers the next state beside it. -/
def State.runs (s : State) (l : List (Instr × State)) : Prop := ∀ p ∈ l, exec p.1 s = .next p.2

/-- An access translates to a binding (R246, R247) and is counted in flight (R245), which leaves this state. -/
def State.binds (s : State) (va len : Nat) (need : BitVec 9) (plain : Bool) (b : Bound) (u : State) : Prop :=
  ∃ t, s.translate va len need plain = .ok t b ∧ t.acquireAll [b] = some u

end Sys2Proof.Machine
end

