-- ==== Sys2Proof/Certificates/Slice0/Obligations.lean ====
section
/-! DEFINITION. The statements for the provers. A list of pairs under `State.runs` names instructions and the next state that
each one answers; conditions stand on the state and the operands alone. -/

open Sys2Proof Sys2Proof.Machine

/-! Encoding and decoding. -/

/-- The words that the spec's examples write out decode to the instructions that the examples give (after R58, R75, R161,
R162, R165, R168 and R169). -/
def Obligations.ExampleWordsDecode : Prop :=
  decode 0x900210A0#32 = .ok (.addSr 4 4 5 0) ∧
  decode 0x90A318E8#32 = .ok (.minSr 6 6 7 2) ∧
  decode 0xA800C223#32 = .ok (.vadd 0 0 3 1 2 1 1) ∧
  decode 0x00000000#32 = .ok .nop ∧
  decode 0x98018EA0#32 = .ok (.addSi 3 3 0x2A0) ∧
  decode 0x20000061#32 = .ok (.limm 0x61) ∧
  decode 0x13A118E0#32 = .ok (.cmpLtSr 2 6 7 0) ∧
  decode 0x13042548#32 = .ok (.sel 8 9 10 2) ∧
  decode 0x1D0083FB#32 = .ok (.movi 1 0x3FB) ∧
  decode 0x08050005#32 = .ok (.mfc 5 5) ∧
  decode 0x40C810C2#32 = .ok (.ldD 8 2 3 2) ∧
  decode 0x41431002#32 = .ok (.stW 3 2 2) ∧
  decode 0x00600014#32 = .ok (.callDisp 0 0 0 0x14) ∧
  decode 0x00A0001F#32 = .ok (.ret 0 0 0 31) ∧
  decode 0x0037FFFD#32 = .ok (.br 1 3 1 0xFFFD) ∧
  decode 0x00C6FFFE#32 = .ok (.brvAll 0 3 0xFFFE) ∧
  (∃ e, decode 0xFFFFFFFF#32 = .error e)

/-- Every well-formed instruction that has a word decodes from it, with every operand as it was and under either chain
bit. -/
def Obligations.EncodedWordsDecodeBack : Prop :=
  ∀ (i : Instr) (c : Bool) (w : W32), i.wellFormed = true → encode c i = some w →
    decode w = .ok i ∧ chainBit w = c

/-- What the decoder reads from a word is well formed, and its major opcode is not one of the reserved ones (R42, R58). -/
def Obligations.DecodedWordsAreWellFormed : Prop :=
  ∀ (w : W32) (i : Instr), decode w = .ok i → i.wellFormed = true ∧ w.toNat / 2 ^ 27 % 16 < 13

/-! The step. -/

/-- A bundle of one word: where the next turn is a bundle of a core whose fetch, with every landing that is due delivered,
no trap requested and no wait, gives one word that decodes to an instruction, the step executes exactly that instruction, in
the state in which the word stands; then sequence numbers are taken, control goes on, and time passes. Where the word reads a
register with an uncorrectable error, the step takes the machine check instead (R269).
The model's own readings that it rests on: log 3, 4, 12 and 25. -/
def Obligations.StepRunsTheDecodedInstruction : Prop :=
  ∀ (s : State) (core off : Nat) (w : W32) (i : Instr),
    s.nextTurn = some (.bundle core) →
    let u := ({ s with cur := core }.onHere fun c => c.advance s.time s.fresh (max c.cycle c.issueAt)).serveQueues core
    u.cur = core → u.here.stuck = false → u.here.candidates = [] → u.here.fence = none →
    u.needsCode u.here = false → u.nextWords u.here = .ok [(off, w)] →
    chainBit w = false → isLimm w = false → u.here.loop.active = false → decode w = .ok i →
    let ready := (u.noteFetch u.here [(off, w)]).takeUp [(off, w)]
    let item : Item := { off := off, raw := w, instr := some i, pipe := (pipeOf w).getD 8, ext := none, slot := 0 }
    (∀ t, ready.badRead (wordReads (ready.atItem item) i) = none → exec i (ready.atItem item) = .next t → t.here.iss.mark = .done →
      step s = .next (t.onHere fun d => d.finish ready.here.inHandler ready.here.handlerMode 1).passTime) ∧
    (∀ n, ready.badRead (wordReads (ready.atItem item) i) = some n →
      step s = .next ((ready.atItem item).registerCheck n).passTime)

/-- A step of the device itself is the execution of its event; what the event answers is the step's answer, with time
passed. An event that waits in the agenda leaves it.
The model's own readings that it rests on: log 3 and 4. -/
def Obligations.StepRunsAnEvent : Prop :=
  ∀ (s t : State) (i : Instr),
    (s.nextTurn = some (.own i) → exec i s = .next t → step s = .next t.passTime) ∧
    (∀ n, s.nextTurn = some (.waiting n) → s.agenda[n]? = some i →
      exec i { s with agenda := s.agenda.eraseIdx n } = .next t → step s = .next t.passTime)

/-- Before anything else the package boots: from a state that has neither booted nor failed to, whatever else it holds, the
step is the boot event, and from then on the package has booted or has failed to (R415).
The model's own readings that it rests on: log 6 and 8. -/
def Obligations.FirstStepBoots : Prop :=
  ∀ s : State, s.platform.booted = false → s.platform.bootFailed = false →
    ∃ t, exec .boot s = .next t ∧ step s = .next t.passTime ∧
      (t.platform.booted = true ∨ t.platform.bootFailed = true)

/-! Reset. -/

/-- What the spec gives for reset, for every core, queue and control register of it: both banks of h0 to h15 zero, p0 one
and k0 all ones, CYCLE and the freeze counters zero, TBFREE 64, the cause registers zero,
WDOG 1,000 µs and 100,000 µs, TRCTL with WRAP set, DRAINCTL, TOLT, the NEST registers, the queues closed; and the
hub idle with HSTAT 0x1000 and LQSIZE 4, the thermal threshold 95 and the clock target 850. That the time base starts at 0 is the
model's own choice: log 5. -/
def Obligations.ResetValues : Prop :=
  (∀ n : Nat,
    let c := State.reset.core n
    (∀ k, c.held_ (.h k) = 0 ∧ c.held_ (.mh k) = 0) ∧
    c.held_ (.p 0) = 1 ∧ c.held_ (.mp 0) = 1 ∧ c.held_ (.k 0) = 2 ^ 64 - 1 ∧
    c.cregValue n 0 0x003 = 64 * 2 ^ 8 ∧ c.cregValue n 0 0x005 = 0 ∧ c.cregValue n 0 0x006 = 0 ∧
    c.cregValue n 0 0x007 = 0 ∧ c.cregValue n 0 0x008 = 0 ∧ c.cregValue n 0 0x00A = n ∧
    (∀ r, 0x010 ≤ r → r ≤ 0x019 → c.cregValue n 0 r = 0) ∧
    c.cregValue n 0 0x01A = 1000 * 2 ^ 32 + 100000 ∧
    (∀ r, 0x040 ≤ r → r ≤ 0x04F → c.cregValue n 0 r = 0) ∧
    c.cregValue n 0 0x050 = 2 ∧
    c.cregValue n 0 0x060 = 0x3F80000002000000 ∧ c.cregValue n 0 0x061 = 0x0000088888884444 ∧
    (∀ r, 0x100 ≤ r → r ≤ 0x117 → c.cregValue n 0 r = if r % 4 = 0 then 1 else 0) ∧
    c.inHandler = false ∧ c.main.hmode = false ∧ c.strand = none) ∧
  State.reset.hub.lqsize = 4 ∧ State.reset.hub.lqhead = 0 ∧ State.reset.hub.lqtail = 0 ∧
  State.reset.hstat = 0x1000 ∧ State.reset.hub.launch = none ∧
  State.reset.platform.tjthr = 95 ∧ State.reset.platform.target = 850 ∧ State.reset.time = 0

/-- Memory in canonical form: addresses strictly rise and no byte equals what an unlisted address reads as. It holds of HBM
and of every scratchpad at reset, and of every memory that a write of bytes leaves.
The model's own readings that it rests on: log 2. -/
def Obligations.MemoriesAreCanonical : Prop :=
  State.reset.memoriesWf = true ∧
  (∀ n, Memory.wf (State.reset.core n).scratch = true ∧ Memory.wf (State.reset.cluster n).scratch = true) ∧
  ∀ (m : Memory) (a : Nat) (bs : List Byte), Memory.wf m = true → Memory.wf (Memory.write m a bs) = true

/-- Every step keeps HBM in canonical form, so that equal memories are equal data.
The model's own readings that it rests on: log 2 and 3. -/
def Obligations.EveryStepKeepsHbmCanonical : Prop :=
  ∀ s t : State, Memory.wf s.hbm = true → step s = .next t → Memory.wf t.hbm = true

/-! Scalar words. -/

/-- Each scalar register word whose guard holds lands its result in the register that its d field names, after the latency of
R60; SEL, which has no guard, selects by its predicate. -/
def scalarRegisterWords : Prop :=
  (∀ (s : State) (d a b : BitVec 5) (g : BitVec 3), s.guarded g false = true → s.runs [
    (.addSr d a b g, s.toReg d 1 (s.reg a + s.reg b)),
    (.subSr d a b g, s.toReg d 1 (s.reg a - s.reg b)),
    (.andSr d a b g, s.toReg d 1 (s.reg a &&& s.reg b)),
    (.orSr d a b g, s.toReg d 1 (s.reg a ||| s.reg b)),
    (.xorSr d a b g, s.toReg d 1 (s.reg a ^^^ s.reg b)),
    (.andnSr d a b g, s.toReg d 1 (s.reg a &&& ~~~(s.reg b))),
    (.shlSr d a b g, s.toReg d 1 (s.reg a <<< shiftAmount (s.reg b))),
    (.shrSr d a b g, s.toReg d 1 (s.reg a >>> shiftAmount (s.reg b))),
    (.sarSr d a b g, s.toReg d 1 ((s.reg a).sshiftRight (shiftAmount (s.reg b)))),
    (.rotSr d a b g, s.toReg d 1 ((s.reg a).rotateLeft (shiftAmount (s.reg b)))),
    (.minSr d a b g, s.toReg d 1 (if (s.reg a).slt (s.reg b) then s.reg a else s.reg b)),
    (.maxSr d a b g, s.toReg d 1 (if (s.reg a).slt (s.reg b) then s.reg b else s.reg a)),
    (.minuSr d a b g, s.toReg d 1 (if (s.reg a).ult (s.reg b) then s.reg a else s.reg b)),
    (.maxuSr d a b g, s.toReg d 1 (if (s.reg a).ult (s.reg b) then s.reg b else s.reg a)),
    (.mulSr d a b g, s.toReg d 3 (s.reg a * s.reg b)),
    (.mulh d a b g, s.toReg d 3 (w64 ((s.reg a).toInt * (s.reg b).toInt / 18446744073709551616))),
    (.mulhu d a b g, s.toReg d 3 (BitVec.ofNat 64 ((s.reg a).toNat * (s.reg b).toNat / 18446744073709551616))),
    (.div d a b g, s.toReg d 20 (divSigned (s.reg a) (s.reg b))),
    (.divu d a b g, s.toReg d 20 (divUnsigned (s.reg a) (s.reg b))),
    (.rem d a b g, s.toReg d 20 (remSigned (s.reg a) (s.reg b))),
    (.remu d a b g, s.toReg d 20 (remUnsigned (s.reg a) (s.reg b))),
    (.bfx d a b g, s.toReg d 1 (extractField (s.reg a) (s.reg b))),
    (.bfi d a b g, s.toReg d 1 (insertField (s.reg d) (s.reg a) (s.reg b))),
    (.addsh1 d a b g, s.toReg d 1 (s.reg a + (s.reg b <<< 1))),
    (.addsh2 d a b g, s.toReg d 1 (s.reg a + (s.reg b <<< 2))),
    (.addsh3 d a b g, s.toReg d 1 (s.reg a + (s.reg b <<< 3))),
    (.addsh4 d a b g, s.toReg d 1 (s.reg a + (s.reg b <<< 4)))]) ∧
  (∀ (s : State) (d a : BitVec 5) (g : BitVec 3), s.guarded g false = true → s.runs [
    (.clz d a g, s.toReg d 1 (BitVec.ofNat 64 (leadingZeros (s.reg a) 64))),
    (.ctz d a g, s.toReg d 1 (BitVec.ofNat 64 (trailingZeros (s.reg a) 64))),
    (.popc d a g, s.toReg d 1 (BitVec.ofNat 64 (onesBelow (s.reg a) 64))),
    (.brev d a g, s.toReg d 1 (BitVec.ofNat 64 (reversed (s.reg a) 64))),
    (.extB d a g, s.toReg d 1 (((s.reg a).setWidth 8).signExtend 64)),
    (.extBu d a g, s.toReg d 1 (((s.reg a).setWidth 8).setWidth 64)),
    (.extH d a g, s.toReg d 1 (((s.reg a).setWidth 16).signExtend 64)),
    (.extHu d a g, s.toReg d 1 (((s.reg a).setWidth 16).setWidth 64)),
    (.extW d a g, s.toReg d 1 (((s.reg a).setWidth 32).signExtend 64)),
    (.extWu d a g, s.toReg d 1 (((s.reg a).setWidth 32).setWidth 64))]) ∧
  (∀ (s : State) (d a b : BitVec 5) (p : BitVec 3), s.runs [
    (.sel d a b p, s.toReg d 1 (if s.pred p then s.reg a else s.reg b))])

/-- Each scalar immediate word lands its result; its second operand is the sign-extended immediate, of 37 bits where a
LIMM has supplied the upper ones. A LIMM supplies them and has no other effect. -/
def scalarImmediateWords : Prop :=
  (∀ (s : State) (d a : BitVec 5) (i : BitVec 10), s.runs [
    (.addSi d a i, s.toReg d 1 (s.reg a + s.imm i)),
    (.subSi d a i, s.toReg d 1 (s.reg a - s.imm i)),
    (.andSi d a i, s.toReg d 1 (s.reg a &&& s.imm i)),
    (.orSi d a i, s.toReg d 1 (s.reg a ||| s.imm i)),
    (.xorSi d a i, s.toReg d 1 (s.reg a ^^^ s.imm i)),
    (.andnSi d a i, s.toReg d 1 (s.reg a &&& ~~~(s.imm i))),
    (.shlSi d a i, s.toReg d 1 (s.reg a <<< shiftAmount (s.imm i))),
    (.shrSi d a i, s.toReg d 1 (s.reg a >>> shiftAmount (s.imm i))),
    (.sarSi d a i, s.toReg d 1 ((s.reg a).sshiftRight (shiftAmount (s.imm i)))),
    (.rotSi d a i, s.toReg d 1 ((s.reg a).rotateLeft (shiftAmount (s.imm i)))),
    (.minSi d a i, s.toReg d 1 (if (s.reg a).slt (s.imm i) then s.reg a else s.imm i)),
    (.maxSi d a i, s.toReg d 1 (if (s.reg a).slt (s.imm i) then s.imm i else s.reg a)),
    (.minuSi d a i, s.toReg d 1 (if (s.reg a).ult (s.imm i) then s.reg a else s.imm i)),
    (.maxuSi d a i, s.toReg d 1 (if (s.reg a).ult (s.imm i) then s.imm i else s.reg a)),
    (.mulSi d a i, s.toReg d 3 (s.reg a * s.imm i))]) ∧
  (∀ (s : State) (p : BitVec 3) (a : BitVec 5) (i : BitVec 10), s.runs [
    (.cmpEqSi p a i, s.toPred p (s.reg a == s.imm i)),
    (.cmpNeSi p a i, s.toPred p (s.reg a != s.imm i)),
    (.cmpLtSi p a i, s.toPred p ((s.reg a).slt (s.imm i))),
    (.cmpGeSi p a i, s.toPred p (!(s.reg a).slt (s.imm i))),
    (.cmpLtuSi p a i, s.toPred p ((s.reg a).ult (s.imm i))),
    (.cmpGeuSi p a i, s.toPred p (!(s.reg a).ult (s.imm i)))]) ∧
  (∀ (s : State) (d : BitVec 5) (i : BitVec 10), s.runs [
    (.movi d i, s.toReg d 1 (s.imm i))]) ∧
  (∀ (s : State) (i : BitVec 27),
    s.runs [(.limm i, s.onHere fun c => { c with iss := { c.iss with ext := some i } })]) ∧
  (∀ (s : State) (i : BitVec 10) (e : BitVec 27), s.here.iss.ext = none → s.imm i = i.signExtend 64 ∧
    (s.onHere fun c => { c with iss := { c.iss with ext := some e } }).imm i = (e ++ i).signExtend 64)

/-- Each guarded word that writes a predicate lands its truth value one cycle later, where its guard holds. -/
def predicateWords : Prop :=
  (∀ (s : State) (p : BitVec 3) (a b : BitVec 5) (g : BitVec 3), s.guarded g false = true → s.runs [
    (.cmpEqSr p a b g, s.toPred p (s.reg a == s.reg b)),
    (.cmpNeSr p a b g, s.toPred p (s.reg a != s.reg b)),
    (.cmpLtSr p a b g, s.toPred p ((s.reg a).slt (s.reg b))),
    (.cmpGeSr p a b g, s.toPred p (!(s.reg a).slt (s.reg b))),
    (.cmpLtuSr p a b g, s.toPred p ((s.reg a).ult (s.reg b))),
    (.cmpGeuSr p a b g, s.toPred p (!(s.reg a).ult (s.reg b)))]) ∧
  (∀ (s : State) (d a b g : BitVec 3), s.guarded g false = true → s.runs [
    (.plogAnd d a b g, s.toPred d (s.pred a && s.pred b)),
    (.plogOr d a b g, s.toPred d (s.pred a || s.pred b)),
    (.plogXor d a b g, s.toPred d (s.pred a != s.pred b)),
    (.plogAndn d a b g, s.toPred d (s.pred a && !s.pred b))])

/-- The scalar words on registers, with an immediate, and on predicates (R150 to R160). -/
def Obligations.ScalarWords : Prop := scalarRegisterWords ∧ scalarImmediateWords ∧ predicateWords

/-! Vector words. -/

/-- Outside the message-handler context each floating word lands its lanes after the latency of R60, each active lane with the
rounded result of its operands' lanes; a stochastic-rounding value is taken by the words that round. -/
def floatingWords : Prop :=
  ∀ (s : State) (x : BitVec 1) (t : BitVec 2) (d a b : BitVec 5) (m : BitVec 3) (z : BitVec 1),
    s.here.inHandler = false →
    let y := x == 1
    let fmt := laneFmt t
    let w := elemBits fmt
    let r := fun i => s.rnd s.mode i
    let ca := fun i => lane w (s.vec y a) i
    let cb := fun i => lane w (s.vec y b) i
    let pa := fun i => readElem (r i) fmt (ca i)
    let pb := fun i => readElem (r i) fmt (cb i)
    let pd := fun i => readElem (r i) fmt (lane w (s.vec y d) i)
    let lands := fun (sr : Bool) (lat : Nat) (f : Nat → Rounded) =>
      (s.takeSr sr).landLanes y d w lat (z == 1) (fun i => (s.mask m).getLsbD (maskBit w i)) f
    s.runs [
      (.vadd x t d a b m z, lands true (fpLat t 4 6) fun i => addRounded (r i) fmt (pa i) (pb i)),
      (.vsub x t d a b m z, lands true (fpLat t 4 6) fun i => addRounded (r i) fmt (pa i) (pb i).neg),
      (.vmul x t d a b m z, lands true (fpLat t 4 6) fun i => mulRounded (r i) fmt (pa i) (pb i)),
      (.vfma x t d a b m z, lands true (fpLat t 4 6) fun i => fmaRounded (r i) fmt (pa i) (pb i) (pd i)),
      (.vfms x t d a b m z, lands true (fpLat t 4 6) fun i => fmaRounded (r i) fmt (pa i) (pb i) (pd i).neg),
      (.vfnma x t d a b m z, lands true (fpLat t 4 6) fun i => fmaRounded (r i) fmt (pa i).neg (pb i) (pd i)),
      (.vmin x t d a b m z, lands false 2 fun i => minMaxCode false (r i) fmt (ca i) (cb i)),
      (.vmax x t d a b m z, lands false 2 fun i => minMaxCode true (r i) fmt (ca i) (cb i)),
      (.vabs x t d a m z, lands false 2 fun i => signOp (r i) fmt (ca i) false),
      (.vneg x t d a m z, lands false 2 fun i => signOp (r i) fmt (ca i) true),
      (.vdiv x t d a b m z, lands true (fpLat t 14 22) fun i => divRounded (r i) fmt (pa i) (pb i)),
      (.vsqrt x t d a m z, lands true (fpLat t 14 22) fun i => sqrtRounded (r i) fmt (pa i))]

/-- Outside the message-handler context each integer, logical, shift and fixed-point word and each dot product lands its
lanes after the latency of R60. -/
def integerAndDotWords : Prop :=
  ∀ (s : State) (x j : BitVec 1) (e : BitVec 2) (d a b : BitVec 5) (m : BitVec 3) (z : BitVec 1),
    s.here.inHandler = false →
    let y := x == 1
    let n := intWidth e
    let n2 := wordWidth j
    let lands := fun (t : State) (w lat : Nat) (f : Nat → Rounded) =>
      t.landLanes y d w lat (z == 1) (fun i => (s.mask m).getLsbD (maskBit w i)) f
    let ints := fun (w lat : Nat) (f : Nat → Nat → Nat) =>
      lands s w lat fun i => plain (f (lane w (s.vec y a) i) (lane w (s.vec y b) i))
    let fix := fun i => signed 64 (lane 64 (s.vec y a) i) + signed 64 (lane 64 (s.vec y b) i)
    let dots := fun (fmt : Nat) =>
      let w := elemBits fmt
      let elems := fun (v : Vec) (g : Nat) => (List.range 16).map fun k => (lane w v (16 * g + k), 127)
      s.landLanes y d 32 6 (z == 1) (fun g => decide (g < 512 / w / 16) && (s.mask m).getLsbD g) fun g =>
        dot (Rnd.ofMode s.mode 0) fmt (.fin false 1 0) (lane 32 (s.vec y d) g) (elems (s.vec y a) g) (elems (s.vec y b) g)
    s.runs [
      (.viadd x e d a b m z, ints n 2 fun p q => p + q),
      (.visub x e d a b m z, ints n 2 fun p q => wrap n ((p : Int) - q)),
      (.vimul x e d a b m z, ints n 4 fun p q => p * q),
      (.vimulh x e d a b m z, ints n 4 fun p q => wrap n (signed n p * signed n q / (2 ^ n : Nat))),
      (.vimin x e d a b m z, ints n 2 fun p q => if signed n p < signed n q then p else q),
      (.vimax x e d a b m z, ints n 2 fun p q => if signed n p < signed n q then q else p),
      (.vand x d a b m z, ints 8 2 fun p q => p &&& q),
      (.vor x d a b m z, ints 8 2 fun p q => p ||| q),
      (.vxor x d a b m z, ints 8 2 fun p q => p ^^^ q),
      (.vandn x d a b m z, ints 8 2 fun p q => p &&& (255 - q)),
      (.vshl x j d a b m z, ints n2 2 fun p q => p * 2 ^ (q % n2)),
      (.vshr x j d a b m z, ints n2 2 fun p q => p / 2 ^ (q % n2)),
      (.vsar x j d a b m z, ints n2 2 fun p q => wrap n2 (signed n2 p / (2 ^ (q % n2) : Nat))),
      (.vfxmulFix64 x d a b m z, lands (s.takeSr true) 64 4 fun i =>
        fixProduct (s.rnd s.mode i) (lane 64 (s.vec y a) i) (lane 64 (s.vec y b) i)),
      (.vfxaddFix64 x d a b m z, lands s 64 2 fun i => fixResult (s.rnd s.mode i) (fix i) 0),
      (.vdot16Bf16 x d a b m z, dots 2), (.vdot16F16 x d a b m z, dots 3), (.vdot16E4m3 x d a b m z, dots 4),
      (.vdot16E5m2 x d a b m z, dots 5), (.vdot16E2m1 x d a b m z, dots 6), (.vdot16Log6 x d a b m z, dots 10),
      (.vdot16I8 x d a b m z, dots 11)]

/-- Outside the message-handler context each conversion and each special function lands its lanes after the latency of R60;
VMXQ lands a block of 32 codes with its scale byte, VMXD lands a pair of registers. -/
def conversionAndSpecialWords : Prop :=
  ∀ (s : State) (x : BitVec 1) (f g : BitVec 4) (d a b : BitVec 5) (e m : BitVec 3) (z : BitVec 1),
    s.here.inHandler = false →
    let y := x == 1
    let r := fun i => s.rnd s.mode i
    let masked := fun (t : State) (w lat : Nat) (f : Nat → Rounded) =>
      t.landLanes y d w lat (z == 1) (fun i => (s.mask m).getLsbD (maskBit w i)) f
    let special := fun (fmt lat : Nat) (sr : Bool) (f : Rnd → Nat → Nat → Rounded) =>
      masked (s.takeSr sr) (elemBits fmt) lat fun i => f (r i) fmt (lane (elemBits fmt) (s.vec y a) i)
    let scaled := fun (fmt : Nat) =>
      masked (s.takeSr true) (elemBits fmt) 2 fun i =>
        scaleb (r i) fmt (lane (elemBits fmt) (s.vec y a) i) (lane (elemBits fmt) (s.vec y b) i)
    let ws := elemBits g.toNat
    let wd := elemBits f.toNat
    let hi := BitVec.ofNat 512 (s.here.readPort s.fresh (vPort y (a.toNat + 1)))
    let ef := 4 + e.toNat
    let q := mxq (r 0) ef (readElem (r 0) 1 (lane 32 (s.vec y b) 0)) ((List.range 32).map fun i =>
      (readElem (r i) 1 (if i < 16 then lane 32 (s.vec y a) i else lane 32 hi (i - 16)), (r i).sr))
    let qe := (0, q.2.2) :: (q.2.1.zipIdx.map fun p => (p.2, p.1.flags))
    let ts := readElem (r 0) 1 (lane 32 (s.vec y b) 0)
    let scale := lane 8 (s.vec y a) 32
    let ds := (List.range 32).map fun i =>
      if ts.isNan || scale == 255 then plain (canonicalNan 1)
      else mulRounded (r i) 1 (mxElem ef scale (lane (elemBits ef) (s.vec y a) i)) ts
    let de := ds.zipIdx.map fun p => (p.2, p.1.flags)
    s.runs [
      (.vcvt x f d a g m z, (s.takeSr true).landLanes y d wd 3 (z == 1)
        (fun i => decide (i < min (512 / ws) (512 / wd)) && (s.mask m).getLsbD (maskBit wd i))
        fun i => convert (r i) g.toNat f.toNat (lane ws (s.vec y a) i)),
      (.vmxq x d a b e, (s.takeSr true).onHere fun c => c.landFlagged (vPort y d.toNat) 3
        (ofLanes (elemBits ef) (q.2.1.map (·.code)) + 2 ^ 256 * q.1) (flagsOf qe) (offerOf s.osn qe)),
      (.vmxd x d a b e, (s.takeSr true).onHere fun c =>
        (c.landFlagged (vPort y d.toNat) 3 (ofLanes 32 ((ds.take 16).map (·.code))) (flagsOf de) (offerOf s.osn de)).land
          (vPort y (d.toNat + 1)) 3 (ofLanes 32 ((ds.drop 16).map (·.code)))),
      (.vrcpeF32 x d a m z, special 1 4 false rcpe), (.vrcpeF64 x d a m z, special 0 4 false rcpe),
      (.vrsqeF32 x d a m z, special 1 4 false rsqe), (.vrsqeF64 x d a m z, special 0 4 false rsqe),
      (.vfexpF32 x d a m z, special 1 6 false fexp), (.vfexpF64 x d a m z, special 0 6 false fexp),
      (.vgetexpF32 x d a m z, special 1 2 false getexp), (.vgetexpF64 x d a m z, special 0 2 false getexp),
      (.vrndiF32 x d a m z, special 1 3 true rndi), (.vrndiF64 x d a m z, special 0 3 true rndi),
      (.vrndiIF32 x d a m z, special 1 3 true fun r fmt v => convert r fmt 13 v),
      (.vrndiIF64 x d a m z, special 0 3 true fun r fmt v => convert r fmt 14 v),
      (.vclassF32 x d a m z, special 1 2 false classOf), (.vclassF64 x d a m z, special 0 2 false classOf),
      (.vscalebF32 x d a b m z, scaled 1), (.vscalebF64 x d a b m z, scaled 0)]

/-- Outside the message-handler context each movement word and each reduction lands its result after the latency of R60. -/
def movementAndReductionWords : Prop :=
  ∀ (s : State) (x h e : BitVec 1) (o : BitVec 2) (d a b n : BitVec 5) (m : BitVec 3) (z : BitVec 1),
    s.here.inHandler = false →
    let y := x == 1
    let w := intWidth o
    let bytes := fun (lat : Nat) (f : Nat → Nat) =>
      s.landLanes y d 8 lat (z == 1) (fun i => (s.mask m).getLsbD i) fun i => plain (f i)
    let byte := fun (v : Vec) (i : Nat) => lane 8 v i
    let whole := fun (lat v : Nat) => s.onHere fun c => c.land (vPort y d.toNat) lat v
    let el := lane w (s.vec y a) (32 * h.toNat + n.toNat)
    let ix := byte (s.vec y d)
    let reduced := fun (w : Nat) (f : Nat → List (Option Nat) → Rounded) =>
      let r := f (lane w (s.vec y b) 0) ((List.range (512 / w)).map fun i =>
        if (s.mask m).getLsbD i then some (lane w (s.vec y a) i) else none)
      s.onHere fun c => c.landFlagged (vPort y d.toNat) 6 (r.code % 2 ^ w) r.flags (Offer.ofElem s.osn 0 r.flags)
    let near := Rnd.ofMode s.mode 0
    s.runs [
      (.vsel x d a b m, whole 2 (ofLanes 8 ((List.range 64).map fun i =>
        if (s.mask m).getLsbD i then byte (s.vec y a) i else byte (s.vec y b) i))),
      (.vmov x d a m z, bytes 2 (byte (s.vec y a))),
      (.vxmov x d a m z, bytes 2 (byte (s.vec (!y) a))),
      (.vbcast x d a o m z, s.landLanes y d w 3 (z == 1) (fun i => (s.mask m).getLsbD (maskBit w i))
        fun _ => plain ((s.reg a).toNat % 2 ^ w)),
      (.vext x d a n h o e, s.toReg d 3 (BitVec.ofNat 64 (if e = 1 then signExtended (w / 8) el else el))),
      (.vins x d a n h o, whole 3 (ofLanes w ((List.range (512 / w)).map fun i =>
        if i = 32 * h.toNat + n.toNat then (s.reg a).toNat % 2 ^ w else lane w (s.vec y d) i))),
      (.vperm x d a b m z, bytes 3 fun i =>
        if 128 ≤ byte (s.vec y b) i then 0 else byte (s.vec y a) (byte (s.vec y b) i % 64)),
      (.vshuf x d a b m z, bytes 3 fun i =>
        if 128 ≤ ix i then 0 else if ix i < 64 then byte (s.vec y a) (ix i) else byte (s.vec y b) (ix i - 64)),
      (.vredAddF32 x d a b m, reduced 32 (redAddFloat near 1)), (.vredAddF64 x d a b m, reduced 64 (redAddFloat near 0)),
      (.vredMinF32 x d a b m, reduced 32 (redMinMax false near)), (.vredMaxF32 x d a b m, reduced 32 (redMinMax true near)),
      (.vredAddI32 x d a b m, reduced 32 (redAddInt 32)), (.vredAddI64 x d a b m, reduced 64 (redAddInt 64)),
      (.vredMinI32 x d a b m, reduced 32 (redMinMaxInt false)), (.vredMaxI32 x d a b m, reduced 32 (redMinMaxInt true))]

/-- Outside the message-handler context each compare and each word on k registers lands its mask, KMOV to a scalar
register and KPOP their number, two cycles later; a compare writes the active lanes, keeps or zeroes the inactive ones,
and zeroes the bits above the lanes. -/
def maskWords : Prop :=
  ∀ (s : State) (x j : BitVec 1) (t : BitVec 2) (k n o m : BitVec 3) (d a b : BitVec 5) (z : BitVec 1),
    s.here.inHandler = false →
    let y := x == 1
    let compared := fun (lanes : Nat) (f : Nat → Bool × BitVec 8) =>
      let rs := (List.range lanes).map fun i =>
        if (s.mask m).getLsbD i then (i, f i) else (i, (z != 1 && (s.here.held_ (.k k.toNat)).testBit i, 0))
      s.toMask k 2 ((rs.map fun r => bitAt r.2.1 r.1).foldl (· + ·) 0) (rs.map fun r => (r.1, r.2.2))
    let fmt := laneFmt t
    let fw := elemBits fmt
    let p := fun i => readElem (s.rnd s.mode i) fmt (lane fw (s.vec y a) i)
    let q := fun i => readElem (s.rnd s.mode i) fmt (lane fw (s.vec y b) i)
    let floats := fun (any : Bool) (f : Machine.Num → Machine.Num → Bool) => compared (512 / fw) fun i =>
      (f (p i) (q i), ivIf ((p i).signals || (q i).signals || (any && ((p i).isNan || (q i).isNan))))
    let iw := if j = 1 then 64 else 32
    let ints := fun (f : Nat → Nat → Bool) =>
      compared (512 / iw) fun i => (f (lane iw (s.vec y a) i) (lane iw (s.vec y b) i), 0)
    let lands := fun (v : W64) => s.toMask k 2 v.toNat []
    s.runs [
      (.vcmpEqFloat x t k a b m z, floats false fun p q => Num.eq p q),
      (.vcmpLtFloat x t k a b m z, floats true fun p q => Num.lt p q),
      (.vcmpLeFloat x t k a b m z, floats true fun p q => Num.lt p q || Num.eq p q),
      (.vcmpUnFloat x t k a b m z, floats false fun p q => p.isNan || q.isNan),
      (.vcmpEqInt x j k a b m z, ints fun p q => p == q),
      (.vcmpLtInt x j k a b m z, ints fun p q => decide (signed iw p < signed iw q)),
      (.vcmpLtuInt x j k a b m z, ints fun p q => decide (p < q)),
      (.vcmpLeInt x j k a b m z, ints fun p q => decide (signed iw p ≤ signed iw q)),
      (.kand x k n o, lands (s.mask n &&& s.mask o)), (.kor x k n o, lands (s.mask n ||| s.mask o)),
      (.kxor x k n o, lands (s.mask n ^^^ s.mask o)), (.knot x k n, lands (~~~(s.mask n))), (.kmov x k n, lands (s.mask n)),
      (.kmovFromS x k a, lands (s.reg a)), (.kmovToS x d n, s.toReg d 2 (s.mask n)),
      (.kpop x d n, s.toReg d 2 (BitVec.ofNat 64 (onesBelow (s.mask n) 64))),
      (.kuni x k n t, s.toMask k 2 (ofLanes 1 ((List.range 64).map fun i =>
        ((s.mask n).getLsbD (i * (8 * 2 ^ t.toNat) / 64)).toNat)) [])]

/-- The vector words that compute: floating point, integers, dot products, conversions and special functions (R60, R185 to
R202). -/
def Obligations.VectorArithmeticWords : Prop := floatingWords ∧ integerAndDotWords ∧ conversionAndSpecialWords

/-- The vector words that move, reduce and compare, and the words on k registers (R60, R188, R193, R203 to R206). -/
def Obligations.MovementReductionAndMaskWords : Prop := movementAndReductionWords ∧ maskWords

/-- The V word of an instruction: its major opcode, its op and its zeroing bit, in the places of R42 and R53. -/
def vFields (w : W32) : Nat × Nat × Nat := (w.toNat / 2 ^ 27 % 16, w.toNat / 2 ^ 19 % 128, w.toNat % 2)

/-- VSEL (R193): major 0x6, op 0x28, the zeroing bit zero, the mask field the selector; each of the 64 bytes is that of a
where the selector's bit is one and that of b where it is zero; it lands two cycles later and raises no flag. -/
def Obligations.SelectTakesBytesByMask : Prop :=
  ∀ (s : State) (x : BitVec 1) (d a b : BitVec 5) (k : BitVec 3), s.here.inHandler = false →
    (∀ c, ∃ w, encode c (.vsel x d a b k) = some w ∧ vFields w = (6, 0x28, 0) ∧ w.toNat / 2 % 8 = k.toNat) ∧
    ∃ v : Vec, exec (.vsel x d a b k) s = .next (s.onHere fun c => c.land (vPort (x == 1) d.toNat) 2 v.toNat) ∧
      ∀ j, j < 64 → lane 8 v j =
        if (s.mask k).getLsbD j then lane 8 (s.vec (x == 1) a) j else lane 8 (s.vec (x == 1) b) j

/-- VPERM and VSHUF (R204): ops 0x2E and 0x2F, three cycles, masked by bytes. Byte j of VPERM is the byte of a that the low six
bits of index byte j of b name, or zero where the index has bit 7; of VSHUF it is the byte of the table of a and b that the
low seven bits of byte j of the old d name, or zero likewise. A byte that the mask leaves out is kept or zeroed. -/
def Obligations.PermutesSelectBytesByIndex : Prop :=
  ∀ (s : State) (x : BitVec 1) (d a b : BitVec 5) (m : BitVec 3) (z : BitVec 1), s.here.inHandler = false →
    let y := x == 1
    let va := s.vec y a
    let vb := s.vec y b
    let vd := s.vec y d
    let table := fun n => if n < 64 then lane 8 va n else lane 8 vb (n - 64)
    let masked := fun (f : Nat → Nat) (v : Vec) => ∀ j, j < 64 → lane 8 v j =
      if (s.mask m).getLsbD j then f j else if z = 1 then 0 else lane 8 (s.oldVec y d) j
    let lands := fun (v : Vec) => s.onHere fun c => c.landFlagged (vPort y d.toNat) 3 v.toNat 0 none
    (∀ c, ∃ w, encode c (.vperm x d a b m z) = some w ∧ (vFields w).1 = 6 ∧ (vFields w).2.1 = 0x2E) ∧
    (∀ c, ∃ w, encode c (.vshuf x d a b m z) = some w ∧ (vFields w).1 = 6 ∧ (vFields w).2.1 = 0x2F) ∧
    (∃ v : Vec, exec (.vperm x d a b m z) s = .next (lands v) ∧
      masked (fun j => if (lane 8 vb j).testBit 7 then 0 else lane 8 va (lane 8 vb j % 64)) v) ∧
    (∃ v : Vec, exec (.vshuf x d a b m z) s = .next (lands v) ∧
      masked (fun j => if (lane 8 vd j).testBit 7 then 0 else table (lane 8 vd j % 128)) v)

/-- The lanes that land (R63, R181): of a lane width that divides the register, an active lane holds its result's code, an
inactive one is zero with the zeroing bit and otherwise what the register held; the flags are those of the active lanes. -/
def Obligations.LanesKeepOrZeroWhereInactive : Prop :=
  ∀ (s : State) (y : Bool) (d : BitVec 5) (w lat : Nat) (z : Bool) (on : Nat → Bool) (f : Nat → Rounded),
    0 < w → w ∣ 512 →
    ∃ (v : Vec) (flags : BitVec 8) (o : Option Offer),
      s.landLanes y d w lat z on f = s.onHere (fun c => c.landFlagged (vPort y d.toNat) lat v.toNat flags o) ∧
      (∀ i, i < 512 / w → lane w v i =
        if on i then (f i).code % 2 ^ w else if z then 0 else lane w (s.oldVec y d) i) ∧
      (∀ n, flags.getLsbD n = true ↔ ∃ i, i < 512 / w ∧ on i = true ∧ (f i).flags.getLsbD n = true)

/-- Words of major 0x5, 0x6 and 0x7 raise an illegal-instruction trap in the message-handler context, as do VLD, VST, VGATHER,
VSCATTER, KVLD, KVST and the vector form of MEET, for the context has no vector registers; a word may have counted its
stochastic value by then.
The model's own readings that it rests on: log 24. -/
def Obligations.VectorAndMatrixWordsTrapInTheHandler : Prop :=
  ∀ (s : State) (i : Instr) (c : Bool) (w : W32), i.wellFormed = true → encode c i = some w → s.here.inHandler = true →
    (w.toNat / 2 ^ 27 % 16 = 5 ∨ w.toNat / 2 ^ 27 % 16 = 6 ∨ w.toNat / 2 ^ 27 % 16 = 7 ∨
      (match i with
       | .vld _ _ _ _ _ => True
       | .vst _ _ _ _ => True
       | .vgather _ _ _ _ _ _ => True
       | .vscatter _ _ _ _ _ => True
       | .kvld _ _ _ _ _ => True
       | .kvst _ _ _ _ => True
       | .meet _ _ _ _ _ => True
       | _ => False)) →
    exec i s = .next s.illegal ∨ exec i s = .next (s.takeSr true).illegal

/-- The words that consume a stochastic-rounding value when MODE.RM is 4 (R183). -/
def consumesRandom : Instr → Bool
  | .vadd _ _ _ _ _ _ _ => true
  | .vsub _ _ _ _ _ _ _ => true
  | .vmul _ _ _ _ _ _ _ => true
  | .vfma _ _ _ _ _ _ _ => true
  | .vfms _ _ _ _ _ _ _ => true
  | .vfnma _ _ _ _ _ _ _ => true
  | .vdiv _ _ _ _ _ _ _ => true
  | .vsqrt _ _ _ _ _ _ => true
  | .vscalebF32 _ _ _ _ _ _ => true
  | .vscalebF64 _ _ _ _ _ _ => true
  | .vrndiF32 _ _ _ _ _ => true
  | .vrndiF64 _ _ _ _ _ => true
  | .vrndiIF32 _ _ _ _ _ => true
  | .vrndiIF64 _ _ _ _ _ => true
  | .vcvt _ _ _ _ _ _ _ => true
  | .vmxq _ _ _ _ _ => true
  | .vmxd _ _ _ _ _ => true
  | .vfxmulFix64 _ _ _ _ _ _ => true
  | _ => false

/-- R183: of the words of the majors 0x5 and 0x6 exactly those of its list take one stochastic-rounding value, and only when
MODE.RM is 4, whatever their masks; dot products and sums round their groups as with RM 0 when RM is 4; and the
estimates and VFEXP give the same for every RM. -/
def Obligations.StochasticValuesAreTakenByTheListedWords : Prop :=
  (∀ (s t : State) (i : Instr) (c : Bool) (w : W32), s.here.inHandler = false → encode c i = some w →
    w.toNat / 2 ^ 27 % 16 = 5 ∨ w.toNat / 2 ^ 27 % 16 = 6 → exec i s = .next t →
    t.here.iss.srUsed = s.here.iss.srUsed + (if consumesRandom i && fieldOf s.mode 0 3 == 4 then 1 else 0)) ∧
  (∀ (r : Rnd) (fmt acc : Nat) (ts : Machine.Num) (a b : List (Nat × Nat)),
    dot { r with rm := 4 } fmt ts acc a b = dot { r with rm := 0 } fmt ts acc a b) ∧
  (∀ (r : Rnd) (fmt acc : Nat) (us : List (Option Nat)),
    redAddFloat { r with rm := 4 } fmt acc us = redAddFloat { r with rm := 0 } fmt acc us) ∧
  (∀ (r : Rnd) (rm fmt v : Nat), rcpe { r with rm := rm } fmt v = rcpe r fmt v ∧
    rsqe { r with rm := rm } fmt v = rsqe r fmt v ∧ fexp { r with rm := rm } fmt v = fexp r fmt v)

/-! Loads and stores. -/

/-- A load at an admitted offset, with a free entry of the threshold buffer, asks the banks for the bytes there, which go
into its register extended as it says (R163, R164, R299); it sends no other request. -/
def loadsDeliver : Prop :=
  ∀ (s : State) (cluster : Bool) (size : Nat) (d a l : BitVec 5) (f : BitVec 6) (y : BitVec 1),
    let ea := effective (s.reg a) f size
    let o := ea.toNat
    let delivers := fun (port : Port) (ext : Nat) =>
      (s.loadNow port (if cluster then 20 else 5) l.toNat 0 [Want.of cluster o size 0 (grantLatency cluster)]
        ext).traceAccess cluster o size
    let r := s.here.sPort d.toNat
    admitted cluster ea size = true → s.here.buffered < 64 →
    (cluster = false → size = 1 → s.runs [(.ldB d a l f, delivers r 1), (.ldBu d a l f, delivers r 0)]) ∧
    (cluster = false → size = 2 → s.runs [(.ldH d a l f, delivers r 2), (.ldHu d a l f, delivers r 0)]) ∧
    (cluster = false → size = 4 → s.runs [(.ldW d a l f, delivers r 4), (.ldWu d a l f, delivers r 0)]) ∧
    (cluster = false → size = 8 → s.runs [(.ldD d a l f, delivers r 0)]) ∧
    (cluster = true → size = 4 → s.runs [(.kldW d a l f, delivers r 4), (.kldWu d a l f, delivers r 0)]) ∧
    (cluster = true → size = 8 → s.runs [(.kldD d a l f, delivers r 0)]) ∧
    (s.here.inHandler = false → size = 64 →
      (cluster = false → s.runs [(.vld y d a l f, delivers (vPort (y == 1) d.toNat) 0)]) ∧
      (cluster = true → s.runs [(.kvld y d a l f, delivers (vPort (y == 1) d.toNat) 0)]))

/-- When the bank grants the one request of a load, its result holds the bytes as every write granted before left them,
sign-extended from the width that the load names or zero-extended, and an uncorrectable line makes its delivery a machine
check; the data come as many periods after the grant as the request says, and where that is by the landing cycle they wait for it
in the threshold buffer, otherwise they are late (R68, R125, R127, R128, R164). -/
def grantsFill : Prop :=
  ∀ (s : State) (core n : Nat) (l : Landing) (w : Want),
    (s.core core).landings[n]? = some l → l.wants = [w] → l.val = 0 → w.place = 0 → l.err = none →
    let t := s.grantAt core n w
    let v := bytesToNat (s.coreRead core w.cluster w.off w.size)
    ∃ m, (t.core core).landings[n]? = some m ∧ m.wants = [] ∧ m.port = l.port ∧ m.due = l.due ∧
      (w.size ≤ 64 → m.val = BitVec.ofNat 512 (if l.ext = 0 then v else signExtended l.ext v)) ∧
      m.err = (if s.badAt core w.cluster w.off w.size then some (padTval w.cluster w.off) else none) ∧
      m.ready = max l.ready ((s.core core).grantPeriod s.fresh w + w.lat) ∧
      m.arrived = decide (m.ready ≤ l.due + (s.core core).frozen.toNat) ∧ t.agenda = s.agenda

/-- A store at an admitted offset stores the low bytes of its register there, byte 0 lowest (R163 to R165, R299). -/
def storesWrite : Prop :=
  ∀ (s : State) (cluster : Bool) (size : Nat) (d a : BitVec 5) (f : BitVec 6) (y : BitVec 1),
    let ea := effective (s.reg a) f size
    let stores := fun (v : Nat) =>
      (s.store cluster ea.toNat (natToBytes size v)).traceAccess cluster ea.toNat size
    admitted cluster ea size = true →
    (cluster = false → size = 1 → s.runs [(.stB d a f, stores (s.reg d).toNat)]) ∧
    (cluster = false → size = 2 → s.runs [(.stH d a f, stores (s.reg d).toNat)]) ∧
    (cluster = false → size = 4 → s.runs [(.stW d a f, stores (s.reg d).toNat)]) ∧
    (cluster = false → size = 8 → s.runs [(.stD d a f, stores (s.reg d).toNat)]) ∧
    (cluster = true → size = 4 → s.runs [(.kstW d a f, stores (s.reg d).toNat)]) ∧
    (cluster = true → size = 8 → s.runs [(.kstD d a f, stores (s.reg d).toNat)]) ∧
    (s.here.inHandler = false → size = 64 →
      (cluster = false → s.runs [(.vst y d a f, stores (s.vec (y == 1) d).toNat)]) ∧
      (cluster = true → s.runs [(.kvst y d a f, stores (s.vec (y == 1) d).toNat)]))

/-- VGATHER and VSCATTER, where every active offset is admitted: the gather asks for each active element by itself and
delivers an inactive one as the register's old lane; the scatter stores the active elements, line by line (R207, R208). -/
def gatherAndScatterComplete : Prop :=
  ∀ (s : State) (x : BitVec 1) (d b l : BitVec 5) (a : BitVec 4) (m : BitVec 3),
    s.here.inHandler = false →
    let es := s.offsets x b a m
    badOffset es = none →
    (s.here.buffered < 64 →
      exec (.vgather x d b a m l) s = .next (s.loadNow (vPort (x == 1) d.toNat) 12 l.toNat
        (ofLanes 32 (es.zipIdx.map fun e => match e.1 with
          | some _ => 0
          | none => lane 32 (s.oldVec (x == 1) d) e.2))
        (es.zipIdx.filterMap fun e => e.1.map fun o => Want.of false o.toNat 4 (4 * e.2) 11)
        0).traceLanes) ∧
    (let ws := es.zipIdx.filterMap fun e => e.1.map fun o => (o.toNat, natToBytes 4 (lane 32 (s.vec (x == 1) d) e.2))
     exec (.vscatter x d b a m) s = .next ((((ws.map fun w => w.1 / 64).eraseDups).foldl (fun s n =>
       s.storeLine false n (fun c => (ws.filter (fun w => w.1 / 64 == n)).foldl (fun c w => overlay c (w.1 % 64) w.2) c)
         false) s).traceLanes))

/-- The words that load and store, and what a bank's grant gives a load (R68, R125, R127, R163 to R165, R207, R299).
The model's own readings that it rests on: log 15, 22 and 23. -/
def Obligations.LoadAndStoreWords : Prop := loadsDeliver ∧ grantsFill ∧ storesWrite ∧ gatherAndScatterComplete

/-- The instructions of R116 with the scratchpad that they reach, their access size and their base register and offset
field. -/
def accessOf : Instr → Option (Bool × Nat × BitVec 5 × BitVec 6)
  | .ldB _ a _ f => some (false, 1, a, f)
  | .ldBu _ a _ f => some (false, 1, a, f)
  | .ldH _ a _ f => some (false, 2, a, f)
  | .ldHu _ a _ f => some (false, 2, a, f)
  | .ldW _ a _ f => some (false, 4, a, f)
  | .ldWu _ a _ f => some (false, 4, a, f)
  | .ldD _ a _ f => some (false, 8, a, f)
  | .stB _ a f => some (false, 1, a, f)
  | .stH _ a f => some (false, 2, a, f)
  | .stW _ a f => some (false, 4, a, f)
  | .stD _ a f => some (false, 8, a, f)
  | .vld _ _ a _ f => some (false, 64, a, f)
  | .vst _ _ a f => some (false, 64, a, f)
  | .kldW _ a _ f => some (true, 4, a, f)
  | .kldWu _ a _ f => some (true, 4, a, f)
  | .kldD _ a _ f => some (true, 8, a, f)
  | .kstW _ a f => some (true, 4, a, f)
  | .kstD _ a f => some (true, 8, a, f)
  | .kvld _ _ a _ f => some (true, 64, a, f)
  | .kvst _ _ a f => some (true, 64, a, f)
  | _ => none

/-- An access whose effective offset, computed exactly and without wrapping, is negative, ends beyond 8 MiB of the core's or
16 MiB of the cluster's scratchpad, or is no multiple of its size raises an alignment trap at its bundle, with TVAL the
offset, before anything is read or written (R116). So does a VGATHER or VSCATTER with such an active offset, with TVAL the one of
the lowest lane that fails (R207). -/
def Obligations.UnadmittedAccessesTrap : Prop :=
  (∀ (s : State) (i : Instr) (cluster : Bool) (size : Nat) (a : BitVec 5) (f : BitVec 6),
    accessOf i = some (cluster, size, a, f) → (size = 64 → s.here.inHandler = false) →
    let ea : Int := (s.reg a).toInt + f.toInt * size
    (ea < 0 ∨ (if cluster then 16 * 2 ^ 20 else 8 * 2 ^ 20 : Int) < ea + size ∨ ea % size ≠ 0) →
    exec i s = .next (s.fault 10 (BitVec.ofInt 64 ea) 0)) ∧
  ∀ (s : State) (x : BitVec 1) (d b l : BitVec 5) (a : BitVec 4) (m : BitVec 3) (i : Nat),
    s.here.inHandler = false → i < 16 →
    let ea := fun (j : Nat) => (s.regN a.toNat).toInt + (lane 32 (s.vec (x == 1) b) j : Nat)
    let fails := fun (j : Nat) => (s.mask m).getLsbD j = true ∧ (ea j < 0 ∨ (8 * 2 ^ 20 : Int) < ea j + 4 ∨ ea j % 4 ≠ 0)
    fails i → (∀ j, j < i → ¬fails j) →
    exec (.vgather x d b a m l) s = .next (s.fault 10 (BitVec.ofInt 64 (ea i)) 0) ∧
    exec (.vscatter x d b a m) s = .next (s.fault 10 (BitVec.ofInt 64 (ea i)) 0)

/-- A load after a store of the same core reads what the store left: the value's low bytes where the store wrote, and what
a load read before everywhere else (R65, R164); requests of older loads for the line are granted before it. A store leaves
the registers, the control registers and every byte of HBM as they were.
The model's own readings that it rests on: log 23. -/
def Obligations.LoadsSeeTheStoresBeforeThem : Prop :=
  ∀ (s t : State) (i : Instr) (cluster : Bool) (size : Nat) (a : BitVec 5) (f : BitVec 6) (v : Nat),
    accessOf i = some (cluster, size, a, f) →
    (match i with
     | .stB d _ _ => v = (s.reg d).toNat
     | .stH d _ _ => v = (s.reg d).toNat
     | .stW d _ _ => v = (s.reg d).toNat
     | .stD d _ _ => v = (s.reg d).toNat
     | .kstW d _ _ => v = (s.reg d).toNat
     | .kstD d _ _ => v = (s.reg d).toNat
     | .vst y d _ _ => v = (s.vec (y == 1) d).toNat
     | .kvst y d _ _ => v = (s.vec (y == 1) d).toNat
     | _ => False) →
    (size = 64 → s.here.inHandler = false) →
    let ea := effective (s.reg a) f size
    admitted cluster ea size = true → Memory.wf (s.pad s.cur cluster) = true →
    (∀ o ∈ s.here.oldLines, o.cluster = false → o.bytes.length = 64) → exec i s = .next t →
    let o := ea.toNat
    (∀ k, k < size → Memory.get (t.pad s.cur cluster) (o + k) = (natToBytes size v).getD k 0) ∧
    (∀ b, b < o ∨ o + size ≤ b → Memory.get (t.pad s.cur cluster) b = Memory.get (s.pad s.cur cluster) b) ∧
    (∀ c b, ¬(c = s.cur ∧ cluster = false) → Memory.get (t.core c).scratch b = Memory.get (s.core c).scratch b) ∧
    (∀ c b, ¬(c = clusterOf s.cur ∧ cluster = true) →
      Memory.get (t.cluster c).scratch b = Memory.get (s.cluster c).scratch b) ∧
    (∀ b, Memory.get t.hbm b = Memory.get s.hbm b) ∧
    (cluster = false → t.ownRead false o size = natToBytes size v) ∧
    (∀ p, t.here.held_ p = s.here.held_ p) ∧ t.here.main = s.here.main ∧ t.here.hand = s.here.hand ∧
    t.here.landings = (s.grantLine cluster (o / 64)).here.landings ∧
    ((∀ l ∈ s.here.landings, l.wants = []) → t.here.landings = s.here.landings)

/-! Control words. -/

/-- The control words that go on or branch: NOP does nothing; BR, JMP, CALL and RET whose condition holds branch with their
target three cycles later, and CALL lands its link; whose condition fails they only apply the drain bit; FENCE.L marks
the stores of its context and has the next bundle wait until its accesses so far have been granted (R166 to R168, R170). -/
def branchWords : Prop :=
  ∀ (s : State) (r n : BitVec 1) (g : BitVec 3) (d : BitVec 16) (a : BitVec 5),
    let v := (s.reg a).toNat
    let dr := s.drainBit r
    let onto := fun (kind n : Nat) => (dr.branch n 3).traced kind n
    let linked := fun (n : Nat) => ((dr.branch n 3).link).traced 1 n
    let target := packetTarget s.here.iss.word d.toInt
    s.runs [
      (.nop, s),
      (.fenceL, (s.fenceStores s.cur s.here.inHandler).onHere fun c => { c with fence := some (c.cycle, c.inHandler) })] ∧
    (s.guarded g (n == 1) = true → s.runs [(.br r g n d, onto 1 target), (.callDisp r g n d, (onto 1 target).link)]) ∧
    (s.guarded g (n == 1) = true → s.codeValid s.here = true → (s.here.codeWords ≤ v ∨ v % 3 = 0) →
      s.runs [(.jmp r g n a, onto 1 v), (.ret r g n a, onto returnKind v), (.callReg r g n a, linked v)]) ∧
    (s.guarded g (n == 1) = true → s.codeValid s.here = true → v < s.here.codeWords → v % 3 ≠ 0 →
      s.runs [(.jmp r g n a, dr.misaligned (s.reg a)), (.ret r g n a, dr.misaligned (s.reg a)),
        (.callReg r g n a, dr.misaligned (s.reg a))]) ∧
    (s.guarded g (n == 1) = false →
      s.runs [(.br r g n d, dr), (.jmp r g n a, dr), (.callDisp r g n d, dr), (.callReg r g n a, dr), (.ret r g n a, dr)])

/-- BRV outside the message-handler context: on a mask of ones BRV.ALL branches and BRV.NONE goes on, on a mask of zeros the
other way round, with the drain bit either way; on every other mask the non-uniform-branch trap is taken with the mask
as TVAL (R169). -/
def maskBranches : Prop :=
  ∀ (s : State) (r : BitVec 1) (k : BitVec 3) (d : BitVec 16), s.here.inHandler = false →
    let m := s.mask k
    let on := (s.drainBit r).traced 4 m.toNat
    (m = BitVec.allOnes 64 → s.runs [(.brvAll r k d, on.branchBy d), (.brvNone r k d, on)]) ∧
    (m = 0 → s.runs [(.brvAll r k d, on), (.brvNone r k d, on.branchBy d)]) ∧
    (m ≠ BitVec.allOnes 64 → m ≠ 0 → s.runs [(.brvAll r k d, s.fault 6 m 0), (.brvNone r k d, s.fault 6 m 0)])

/-- LOOP outside handler mode with no loop active sets its counter to the trip count; with trips it makes the bundles after
it the body; without, it goes on behind them three cycles later. Its last bundle repeats the body while the counter
exceeds one, and ends the loop with the counter zero otherwise (R171). The counter takes these values unless an MTC to it has not
landed yet (R62). -/
def loopWords : Prop :=
  (∀ (c : Core) (fresh i : Nat) (v : W32), (∀ l ∈ c.landings, l.port ≠ .creg false (0x00C + i)) →
    c.setCounter fresh i v = { c with lc := c.lc.set i v }) ∧
  ∀ (s : State) (n : BitVec 8) (l : BitVec 1) (a : BitVec 5),
    let trips := (s.reg a).setWidth 32
    let set := s.onHere fun c => (c.setCounter s.fresh l.toNat trips).cleanReg (160 + l.toNat)
    let next := s.here.iss.last + 1
    let skip := s.skipBundles s.here (s.here.codeWords + 1 - next) (n.toNat + 1) next
    (s.here.handlerMode = false → s.here.loop.active = false → trips ≠ 0 →
      s.runs [(.loop n l a, set.onHere fun c =>
        { c with loop := { active := true, sel := l == 1, count := n.toNat + 1, body := [], pos := 0, next := next } })]) ∧
    (s.here.handlerMode = false → s.here.loop.active = false → trips = 0 → s.codeValid s.here = true → skip.2 = true →
      s.runs [(.loop n l a, (set.noteWords s.here ((List.range (skip.1 + 1 - next)).map (next + ·))).onHere fun c =>
        { c with iss := { c.iss with npc := skip.1, taken := true, lat := max c.iss.lat 3 } })]) ∧
    (s.here.handlerMode = true ∨ s.here.loop.active = true → s.runs [(.loop n l a, s.illegal)]) ∧
    (∀ core, s.cur = core → s.here.loop.active = true →
      let i := if s.here.loop.sel then 1 else 0
      let lc := (s.cregAt (0x00C + i)).setWidth 32
      let first := (s.here.loop.body.headD (0, [])).1
      s.runs [(.loopBack core, s.onHere fun c =>
        if 1 < lc.toNat then
          { c.setCounter s.fresh i (lc - 1) with
            loop := { c.loop with pos := 0, next := first }, iss := { c.iss with npc := first } }
        else { c.setCounter s.fresh i 0 with loop := { c.loop with active := false, body := [], pos := 0 } })])

/-- BSEL with a well-formed table in the code range: the first bucket whose bound is at least the dimension is taken, with s28
holding the bound and the padding and k7 the pad mask after 3 + floor(m / 4) cycles and the target one cycle later; where
no bucket holds it, s28 and k7 are zero and control goes on (R174, R175). -/
def bucketSelectionCompletes : Prop :=
  ∀ (s : State) (r : BitVec 1) (a : BitVec 5) (t : BitVec 11) (p : Nat) (h : W32),
    s.here.inHandler = false → s.codeValid s.here = true → ((s.here.iss.word / 3 : Nat) : Int) + t.toInt = p →
    s.codeWord s.here 6 (3 * p) = .ok h → fieldOf h 10 22 = 0 → fieldOf h 0 8 ≠ 0 →
    let dim := (s.reg a).toNat
    let w := 8 * 2 ^ fieldOf h 8 2
    let u := s.noteWords s.here ((List.range (1 + 2 * fieldOf h 0 8)).map (3 * p + ·))
    let found := if dim < 2 ^ 32 then u.searchTable s.here p dim (fieldOf h 0 8) 0 none else .miss 0
    (∀ m, found = .miss m → s.runs [(.bsel r a t, (u.drainBit r).bucketResult m 0 0)]) ∧
    (∀ b d m, found = .hit b d m →
      let target := packetTarget (3 * p) (signed 32 d)
      s.runs [(.bsel r a t, (((u.drainBit r).branch target (4 + m / 4)).bucketResult m (2 ^ 32 * b + (b - dim))
        (padMask dim w)).traced 1 target)])

/-- The words that branch, loop and select a bucket (R166 to R175).
The model's own readings that it rests on: log 11, 18, 27, 115 and 121. -/
def Obligations.BranchAndLoopWords : Prop := branchWords ∧ maskBranches ∧ loopWords ∧ bucketSelectionCompletes

/-! System words. -/

/-- The control-register words, where the context and mode may reach the register: MFC lands the register's value two
cycles later, or an unspecified one inside its write window, MTC lands its operand in it two cycles later (R64, R162).
Elsewhere the illegal-instruction trap is taken. -/
def controlRegisterWords : Prop :=
  ∀ (s : State) (d a : BitVec 5) (r : BitVec 11),
    let c := s.here
    let port := Port.creg (c.cregCopy r.toNat) r.toNat
    (c.mayRead r.toNat = true → c.openWindow port = false →
      s.runs [(.mfc d r, s.toReg d 2 (BitVec.ofNat 64 (c.cregValue s.cur s.time r.toNat)))]) ∧
    (c.mayRead r.toNat = true → c.openWindow port = true →
      s.runs [(.mfc d r, s.toReg d 2 (BitVec.ofNat 64 ((Config.freeWord s.fresh (c.iss.word + 1) port.code).toNat % 2 ^ 64)))]) ∧
    (c.mayRead r.toNat = false → s.runs [(.mfc d r, s.illegal)]) ∧
    (c.mayWrite r.toNat = true → s.runs [(.mtc a r, s.onHere fun c => c.land port 2 (s.reg a).toNat)]) ∧
    (c.mayWrite r.toNat = false → s.runs [(.mtc a r, s.illegal)])

/-- TRAP requests its cause to be taken after its bundle, BKPT takes the breakpoint trap at its bundle, TRAPACK sets TACK in
handler mode, RETT returns in trap-handler mode, RETH ends a handler run in its own context; and each traps as an illegal
instruction where R178 says so. -/
def trapAndReturnWords : Prop :=
  ∀ (s : State) (k : BitVec 11),
    let c := s.here
    s.runs [
      (.trap k, s.onHere fun c => c.request {
        code := 15, tval := k.setWidth 64, tbundle := c.iss.start, xcode := 0, deferred := false, epc := none
        level := c.level }),
      (.bkpt k, s.fault 14 (k.setWidth 64) 0)] ∧
    (c.handlerMode = true → s.runs [(.trapack, s.onHere fun c => c.setCtx { c.ctx with tack := true })]) ∧
    (c.handlerMode = false → s.runs [(.trapack, s.illegal)]) ∧
    (c.inHandler = false → c.main.hmode = true →
      s.runs [(.rett, (s.traced 3 ((Config.freeWord s.fresh (c.iss.word + 1) 9100).toNat % 2 ^ 64)).returnFromTrap)]) ∧
    (c.inHandler = true ∨ c.main.hmode = false → s.runs [(.rett, s.illegal)]) ∧
    (c.inHandler = true →
      s.runs [(.reth, (s.traced 10 0).endHandler.onHere fun c =>
        match c.savedSet, c.strand with
        | some _, some r => { c with savedSet := none, table := [], tableSet := some r.rset.toNat }
        | _, _ => { c with savedSet := none })]) ∧
    (c.inHandler = false → s.runs [(.reth, s.illegal)])

/-- The trace words: TRACE.W records its operand, TRACE.R lands an entry in a register pair two cycles later, TRIG.FIRE fires
an enabled trigger that has not fired, TRIG.REARM clears the buffer (R279); a trace register under an MTC of the cycle
before is sampled as R64 allows. -/
def traceWords : Prop :=
  ∀ (s : State) (d a : BitVec 5),
    let c := s.here
    let e := ((Sparse.get? c.trace.entries (fieldOf (s.reg a) 0 10)).getD 0).toNat
    let sampled := fun (c : Core) => c.early s.fresh s.time traceRegs
    let x := sampled c
    s.runs [
      (.traceW a, s.traced 8 (s.reg a).toNat),
      (.trigRearm, s.onHere fun c => { c with trace := { c.trace with stat := 0, entries := [], idx := 0, after := 0 } })] ∧
    (d.toNat ≠ 31 → (c.handlerMode = true → d.toNat ≠ 15) →
      s.runs [(.traceR d a, s.onHere fun c =>
        (c.land (c.sPort d.toNat) 2 (e % 2 ^ 64)).land (c.sPort (d.toNat + 1)) 2 (e / 2 ^ 64))]) ∧
    (flagOf x.trace.ctl 0 = true → x.trace.stat.getLsbD 1 = false →
      s.runs [(.trigFire, s.onHere fun c => { sampled c with
        trace := (sampled c).trace.fire s.fresh s.time (sampled c).inHandler (sampled c).handlerMode (sampled c).iss.start })]) ∧
    (flagOf x.trace.ctl 0 = false ∨ x.trace.stat.getLsbD 1 = true → s.runs [(.trigFire, s.onHere sampled)])

/-- The words on control registers, traps, returns and the trace buffer (R162, R177, R264, R266, R279).
The model's own readings that it rests on: log 11, 13, 16, 18, 23 and 124. -/
def Obligations.SystemWords : Prop := controlRegisterWords ∧ trapAndReturnWords ∧ traceWords

/-! Traps. -/

/-- Taking a trap (R261, R264): where the rule of two levels admits it, the request's bank holds EPC, TVAL, TBUNDLE and CAUSE
with V, XCODE, the codes that stay pending, DEFERRED and CODE; HMODE is set, TACK clear, control is at TVEC three cycles
later, and the other bank, the registers, the loop and every byte of memory are as before. Where the rule does not admit
it, the core halts with the cause in the second bank.
The model's own readings that it rests on: log 13. -/
def Obligations.TrapEntrySavesTheCause : Prop :=
  ∀ (s : State) (r : Request),
    let c := s.here
    let x := c.ctx
    let left := c.requests.erase r
    let bank : Bank := r.bank (r.epc.getD x.pc) (c.pendingCodes left)
    let t := s.enter s.cur r
    (∀ second, c.entryBank = some second →
      t.here.ctx.bank1 = (if second then x.bank1 else bank) ∧ t.here.ctx.bank2 = (if second then bank else x.bank2) ∧
      t.here.ctx.hmode = true ∧ t.here.ctx.tack = false ∧ t.here.ctx.pc = x.tvec.toNat ∧
      t.here.issueAt = c.cycle + 3 ∧ t.here.requests = left ∧ t.here.loop = c.loop ∧ t.here.inHandler = c.inHandler ∧
      (∀ p, t.here.held_ p = c.held_ p) ∧ t.here.scratch = c.scratch ∧ t.hbm = s.hbm ∧
      (∀ n, n ≠ s.cur → t.core n = s.core n)) ∧
    (bank.epc = BitVec.ofNat 32 (r.epc.getD x.pc) ∧ bank.tval = r.tval ∧ bank.tbundle = BitVec.ofNat 32 r.tbundle ∧
      bank.v = true ∧ bank.code = BitVec.ofNat 5 r.code ∧ bank.xcode = BitVec.ofNat 8 r.xcode ∧
      bank.deferred = r.deferred) ∧
    (c.entryBank = none → t.here.act = .halted ∧ t.here.requests = [] ∧ t.here.ctx.bank1 = x.bank1 ∧
      t.here.ctx.bank2 = bank)

/-- Which bank a trap enters (R261, R264, R266): outside trap-handler mode the first one, or the second one where CAUSE.V is set; in
the first level the second one after TRAPACK and none before it; in the second level none. In the message-handler context the
first level is told by either valid bank (R262). -/
def Obligations.SecondTrapNeedsAcknowledgement : Prop :=
  ∀ c : Core,
    (c.inHandler = false → c.main.hmode = false → c.entryBank = some c.main.bank1.v) ∧
    (c.inHandler = true → c.hand.bank1.v = false → c.hand.bank2.v = false → c.entryBank = some false) ∧
    ((c.inHandler = false ∧ c.main.hmode = true) ∨
      (c.inHandler = true ∧ (c.hand.bank1.v = true ∨ c.hand.bank2.v = true)) →
      (c.ctx.bank2.v = true → c.entryBank = none) ∧
      (c.ctx.bank2.v = false → c.ctx.tack = false → c.entryBank = none) ∧
      (c.ctx.bank2.v = false → c.ctx.tack = true → c.entryBank = some true))

/-- RETT (R177, R264): at the first level it clears CAUSE.V and HMODE and goes to EPC, at the second it clears CAUSE2.V, sets
TACK, keeps the first bank and goes to EPC2 in handler mode; three cycles later either way. No register and no byte of
memory changes. That this holds also with SUSPP set, and that the suspension follows at the next bundle, is the model's reading
(log 16). -/
def Obligations.ReturnRestoresTheLevel : Prop :=
  ∀ (s t : State), s.here.inHandler = false → s.here.main.hmode = true → exec .rett s = .next t →
    let x := s.here.main
    let y := t.here.main
    (x.bank2.v = false → y.bank1 = { x.bank1 with v := false } ∧ y.bank2 = x.bank2 ∧ y.hmode = false ∧ y.tack = false ∧
      t.here.iss.npc = x.bank1.epc.toNat) ∧
    (x.bank2.v = true → y.bank2 = { x.bank2 with v := false } ∧ y.bank1 = x.bank1 ∧ y.hmode = true ∧ y.tack = true ∧
      t.here.iss.npc = x.bank2.epc.toNat) ∧
    t.here.iss.lat = 3 ∧ y.mode = x.mode ∧ y.xflags = x.xflags ∧ y.tvec = x.tvec ∧ t.here.wdStart = s.time ∧
    (∀ p, t.here.held_ p = s.here.held_ p) ∧ t.here.scratch = s.here.scratch ∧ t.hbm = s.hbm

/-! Strands and groups. -/

/-- The words that make a strand leave, legal outside handler mode: SUSP, PIN.M, PIN.Q of a queue number, PIN.T, and PIN.B of
a bound object; END, legal outside the message-handler context, which in trap-handler mode also ends that mode (R79, R85,
R87). In handler mode SUSP and PIN trap, in the message-handler context END does, and PIN.Q of a number of 8 or more takes the
alignment trap. That END in trap-handler mode releases the count of a barrier that a PIN.B or BWAIT has bound and not sent is the
model's choice (log 130).
The model's own readings that it rests on: log 130. -/
def Obligations.LeavingWords : Prop :=
  ∀ (s : State) (d a : BitVec 5),
    let v := (s.reg a).toNat
    (s.here.handlerMode = false →
      s.runs [(.susp, s.leave .susp), (.pinM, s.leave .pinM), (.pinT a, s.leave (.pinT v))] ∧
      (v < 8 → s.runs [(.pinQ a, s.leave (.pinQ v))]) ∧
      (8 ≤ v → s.runs [(.pinQ a, s.misaligned (s.reg a))]) ∧
      (∀ b u, v % 64 = 0 → s.binds v 64 permS false b u → s.runs [(.pinB d a, u.leave (.pinB b d.toNat))])) ∧
    (s.here.handlerMode = true →
      s.runs [(.susp, s.illegal), (.pinM, s.illegal), (.pinT a, s.illegal), (.pinQ a, s.illegal), (.pinB d a, s.illegal)]) ∧
    (s.here.inHandler = true → s.runs [(.endStrand, s.illegal)]) ∧
    (s.here.handlerMode = false → s.runs [(.endStrand, s.leave .ended)]) ∧
    (s.here.inHandler = false → s.here.main.hmode = true →
      s.runs [(.endStrand, ((s.releaseAll s.cur s.here.unsent).leave .ended).onHere fun c => { c with
        strand := c.strand.map fun r => { r with trpend := true }
        main := { c.main with
          hmode := false, tack := false, suspp := false
          bank1 := { c.main.bank1 with v := false }
          bank2 := { c.main.bank2 with v := false } } })])

/-- POST and POSTN with a descriptor block at a multiple of 64 in the scratchpad, a translated affinity address and no
uncorrectable error in the block send the record that R80 builds to the event arbiter of its die, and their result waits for
the placement; at any other offset they take the alignment trap whatever the address translates to; DGST outside the message-handler context lands
half of the digest, or waits for the folds before it (R81, R92).
The model's own readings that it rests on: log 85 and 122. -/
def Obligations.PostAndDigestWords : Prop :=
  ∀ (s : State) (d a b l : BitVec 5), s.here.buffered < 64 →
    (blockOffset (s.reg b) = false →
      s.runs [(.post d a b l, s.misaligned (s.reg b)), (.postn d a b l, s.misaligned (s.reg b))]) ∧
    (∀ (u : State) (x : Bound), blockOffset (s.reg b) = true → s.translate (s.reg a).toNat 0 0 false = .ok u x →
      u.badAt u.cur false (s.reg b).toNat 64 = false → u.here.buffered < 64 →
      let va := (u.reg a).toNat
      let posts := fun (next : Bool) =>
        (u.askNow (u.here.sPort d.toNat) 24 l.toNat (.post (u.childRecord next (u.descriptor (s.reg b).toNat))
          (dieOfPa x.pa) (bucketOf va) next (BitVec.ofNat 48 va))).push (.postPlacement u.cur u.nextId)
      s.runs [(.post d a b l, posts false), (.postn d a b l, posts true)]) ∧
    (s.here.inHandler = false →
      let n := match s.here.strand with | some r => r.dslot.toNat | none => 0
      let port := s.here.sPort d.toNat
      (s.statusBlock n = none → s.runs [(.dgst d a l, s.timedNow port 24 l.toNat 0)]) ∧
      (∀ k, s.statusBlock n = some k → k.folds = [] →
        s.runs [(.dgst d a l, s.timedNow port 24 l.toNat (k.half (flagOf (s.reg a) 0)).toNat)]) ∧
      (∀ k, s.statusBlock n = some k → k.folds ≠ [] →
        s.runs [(.dgst d a l, (s.askNow port 24 l.toNat (.dgst (flagOf (s.reg a) 0))).onStatus n
          fun k => k.place s.nextId)]))

/-- The group words, with a free entry of the threshold buffer: each goes to the hub arbiter, which orders it and sends its
result (R78). When the arbiter takes it, GNEW takes the lowest free group id with its incarnation and the member count, or answers that none is free,
GJOIN and GLEAVE count one more and one less and answer the new count, GFREE begins the draining and answers the operations
outstanding, GINFO tells the entry; each failing check answers its status instead (R89, R90). -/
def Obligations.GroupWords : Prop :=
  (∀ (s : State) (d a l : BitVec 5), s.here.buffered < 64 →
    let asks := fun (kind : Nat) => s.askNow (s.here.sPort d.toNat) 24 l.toNat (.group kind (s.reg a))
    s.runs [(.gnew d a l, asks 0), (.gjoin d a l, asks 1), (.gleave d a l, asks 2), (.gfree d a l, asks 3),
      (.ginfo d a l, asks 4)]) ∧
  (∀ (s : State) (op kind : Nat) (b : Issuer) (v : W64), s.findOp op = some ⟨op, b, .group kind v⟩ →
    let n := v.toNat
    let gid := n % 65536
    let g := s.hub.group gid
    let answers := fun (h : Hub) (w : Nat) =>
      s.applyGroup op = ({ s.dropOp op with hub := h } : State).answer b.core op (BitVec.ofNat 512 w)
    (kind = 0 → n < 2 ^ 32 → ∀ i, s.hub.freeGroup (s.hub.groups.length + 1) 1 = some i →
      answers (s.hub.setGroup i { state := 1, inc := (s.hub.group i).inc, memb := n, outs := 0 })
        (65536 * (s.hub.group i).inc.toNat + i)) ∧
    (kind = 0 → 2 ^ 32 ≤ n → answers s.hub (2 ^ 56 * 0x10)) ∧
    (kind = 0 → n < 2 ^ 32 → s.hub.freeGroup (s.hub.groups.length + 1) 1 = none → answers s.hub (2 ^ 56 * 0x12)) ∧
    (s.hub.checkGroup v = 0 →
      (kind = 1 → g.memb < 2 ^ 32 - 1 → answers (s.hub.setGroup gid { g with memb := g.memb + 1 }) (g.memb + 1)) ∧
      (kind = 1 → g.memb = 2 ^ 32 - 1 → answers s.hub (2 ^ 56 * 0x13)) ∧
      (kind = 2 → 0 < g.memb → g.memb < 2 ^ 32 →
        answers (s.hub.setGroup gid { g with memb := g.memb - 1 }) (g.memb - 1)) ∧
      (kind = 2 → g.memb = 0 → answers s.hub (2 ^ 56 * 0x14)) ∧
      (kind = 3 → g.outs < 2 ^ 56 → answers (s.hub.setGroup gid ({ g with state := 2 } : Group).settled) g.outs)) ∧
    (s.hub.checkGroup v ≠ 0 → 1 ≤ kind → kind ≤ 3 → answers s.hub (2 ^ 56 * s.hub.checkGroup v)) ∧
    (kind = 4 → n = 0 ∨ 2 ^ 16 ≤ n → answers s.hub (2 ^ 56 * 0x10)) ∧
    (kind = 4 → 0 < n → n < 2 ^ 16 → answers s.hub (resultWord 0
      (2 ^ 42 * min g.outs 16383 + 2 ^ 40 * g.state + 2 ^ 32 * g.inc.toNat + (if g.state = 0 then 0 else g.memb)))))

/-- The scheduling events: a core that finds a well-formed record starts it, one that finds none waits 256 cycles, and the
end of that wait lets it search again; a strand whose wake condition holds resumes; a strand that leaves with everything
landed and no trap pending is pinned, or goes on at once where its condition holds already, and with the array at rest too it
asks its barrier, parks, ends or goes back to its bucket; a post is placed where a status block and room are left and answered with its place, else only answered (R24 to R26, R31, R81, R87). -/
def schedulingEvents : Prop :=
  ∀ (s : State) (core : Nat), core < 640 →
    let c := s.core core
    (c.act = .idle → c.inHandler = false → s.picksUp = true →
      (∀ r t l, s.findWork core = some (r, t) → s.hub.launch = some l → r.kind < 4 → r.state < 8 →
        s.runs [(.pickup core, t.start core r l)]) ∧
      (s.findWork core = none → s.runs [(.pickup core, s.onCore core fun c => { c with idleUntil := c.cycle + 256 })])) ∧
    s.runs [(.idleRetry core, s.onCore core fun c => { c with cycle := max c.cycle c.idleUntil, idleUntil := 0 })] ∧
    (s.wakes core = true → ∀ r, c.strand = some r →
      s.runs [(.pinWake core, (s.onLaunch fun l => l.ranBy r.lidx r.dslot.toNat).onCore core fun c =>
        let ready := match c.act with | .pinned .pinM => c.mat.lastEnd + 1 | _ => 0
        { c with
          act := .running, issueAt := max (max c.cycle c.issueAt) ready + Config.periods s.fresh
          wdStart := s.time, wdHeld := false
          strand := c.strand.map fun r => { r with state := 1, pcore := 0 } })]) ∧
    (c.landings = [] → c.requests = [] → c.held = none →
      let t := (s.setCore core (c.advance s.time s.fresh (max (max c.cycle c.lastDue) 0))).onCore core
        fun c => { c with main := { c.main with suspp := false } }
      let pins := fun (why : Leave) =>
        if (t.pin core why).wakes core && !t.hub.hold then (t.pin core why).resumePinned core 0 else t.pin core why
      (c.act = .leaving .pinM → s.runs [(.suspension core, pins .pinM)]) ∧
      (∀ q, c.act = .leaving (.pinQ q) → s.runs [(.suspension core, pins (.pinQ q))]) ∧
      (∀ n, c.act = .leaving (.pinT n) → s.runs [(.suspension core, pins (.pinT n))]) ∧
      (∀ b n, c.act = .leaving (.pinB b n) →
        s.runs [(.suspension core, (t.pin core (.pinB b n)).askBarrier core b .pin)])) ∧
    (c.landings = [] → c.requests = [] → c.held = none → c.mat.drained = true →
      let t := (s.setCore core (c.advance s.time s.fresh (max (max c.cycle c.lastDue) c.mat.lastEnd))).onCore core
        fun c => { c with main := { c.main with suspp := false } }
      (∀ b n m, c.act = .leaving (.barrier b n m) →
        s.runs [(.suspension core, (t.askBarrier core b (.wait n true)).onCore core
          fun c => { c with act := .asking (.barrier b n m) })]) ∧
      (∀ q n, c.act = .leaving (.queue q n) → s.runs [(.suspension core, t.parkOnQueue core q n)]) ∧
      (c.act = .leaving .ended →
        s.runs [(.suspension core, ((t.onLaunch fun l => l.noteEnded c.strand).handBack core).1)]) ∧
      (∀ u r, c.act = .leaving .susp → t.handBack core = (u, some r) → s.runs [(.suspension core, u.sendHome r)])) ∧
    (∀ op p r die v next home, s.findOp op = some p → p.op = .post r die v next home →
      let u := s.dropOp op
      (u.freeBlock = none → s.runs [(.postPlacement core op, u.answer core op (BitVec.ofNat 512 (2 ^ 56)))]) ∧
      (∀ n, u.freeBlock = some n →
        let q := { r with dslot := BitVec.ofNat 32 n }
        let w := u.putStatus n (StatusBlock.fresh home die)
        let placed := if next then w.onDie die fun d => { d with next := d.next ++ [q] } else w.makeRunnable q home die
        (placed.hasRoom = true → next = true ∨ p.by_.handler = true →
          s.runs [(.postPlacement core op, placed.answer core op (BitVec.ofNat 512 (die * 20 + v)))]) ∧
        (placed.hasRoom = true → next = false → p.by_.handler = false →
          s.runs [(.postPlacement core op, (placed.onLaunch fun l =>
            { l with posts := l.posts ++ [{ child := q.lidx, parent := p.by_.lidx, osn := p.by_.osn }] }).answer core op
              (BitVec.ofNat 512 (die * 20 + v)))]) ∧
        (placed.hasRoom = false →
          s.runs [(.postPlacement core op, u.answer core op (BitVec.ofNat 512 (2 ^ 56)))])))

/-- The events of a core that runs: a result that is due is delivered, or the freeze for a full threshold buffer ends as an
entry frees (R67); the periods of a freeze for late data are counted, and what has come by then has arrived; a trap is entered at
the boundary where nothing of the array comes before it; a message handler starts once everything has landed; an expired watchdog
asks for its trap; a full save timer loses the strand (R66, R68, R120, R260, R271, R275). -/
def coreEvents : Prop :=
  ∀ (s : State) (core periods : Nat) (bank : Bool), core < 640 →
    let c := s.core core
    (∀ l, c.full = false → firstLanding c.landings = some l →
      s.runs [(.timedLanding core, s.onCore core fun c => c.advance s.time s.fresh (max c.cycle l.due))]) ∧
    (∀ l, c.full = true → firstLanding (c.landings.filter fun l => l.timed && l.arrived) = some l →
      s.runs [(.timedLanding core, s.onCore core fun c => { c with
        full := false, landings := c.landings.map fun m => if m = l then { l with timed := false } else m })]) ∧
    s.runs [(.lateDataArrival core periods bank, s.onCore core fun c =>
      { c with
        landings := c.landings.map fun l =>
          if l.id = 0 ∧ l.wants = [] ∧ l.ready ≤ c.cycle + c.frozen.toNat + periods then { l with arrived := true } else l
        frozen := c.frozen + BitVec.ofNat 64 periods
        frzbank := if bank then c.frzbank + BitVec.ofNat 64 periods else c.frzbank })] ∧
    (∀ r, c.act = .running → c.landings = [] → c.held = none → bestRequest c.candidates = some r → c.cycle ≤ c.issueAt →
      (∀ t, c.mat.due = some t → min c.issueAt (c.cycle + 1) < t) →
      s.runs [(.trapEntry core, ((s.onCore core fun c => { c with saveStart := none }).onCore core
        fun c => { c with cycle := min c.issueAt (c.cycle + 1) }).enter core r)]) ∧
    (∀ q h rest, c.canStart = true → c.landings = [] → c.starts = (q, h) :: rest →
      s.runs [(.messageHandlerStart core, s.setCore core (({ c with starts := rest } : Core).startHandler s.fresh s.time q h))]) ∧
    (s.wdDue core = true → c.handlerMode = false → c.isPinned = false → c.stuck = false → c.full = false →
      c.iss.mark = .done → c.suspending = false →
      s.runs [(.watchdogExpiry core, (s.onCore core fun c => { c with wdStart := s.time }).onCore core
        fun c => c.request s.wdRequest)]) ∧
    (∀ t, c.saveStart = some t → t + 1000 * c.wdSave.toNat ≤ s.time →
      s.runs [(.saveTimerExpiry core, ((s.onCore core fun c => { c with saveStart := none }).loseStrand core).dieCheck
        (dieOfCore core) 0 core)])

/-- The events that schedule strands and those of a core that runs (R24 to R26, R31, R66, R68, R81, R87, R120, R260, R271,
R275).
The model's own readings that it rests on: log 4, 17, 20, 21, 84, 85, 110, 114 and 115. -/
def Obligations.SchedulingAndCoreEvents : Prop := schedulingEvents ∧ coreEvents


/-! The matrix array. -/

/-- A tile of `m` rows of `n` elements raises none of the faults of its descriptor and none of the reasons 1 and 8 (R216,
R227). -/
def fitsTile (s : State) (t : TileRef) (m n : Nat) : Prop :=
  accepted t.fmt = true ∧ t.mixed s.bankFormats m n = false ∧ t.faulty m n = false

/-- The words of the M pipe outside the message-handler context, with room in the queue, legal pair fields, fitting tiles
and none of the reasons of R227: each joins the array's queue with its operands and what it samples, TWAIT and TSTAT land
the array's word, and TWAIT clears CORR, RPLY and LASTERR (R227 to R238). A row number above 131 traps.
The model's own readings that it rests on: log 32, 33 and 35. -/
def Obligations.MatrixWords : Prop :=
  ∀ (s : State), s.here.inHandler = false →
    let fmts := s.bankFormats
    let view := fun (n : Nat) => s.here.mat.viewClass.getD n none
    let mw := fun n => drainLimit (fieldOf s.drainctl 8 8) n
    let nw := fun n => drainLimit (fieldOf s.drainctl 16 8) n
    let nfits := fun (t : TileRef) => isMx t.fmt = true → fieldOf s.drainctl 16 8 % 32 = 0
    let regs := (List.range 24).map fun i => s.cregAt (0x100 + i)
    let port := fun (d : BitVec 5) => s.here.sPort d.toNat
    ((s.here.mat.queued s.here.cycle).length < 8 →
      (∀ sh acc a b r, s.pairOk a = true → s.pairOk b = true →
        let x := s.tileOf a
        let y := s.tileOf b
        let d := shapeDims sh.toNat y.fmt
        fitsTile s x d.1 d.2.2 → fitsTile s y d.2.1 d.2.2 → x.fmt = y.fmt → (isMx y.fmt = true → sh ≠ 0) →
        (r = 1 ∨ view acc.toNat = some (matClass y.fmt)) →
        s.runs [(.tmma sh acc a b r, s.enqueueNow (.step acc.toNat (r == 1) (s.stepRecord sh.toNat (.tile x) y)) false fun m =>
          if r == 1 then { m with viewClass := m.viewClass.set acc.toNat (some (matClass y.fmt)) } else m)]) ∧
      (∀ sh acc l b r, s.pairOk b = true →
        let y := s.tileOf b
        let d := shapeDims sh.toNat y.fmt
        fitsTile s y d.2.1 d.2.2 → (isMx y.fmt = true → sh ≠ 0) →
        s.here.mat.viewLatch.getD l.toNat none = some (y.fmt, d.1, d.2.2) →
        (r = 1 ∨ view acc.toNat = some (matClass y.fmt)) →
        s.runs [(.tmmaLatch sh acc l b r,
          s.enqueueNow (.step acc.toNat (r == 1) (s.stepRecord sh.toNat (.latch l.toNat) y)) false fun m =>
            if r == 1 then { m with viewClass := m.viewClass.set acc.toNat (some (matClass y.fmt)) } else m)]) ∧
      (∀ sh l a, s.pairOk a = true →
        let x := s.tileOf a
        let d := shapeDims sh.toNat x.fmt
        fitsTile s x d.1 d.2.2 → (isMx x.fmt = true → sh ≠ 0) → d.1 * d.2.2 * elemBits x.fmt ≤ 8 * 65536 →
        s.runs [(.tlatch sh l a, s.enqueueNow (.latch l.toNat sh.toNat x) false fun m =>
          { m with viewLatch := m.viewLatch.set l.toNat (some (x.fmt, d.1, d.2.2)) })]) ∧
      (∀ acc a k, s.pairOk a = true → view acc.toNat = some k →
        let c := s.tileOf a
        let n := classDim k
        fitsTile s c (mw n) (nw n) → nfits c →
        s.runs [(.tdrain acc a, s.enqueueNow (.drain acc.toNat c s.drainctl (s.cregAt 0x061)) true id)]) ∧
      (∀ sh acc a b p, s.pairOk a = true → s.pairOk b = true → s.pairOk p = true →
        let x := s.tileOf a
        let y := s.tileOf b
        let z := s.tileOf p
        let drained := if nestUndrained regs then [] else List.range (nestPasses regs)
        let at_ := fun (t : TileRef) (k : Nat) (e : Nat × Nat) => t.moved fmts (stepOffset regs e.1 e.2 k)
        let size := fun (e k : Nat) => drainLimit (fieldOf s.drainctl k 8) (classDim (nestClass fmts y regs e))
        (∀ e ∈ nestSteps regs,
          let d := shapeDims sh.toNat (at_ y 2 e).fmt
          accepted (at_ x 1 e).fmt = true ∧ (at_ x 1 e).mixed fmts d.1 d.2.2 = false ∧
          accepted (at_ y 2 e).fmt = true ∧ (at_ y 2 e).mixed fmts d.2.1 d.2.2 = false ∧
          (at_ x 1 e).fmt = (at_ y 2 e).fmt ∧ (isMx (at_ y 2 e).fmt = true → sh ≠ 0) ∧
          matClass (at_ y 2 e).fmt = nestClass fmts y regs e.1 ∧
          x.nestFaulty fmts (stepOffset regs e.1 e.2 1) d.1 d.2.2 = false ∧
          y.nestFaulty fmts (stepOffset regs e.1 e.2 2) d.2.1 d.2.2 = false) →
        (∀ e ∈ drained,
          let w := z.moved fmts (nestOffset regs e 3)
          accepted w.fmt = true ∧ w.mixed fmts (size e 8) (size e 16) = false ∧ nfits w ∧
          z.nestFaulty fmts (nestOffset regs e 3) (size e 8) (size e 16) = false) →
        (nestUncleared regs = true → view acc.toNat = some (nestClass fmts y regs 0)) →
        (∀ l, l < 6 → nestCount regs l ≠ 0 ∧
          (∀ k, k < 3 → (l ≠ 0 ∨ k ≠ 2) → fieldOf (regs.getD (4 * l + k + 1) 0) 0 6 = 0)) →
        s.runs [(.tgo sh acc a b p,
          s.enqueueNow (.nest sh.toNat acc.toNat x y z s.drainctl (s.cregAt 0x061) regs fmts) true fun m =>
            { m with
              active := regs, viewClass := m.viewClass.set acc.toNat (some (nestClass fmts y regs (nestPasses regs - 1))) })]) ∧
      (∀ acc, s.runs [(.tclr acc, s.enqueueNow (.clear acc.toNat) false id)]) ∧
      (∀ a, (s.reg a).toNat ≤ 131 → s.runs [(.trow a, s.enqueueNow (.row (s.reg a).toNat) false id)])) ∧
    (∀ a, 131 < (s.reg a).toNat → s.runs [(.trow a, s.illegalWith (s.reg a))]) ∧
    (s.here.buffered < 64 → ∀ d l,
      s.runs [(.tstat d l, s.timedNow (port d) 8 l.toNat
        (s.here.mat.word (s.here.mat.queued s.here.cycle).length))] ∧
      (s.here.mat.queued s.here.cycle = [] →
        s.runs [(.twait d l, (s.timedNow (port d) 8 l.toNat (s.here.mat.word 0)).onHere fun c =>
          c.onMat fun m => { m with corr := 0, rply := 0, lasterr := 0, awaited := none })]))

/-- The events of the array's sequencer, for the operation at the front of its queue once the one before has ended: a step
clears its set where it says so, checks the headers of its operands and begins to read them; a pass of a nest begins, and its
steps go like any other; a latch load begins to read its tile; a drain checks its set; a set is cleared, a row is marked; and
the flags that come first land (R218, R224, R228 to R238). -/
def sequencerEvents : Prop :=
  ∀ (s : State) (core : Nat),
    (∀ t q, s.frontOp core = (t, some q) →
      let m := (t.core core).mat
      let start := m.startOf q
      (m.ending = false →
        (∀ set clr r v, q.op = .step set clr r →
          let u := t.onCore core fun c => c.onMat fun m =>
            if clr then m.putSet set ((m.set_ set).cleared (some (matClass r.fmt))) else m
          (u.core core).mat.staleLatch r.a = none → u.stepHeaders core r = (v, none) →
          s.runs [(.matrixStep core, v.beginJob core (.step set r []) (start + stepCycles r.shape r.fmt - 1))]) ∧
        (∀ sh set a b c dc tl regs f, q.op = .nest sh set a b c dc tl regs f →
          let off := stepOffset regs m.pass m.inner
          let y := b.moved f (off 2)
          let r : StepRec := { shape := sh, fmt := y.fmt, a := .tile (a.moved f (off 1)), b := y
                               mode := q.mode, osn := q.osn, pc := q.pc, handler := q.handler }
          (m.stage = 1 → s.runs [(.matrixStep core,
            (t.onCore core fun c => c.onMat fun m => m.setIdx 0 m.inner).startStep core set r [] start)]) ∧
          (2 ≤ m.stage →
            s.runs [(.drain core, t.drainCheck core set (c.moved f (nestOffset regs m.pass 3)) dc tl q m.pass)]) ∧
          (m.stage = 0 → m.pass ≠ 0 →
            s.runs [(.nestPass core, t.onCore core fun c => c.onMat fun m =>
              let a := m.set_ set
              let cleared := a.cleared (some (matClass (b.moved f (nestOffset regs m.pass 2)).fmt))
              let m := (List.range 5).foldl (fun m i => m.setIdx (i + 1) (nestIndex regs m.pass (i + 1)))
                (m.putSet set (if nestUndrained regs then a else cleared))
              { m with stage := 1, inner := 0 })])) ∧
        (∀ n sh x v, q.op = .latch n sh x →
          let u := t.mapRows core
          let d := shapeDims sh x.fmt
          u.readHeader core x d.1 d.2.2 = (v, none) →
          s.runs [(.latchLoad core, v.beginJob core (.load n x d.1 d.2.2 none)
            ((u.core core).mat.startOf q + latchCycles x d.1 d.2.2 - 1))]) ∧
        (∀ set c dc tl, q.op = .drain set c dc tl → s.runs [(.drain core, t.drainCheck core set c dc tl q 0)])) ∧
      let ended := fun (f : Matrix → Matrix) =>
        t.onCore core fun c => c.onMat fun m => { f m with fin := true, lastEnd := start }
      (∀ set, q.op = .clear set →
        s.runs [(.matrixClear core, ended fun m => m.putSet set ((m.set_ set).cleared none))]) ∧
      (∀ n, q.op = .row n → s.runs [(.matrixClear core, ended fun m => m.mark n)])) ∧
    (∀ f, Matrix.firstFlags (s.core core).mat.results = some f →
      let c := (s.core core).advance s.time s.fresh (max (s.core core).cycle f.due)
      c.stuck = false →
      s.runs [(.stepResultsComplete core, s.setCore core
        ((c.onMat fun m => { m with results := m.results.erase f }).landFlags false (if f.handler then 1 else 0) f.pc f.flags
          f.offer))])

/-- What ends in the array at the last cycle of a part. A step whose operands have been read runs into its set, is recorded
for a replay, and completes its results 140 cycles later; the load of a TLATCH fills its latch; a drain writes its last line
and is done; an operation that has run leaves the queue (R218, R224, R228 to R230, R234, R236). -/
def arrayPartsEnd : Prop :=
  ∀ (s : State) (core : Nat),
    let c := s.core core
    let m := c.mat
    (∀ set r x, m.job = some (.step set r []) → m.stage ≠ 3 → s.operandA core r = some x →
      ∀ q set' clr, m.queue.head? = some q → q.op = .step set' clr r →
      let d := shapeDims r.shape r.fmt
      let y := s.fetchTile core r.b d.2.1 d.2.2
      let p := (m.set_ set).step r x y
      let n := ((s.arrayEnd core).core core).mat
      set < m.sets.length → (n.set_ set).c = p.1.c ∧ (n.set_ set).rc = p.1.rc ∧ (n.set_ set).cc = p.1.cc ∧
        (n.set_ set).corner = p.1.corner ∧ (n.set_ set).ready = m.lastEnd + 140 ∧
        n.fin = true ∧ n.job = none ∧ n.seen = [] ∧ n.queue = m.queue ∧ n.lastEnd = m.lastEnd ∧
        (∀ k, k ≠ set → n.set_ k = m.set_ k)) ∧
    (∀ n t rows k, m.job = some (.load n t rows k none) → n < m.latches.length →
      let w := ((s.arrayEnd core).core core).mat
      w.latches[n]? = some (some (s.fetchTile core t rows k)) ∧ w.fin = true ∧ w.job = none ∧ w.sets.length = m.sets.length ∧
      (∀ j, j ≠ n → w.latches[j]? = m.latches[j]?)) ∧
    (m.job = none → m.stage = 4 →
      let n := ((s.arrayEnd core).core core).mat
      n.writes = [] ∧ n.stage = 0 ∧ n.sets = m.sets ∧
      (∀ q set c dc tl, m.queue.head? = some q → q.op = .drain set c dc tl → n.fin = true ∧ n.npass = m.npass) ∧
      (∀ q sh set a b c dc tl regs f, m.queue.head? = some q → q.op = .nest sh set a b c dc tl regs f →
        n.npass = m.npass + 1 ∧ n.pass = m.pass + 1 ∧ n.inner = 0 ∧ n.fin = decide (nestPasses regs ≤ m.pass + 1))) ∧
    (m.job = none → m.stage ≠ 4 → m.fin = true →
      let n := ((s.arrayEnd core).core core).mat
      n.queue = m.queue.drop 1 ∧ n.fin = false ∧ n.sets = m.sets ∧ n.lastEnd = m.lastEnd)

/-- The events of the array's sequencer, and what ends in the array at the last cycle of a part (R218, R224, R228 to R238).
The model's own readings that it rests on: log 31, 33, 34, 36 and 118. -/
def Obligations.MatrixEvents : Prop := sequencerEvents ∧ arrayPartsEnd

/-- A cleared set holds +0 in every accumulator, checksum cell and corner of its class, keeps the class, and is replayable
with an empty record; marking changes only a row's mark, and none of a retired row (R237, R238). -/
def Obligations.ClearedSetsAndMarkedRows : Prop :=
  (∀ (a : AccSet) (k : Nat), a.cls = some k →
    let b := a.cleared none
    b.cls = some k ∧ b.replay = [] ∧ b.replayable = true ∧ b.corner = 0 ∧
    (∀ i j, i < classDim k → j < classDim k → ((b.c.getD i []).getD j 1) = 0) ∧
    b.c.length = classDim k ∧ b.rc = List.replicate (classDim k) 0 ∧ b.cc = List.replicate (classDim k) 0) ∧
  (∀ (m : Matrix) (n k : Nat),
    ((m.mark n).row k).1 = (m.row k).1 ∧ ((m.mark n).row k).2.1 = (m.row k).2.1 ∧
    ((m.row n).1 = 2 → m.mark n = m) ∧ ((m.row n).1 ≠ 2 → ((m.mark n).row n).2.2.2.2 = true) ∧
    (k ≠ n → (m.mark n).row k = m.row k))

/-! The tag table and the queues. -/

/-- KLOOK of a legal form asks the tag arbiter of the cluster and awaits its answer; KTAG and KUNTAG whose operands pass
their checks send their change; the arbiter applies them one at a time, on a table whose slots are sound: a look answers,
a tag changes only where the slot is in the expected state and no other slot holds the tag, an untag only where slot, tag
and state agree (R300 to R302).
The model's own readings that it rests on: log 44. -/
def Obligations.TagTableWords : Prop :=
  ∀ (s : State) (d a b l : BitVec 5),
    let v := (s.reg a).toNat
    let n := v % 2 ^ 62
    let mode := v / 2 ^ 62
    let tag := (s.reg d).setWidth 48
    let states := (s.reg b).toNat
    let sends := fun op => ((s.addOp s.issuer op).push (.tagArbiterApply s.cur s.nextId))
    (s.here.buffered < 64 → (mode = 0 ∧ n < 2 ^ 48) ∨ (mode = 1 ∧ n < 256) ∨ (mode = 2 ∧ n = 0) →
      s.runs [(.klook d a l, (s.askNow (s.here.sPort d.toNat) 20 l.toNat (.look mode n)).push
        (.tagArbiterApply s.cur s.nextId))]) ∧
    (v < 256 → (s.reg d).toNat < 2 ^ 48 → states < 16 → states / 4 ≠ 3 →
      s.runs [(.ktag d a b, sends (.ktag v tag (states % 4) (states / 4))),
        (.kuntag d a b, sends (.kuntag v tag (states % 4) (states / 4 == 0)))]) ∧
    (∀ core op p, s.findOp op = some p → (s.cluster (clusterOf core)).badSlots = [] →
      let t := s.dropOp op
      let c := s.cluster (clusterOf core)
      let becomes := fun n e => s.runs [(.tagArbiterApply core op,
        t.setCluster (clusterOf core) { c with tags := Sparse.set c.tags n e })]
      (∀ m k, p.op = .look m k →
        s.runs [(.tagArbiterApply core op, t.answer core op (BitVec.ofNat 512 (c.look m k)))]) ∧
      (∀ n x old new, p.op = .ktag n x old new →
        (((c.tag n).state = old ∧ ∀ f ∈ c.tags, f.2.tag = x → f.2.state ≠ 0 → f.1 = n) →
          becomes n { tag := x, state := new, owner := core % 4 }) ∧
        (¬((c.tag n).state = old ∧ ∀ f ∈ c.tags, f.2.tag = x → f.2.state ≠ 0 → f.1 = n) →
          s.runs [(.tagArbiterApply core op, t)])) ∧
      (∀ n x old zero, p.op = .kuntag n x old zero →
        ((c.tag n).state ≠ 0 → (c.tag n).tag = x → (c.tag n).state = old → zero = true →
          becomes n { c.tag n with state := 0, owner := core % 4 })))

/-- The queue words with operands that pass their checks: QPUT enters the send unit and leaves for its queue, QGET takes
the message at the head, waits for one that the arbiter still moves, parks a strand or answers at once, QSTAT tells the
queue or the send unit, QCFG releases, opens or closes the queue and serves it (R307, R310 to R313, R315). The payload is
read after the issue; a queue register under an MTC of the cycle before is sampled as R64
allows.
The model's own readings that it rests on: log 4, 45, 46 and 48. -/
def Obligations.QueueWords : Prop :=
  ∀ (s : State) (d a b l : BitVec 5),
    let n := (s.reg a).toNat
    let w := s.sampleQueue n
    let q := w.here.queue n
    let port := s.here.sPort d.toNat
    let answers := fun (t : State) (v : Nat) => (t.timedNow port 24 l.toNat v).traceQ 0
    let becomes := fun (q : Queue) => ((w.onHere fun c => c.setQueue n q).serveQueue w.cur n).traceQ 0
    (n < 2 ^ 14 → n % 1024 ≤ 639 → blockOffset (s.reg b) = true → s.here.sends.length < 16 →
      let t := (s.addOp s.issuer (.put (n % 1024) (n / 1024 % 8) ((s.reg a).getLsbD 13) ((s.reg d).setWidth 32)
        (s.reg b).toNat none)).onHere fun c => { c with
          sends := c.sends ++ [s.nextId]
          sendHold := if s.here.seenFull (n % 1024) (n / 1024 % 8) then c.sendHold ++ [(s.nextId, s.time + holdTime)]
            else c.sendHold }
      (s.here.seenFull (n % 1024) (n / 1024 % 8) = false →
        s.runs [(.qput d a b, (t.push (.messageArrival (n % 1024) s.nextId)).traceQ 0)]) ∧
      (s.here.seenFull (n % 1024) (n / 1024 % 8) = true →
        s.runs [(.qput d a b, (t.push (.sendHoldExpiry s.cur s.nextId)).traceQ 0)])) ∧
    (n < 8 → s.here.buffered < 64 →
      (∀ t v, w.tryGet w.cur n = .result t v → s.runs [(.qget d a l, answers t v)]) ∧
      (w.tryGet w.cur n = .later →
        s.runs [(.qget d a l, (w.askNow port 24 l.toNat (.get n w.time false)).traceQ 0)]) ∧
      (w.tryGet w.cur n = .empty →
        (q.waiter.isSome = true → s.runs [(.qget d a l, answers w (2 ^ 56 * 0x31))]) ∧
        (q.waiter = none → w.here.handlerMode = false → d.toNat < 8 →
          s.runs [(.qget d a l,
            ((w.leave (.queue n d.toNat)).onHere fun c => c.setQueue n { c.queue n with news := false }).traceQ 0)]) ∧
        (q.waiter = none → w.here.handlerMode = true ∨ 8 ≤ d.toNat →
          s.runs [(.qget d a l, answers w (2 ^ 56 * 0x30))]))) ∧
    (s.here.buffered < 64 →
      (n < 8 → s.runs [(.qstat d a l, answers s (2 ^ 56 * (if q.open? then 0 else 0x32) + 2 ^ 55 * (if q.waiter.isSome then 1 else 0) +
        2 ^ 40 * (q.unread % 2 ^ 15) + 2 ^ 24 * (q.room % 2 ^ 16) + min q.spilled.length (2 ^ 24 - 1)))]) ∧
      (8 ≤ n → n < 16 → s.runs [(.qstat d a l, answers s (2 ^ 48 * s.here.sends.length + 2 ^ 32 * s.unread s.cur))])) ∧
    (n < 8 →
      (s.checks = false →
        s.runs [(.qcfgRel a b, becomes { q with
          ptr := Queue.ptrOf (q.freeCount + min (s.reg b).toNat ((q.head + 65536 - q.freeCount) % 65536)) q.head q.tail })]) ∧
      s.runs [(.qcfgOpen a b, becomes { q.write false (s.reg b) with
          desc := (q.write false (s.reg b)).desc ||| 0x80000000#64
          ptr := 0, count := 0, kept := if s.checks then q.kept ++ q.lines q.freeCount (min q.used q.size) else [] }),
        (.qcfgClose a, becomes { q with desc := q.desc &&& ~~~0x80000000#64 })])

/-- A message on its way arrives: of a QPUT the header and the payload line enter the queue and the acknowledgement with
the queue's free count starts back; a held message leaves after its 256 cycles; the acknowledgement frees the message and
notes the free count, and of a refused message it asks for the trap of code 13 (R305 to R307).
The model's own readings that it rests on: log 4, 46 and 47. -/
def Obligations.QueueEvents : Prop :=
  ∀ (s : State) (core op : Nat) (p : Pending), s.findOp op = some p →
    (core < 640 →
      (∀ c q h user off payload, p.op = .put c q h user off payload →
        let line := payload.getD (s.agentRead p.by_.core false off 64)
        let r := s.deliverTo c q [natToBytes 8 (messageHeader user p.by_.core 0 h 1) ++ line.drop 8] false
        let seen := some (c * 8 + q, ((r.1.core c).queue q).room)
        (r.2 ≠ .refused → s.runs [(.messageArrival core op,
          (r.1.replaceOp p.id (.ack seen none)).push (.sendAcknowledgement p.by_.core p.id))]) ∧
        (r.2 = .refused → s.runs [(.messageArrival core op,
          (r.1.replaceOp p.id (.ack seen (some (BitVec.ofNat 64
            (2 ^ 32 * user.toNat + 2 ^ 13 * (if h then 1 else 0) + 2 ^ 10 * q + c))))).push
            (.sendAcknowledgement p.by_.core p.id))])) ∧
      (∀ m, p.op = .message m → s.runs [(.messageArrival core op, (s.dropOp op).messageArrives m)])) ∧
    (∀ dst q h user off line, p.op = .put dst q h user off line → p.by_.core = core →
      s.runs [(.sendHoldExpiry core op,
        (s.onCore core fun c => { c with sendHold := c.sendHold.filter (·.1 != op) }).push (.messageArrival dst op))]) ∧
    (∀ seen refused, p.op = .ack seen refused →
      let t := (s.dropOp op).onCore core fun c => { c with
        sends := c.sends.filter (· != op)
        freeSeen := match seen with
          | some f => f :: c.freeSeen.filter fun g => g.1 != f.1
          | none => c.freeSeen }
      (refused = none → s.runs [(.sendAcknowledgement core op, t)]) ∧
      (∀ v, refused = some v → s.runs [(.sendAcknowledgement core op, t.onCore core fun c => c.request
        { code := 13, tval := v, tbundle := p.by_.pc, xcode := 0, deferred := true, epc := none,
          level := if p.by_.handler then 2 else 0 })]))

/-! Transfers. -/

/-- The words of transfers: XFER reads its record; a record that fails a check answers the status and the doubleword, and
one that passes them, with its sides and its barrier bound and room for it, leaves as the next handle and answers it. XWAIT
with nothing to wait for lands the summary and clears it; XSTAT tells one transfer; XCANCEL marks the transfers of the
executing context (R317 to R319, R335 to R339).
The model's own readings that it rests on: log 50 and 54. -/
def Obligations.TransferWords : Prop :=
  ∀ (s : State) (d a l : BitVec 5),
    let off := s.reg a
    let v := off.toNat
    let ctx := s.here.ctx
    let port := s.here.sPort d.toNat
    let answers := fun (t : State) (v : Nat) => (t.timedNow port 24 l.toNat v).traceQ 0
    (blockOffset off = true → s.badAt s.cur false v 64 = false → s.here.buffered < 64 →
      let dw := (chunksOf 8 (s.ownRead false v 64)).map bytesToNat
      let x := Xfer.parse dw s.issuer s.nextId s.jkey
      (∀ st i, x.fieldChecks dw = some (st, i) → s.runs [(.xfer d a l, answers s (resultWord st i))]) ∧
      (∀ f g, x.fieldChecks dw = none → s.sideForm x.ssp x.saddr x.sfmt x.tile = .ok f →
        s.sideForm x.dsp x.daddr x.dfmt x.tile = .ok g →
        let y := { x with sfmt := f.1, sext := f.2, dfmt := g.1, dext := g.2 }
        let bar := dw.getD 5 0 % 2 ^ 48
        (∀ st i, y.formChecks s.bankFormats = some (st, i) → s.runs [(.xfer d a l, answers s (resultWord st i))]) ∧
        (∀ t z u, y.formChecks s.bankFormats = none → s.here.xfers.length < 64 →
          s.bindXfer { y with dfmt := if 2 ≤ y.op then y.sfmt else y.dfmt } bar = .ok (t, z) →
          t.acquireAll ([z.src, z.dst, z.bar].filterMap id) = some u →
          s.runs [(.xfer d a l, ((u.sendXfer z).timedNow port 24 l.toNat (resultWord 0 u.here.ctx.handle.toNat)).traceQ
            (if y.ssp = 0 then y.saddr else if y.dsp = 0 then y.daddr else bar))]))) ∧
    (s.here.buffered < 64 →
      (v / 2 ^ 16 % 2 ^ 47 = 0 →
        (∀ o ∈ s.here.ownXfers, ∀ m, ctx.age o.1 = some m → v < 2 ^ 63 ∧ ∀ n, ctx.age (v % 2 ^ 16) = some n → m < n) →
        s.runs [(.xwait d a l, (s.onHere fun c =>
          (c.send port (c.timedLatency 24 l.toNat)
            { Landing.of ctx.summary with timed := true, flags := ctx.sumFlags, offer := ctx.sumOffer }).setCtx
            { ctx with sumFail := none, sumFlags := 0, sumOffer := none, sumDone := 0 }).traceQ 0)]) ∧
      (v < 2 ^ 16 → s.runs [(.xstat d a l, answers s (s.xferWord v))])) ∧
    (let cancels := fun (pick : Nat × Nat → Bool) =>
      (s.onCluster (clusterOf s.cur) fun c => { c with
        xfers := c.xfers.map fun y =>
          if s.here.ownXfers.any (fun o => pick o && o.2 == y.id) then { y with cancelled := true } else y }).traceQ 0
     (v < 2 ^ 16 → s.runs [(.xcancel a, cancels fun o => o.1 == v)]) ∧
     s.runs [(.xcancelAll, cancels fun _ => true)])

/-- The engines' events of a cluster: an admitted chunk takes its bytes from the bucket and one of the free engines; of the
runs that can finish a block one does, and where the tile is open and everything that the block needs has been read, the rest
of the block is written, counted and decrements the barrier, and a block whose source can not be read or whose write is
refused ends the transfer with its status; a tile whose second reading mismatches ends with 0x51; a transfer without failure
closes its tile and ends; an engine's fault ends the transfer of its chunk with 0x5F and stops the die's class (R322 to
R340). Which engine takes a chunk and which run goes first is the model's open choice.
The model's own readings that it rests on: log 49, 51, 52, 53, 55, 56 and 119. -/
def Obligations.TransferEvents : Prop :=
  ∀ (s : State) (cluster id engine : Nat) (x : Xfer), cluster < 160 → (s.cluster cluster).xfer id = some x →
    ((s.cluster cluster).admits x = true →
      let n := x.chunkBytes x.admitted
      let lo := 65536 * x.admitted
      let t := if x.hbm then s.onCluster cluster fun c => { c with tokens := c.tokens - n } else s
      ∃ e, e ∈ (s.cluster cluster).freeEngines ∧
        s.runs [(.chunkAdmission cluster id, t.putXfer cluster { x with
          admitted := x.admitted + 1, runs := x.runs ++ [{ engine := e, lo := lo, hi := lo + n, wrote := 0, reads := (0, 0), writes := (0, 0) }] })]) ∧
    (let ready := s.finishers cluster x
     ready ≠ [] → ∃ r, r ∈ ready ∧ s.runs [(.blockComplete cluster id, s.finishRun cluster x r)] ∧
      ∀ b, x.opened = true → x.goal r ≤ x.reached r → x.current r = some b → x.headerStatus = 0 →
        let lo := (x.blockSpan b).1
        let hi := (x.blockSpan b).2
        let w := s.writePieces x ((x.blockPieces b).drop r.wrote).flatten
        let es := x.partFlags lo hi
        let y := { x with flags := x.flags ||| flagsOf es, offer := Offer.keep x.offer (offerOf x.by_.osn es) }
        let z : Xfer := { y with granted := b :: x.granted, done := x.done + (hi - lo) }
        (x.blind (x.blockNeed b) = true → s.runs [(.blockComplete cluster id, s.putXfer cluster { x with status := 0x52 })]) ∧
        (x.blind (x.blockNeed b) = false → w.2 = .ok → x.reread = false → s.runs [(.blockComplete cluster id,
          (w.1.putXfer cluster (z.putRun { r with wrote := 0 })).decrementBy x (some (hi - lo)) false)]) ∧
        (x.blind (x.blockNeed b) = false → w.2 ≠ .ok →
          s.runs [(.blockComplete cluster id, w.1.putXfer cluster { y with status := w.2.status })])) ∧
    (x.toVerify = true → x.blind (x.srcRow x.rows, x.srcBytes) = false →
      ((x.subst || x.passes) = true →
        s.runs [(.tileVerification cluster id, s.putXfer cluster { x with verified := true })]) ∧
      (x.subst = false → x.passes = false → x.reread = true →
        s.runs [(.tileVerification cluster id, s.putXfer cluster { x with status := 0x51 })]) ∧
      (x.subst = false → x.passes = false → x.reread = false →
        s.runs [(.tileVerification cluster id, s.putXfer cluster x.rereading)])) ∧
    (s.canEnd x = true → x.status = 0 → x.cancelled = false →
      let r := s.closeTile x
      s.runs [(.transferComplete cluster id, r.1.endXfer cluster { x with status := r.2.status })]) ∧
    (s.canEnd x = true → x.status ≠ 0 → s.runs [(.transferComplete cluster id, s.endXfer cluster x)]) ∧
    (s.canEnd x = true → x.status = 0 → x.cancelled = true →
      s.runs [(.transferComplete cluster id, s.endXfer cluster { x with status := 0x5C })]) ∧
    (engine < 8 →
      let stops := fun (t : State) => t.dieCheck (cluster / 20) 3 (8 * cluster + engine)
      let found := (s.cluster cluster).xfers.find? fun x => (x.runOn engine).isSome
      (∀ y, found = some y → y.status = 0 →
        s.runs [(.engineFault cluster engine, stops (s.putXfer cluster { y with status := 0x5F }))]) ∧
      (∀ y, found = some y → y.status ≠ 0 → s.runs [(.engineFault cluster engine, stops s)]) ∧
      (found = none → s.runs [(.engineFault cluster engine, stops s)]))

/-! Synchronisation. -/

/-- The synchronisation words with a bound address of their alignment and an operand that fits: BINIT, BARRIVE, BEXPECT and
BINV send their operation, BWAIT makes the strand leave or, in a handler, asks at once, and the atomics send theirs and
await the old value (R350 to R354).
The model's own readings that it rests on: log 60. -/
def Obligations.SynchronisationWords : Prop :=
  ∀ (s : State) (d a b l : BitVec 5) (e : BitVec 3) (x : Bound) (u : State),
    let va := (s.reg a).toNat
    let v := s.reg b
    let n := v.toNat
    let obj := x.object
    let sync := fun (kind : SyncKind) => Op.sync obj.1 obj.2 kind (some x)
    (va % 64 = 0 → s.binds va 64 permS false x u →
      let sends := fun kind => ((u.addOp u.issuer (sync kind)).push (.syncOperation u.cur u.nextId)).traceQ va
      (n / 2 ^ 32 % 2 ^ 31 = 0 → s.runs [(.binit a b, sends (.init (decide (2 ^ 63 ≤ n)) (v.setWidth 32)))]) ∧
      s.runs [(.barrive a, sends .arrive), (.binv a, sends .inv)] ∧
      (n < 2 ^ 32 → s.runs [(.bexpect a b, sends (.expect n))]) ∧
      (n < 2 ^ 16 →
        (u.here.handlerMode = false → s.runs [(.bwait e a b, (u.leave (.barrier x n e.toNat)).traceQ va)]) ∧
        (u.here.handlerMode = true → s.runs [(.bwait e a b,
          (((u.addOp u.issuer (sync (.wait n false))).push (.syncOperation u.cur u.nextId)).onHere fun c =>
            c.send (c.sPort e.toNat) 1 { Landing.of 0 with arrived := false, id := u.nextId }).traceQ va)]))) ∧
    (va % 8 = 0 → s.binds va 8 permS false x u → u.here.buffered < 64 →
      let cell := x.pa % 64 / 8
      let asks := fun kind => ((u.askNow (u.here.sPort d.toNat) 24 l.toNat (sync kind)).push
        (.syncOperation u.cur u.nextId)).traceQ va
      s.runs [(.aadd d a b l, asks (.atomic 0 cell v)), (.amin d a b l, asks (.atomic 1 cell v)),
        (.amax d a b l, asks (.atomic 2 cell v)), (.aor d a b l, asks (.atomic 3 cell v)),
        (.afix d a b l, asks (.atomic 4 cell v)), (.aread d a l, asks (.atomic 5 cell 0))] ∧
      (b ≠ 31 → (s.here.handlerMode = true → b ≠ 15) →
        s.runs [(.acas d a b l, asks (.cas cell v (s.regN (b.toNat + 1))))]))

/-- The events of a die's engine and supervisor: with its object in the cache of a running engine an operation, the arrival
of a fabric operation and a decrement are applied and release their binding; a fetch brings an object with sound backing
into the cache; the scan reports the waits past their limit (R341, R343, R345, R358).
The model's own readings that it rests on: log 57, 59 and 61. -/
def Obligations.SynchronisationEvents : Prop :=
  ∀ (s : State) (core op : Nat) (p : Pending) (die obj : Nat),
    let cached := s.setDie die ((s.die die).touch obj)
    (s.findOp op = some p → (s.die die).stopped = false → (s.die die).cache.contains obj = true →
      (∀ kind b, p.op = .sync die obj kind b →
        s.runs [(.syncOperation core op,
          ((cached.dropOp op).applySync p die obj kind ((b.map (·.va)).getD 0)).releaseAll p.by_.core [b])]) ∧
      (∀ b, p.op = .fabricArrive die obj b →
        s.runs [(.syncOperation core op,
          ((cached.dropOp op).applySync p die obj .arrive ((b.map (·.va)).getD 0)).releaseAll p.by_.core [b])]) ∧
      (∀ bytes src b, p.op = .decrement die obj bytes src b →
        s.runs [(.barrierDecrement op, ((cached.dropOp op).decrementAt p.by_ die obj bytes).releaseAll p.by_.core [b])])) ∧
    (die < 8 → s.poisoned (64 * s.objectBlock die obj) 64 = false →
      s.runs [(.objectFetch die obj, (s.noteRead (64 * s.objectBlock die obj) 64).onDie die fun d => d.touch obj)]) ∧
    (die < 8 → s.runs [(.waitScan die, (s.scanDie die).1.reportWaits die (s.scanDie die).2)])

/-- An atomic at the engine acts on its cell alone: add wraps, minimum and maximum are signed, AFIX clamps at the ends of
the signed range, compare-and-swap swaps on equality, AREAD changes nothing; every other cell and object and every byte of
HBM stays (R354).
The model's own readings that it rests on: log 58. -/
def Obligations.AtomicsActOnTheirCell : Prop :=
  ∀ (s : State) (core op : Nat) (p : Pending) (die obj cell k : Nat) (v new : W64) (kind : SyncKind) (b : Option Bound),
    s.findOp op = some p → p.op = .sync die obj kind b → (s.die die).stopped = false →
    (s.die die).cache.contains obj = true → (s.object die obj).barrier = false →
    (s.object die obj).cells.length = 8 → cell < 8 → k ≤ 5 →
    (kind = .atomic k cell v ∨ kind = .cas cell v new) →
    let old := (s.object die obj).cells.getD cell 0
    let sum : Int := old.toInt + v.toInt
    ∃ t, exec (.syncOperation core op) s = .next t ∧
      (t.object die obj).cells.getD cell 0 =
        (if kind = .cas cell v new then (if old = v then new else old)
         else match k with
          | 0 => old + v
          | 1 => if v.toInt < old.toInt then v else old
          | 2 => if old.toInt < v.toInt then v else old
          | 3 => old ||| v
          | 4 => BitVec.ofInt 64 (max (-(2 ^ 63)) (min (2 ^ 63 - 1) sum))
          | _ => old) ∧
      (∀ c, c ≠ cell → (t.object die obj).cells.getD c 0 = (s.object die obj).cells.getD c 0) ∧
      (∀ e o, (e, o) ≠ (die, obj) → t.object e o = s.object e o) ∧
      t.hbm = s.hbm

/-! The lintel. -/

/-- The words of the meet with operands that pass their checks: MTAGA asks the hub arbiter, which answers 0x70 or takes the
lowest free tag number with its incarnation and has its node open it; MTAGF and MSTAT ask the home node; MEET sends a vector register, MEET.T a tile of
the scratchpad, to the home node of the tag with a queue or a bound range as its destination (R373 to R377). The lines of a tile
are read after the issue.
The model's own readings that it rests on: log 66. -/
def Obligations.MeetWords : Prop :=
  ∀ (s : State) (d a b l : BitVec 5) (x : BitVec 1) (o : BitVec 4),
    let v := s.reg a
    let w := s.reg b
    let port := s.here.sPort d.toNat
    (s.here.buffered < 64 →
      s.runs [(.mtaga d l, (s.askNow port 24 l.toNat .tagAsk).traceQ 0)] ∧
      (tagForm v = true →
        let asks := fun op => ((s.askNow port 24 l.toNat op).push (.meetArrival s.nextId)).traceQ 0
        s.runs [(.mtagf d a l, asks (.tagFree (v.setWidth 32))), (.mstat d a l, asks (.tagStat (v.setWidth 32)))])) ∧
    (o.toNat < 10 → tagForm v = true → meetDestForm w = true →
      let goes := fun (i : Instr) (lines : Nat) (m : Operand) (rest : Option (Nat × Nat)) =>
        (w.toNat < 2 ^ 63 → s.here.sends.length < 16 →
          s.runs [(i, s.sendOperand { m with
            dest := .queue (w.toNat % 1024) (w.toNat / 1024 % 8) (w.getLsbD 13) } rest)]) ∧
        (2 ^ 63 ≤ w.toNat → ∀ y u,
          s.binds (w.toNat % 2 ^ 48) (64 * resultLines o.toNat lines) (permW ||| permM) true y u →
          (u.here.inHandler = true → y.versioned = false) → u.here.sends.length < 16 →
          s.runs [(i, u.sendOperand { m with dest := .memory y } rest)])
      (s.here.inHandler = false →
        goes (.meet d a b x o) 1
          (s.meetOperand a b o.toNat false false 0 (natToBytes 64 (s.vec (x == 1) d).toNat)) none) ∧
      (let r := s.reg d
       let off := r.toNat % 2 ^ 23
       let n := r.toNat / 2 ^ 32 % 2 ^ 8
       let f := (s.bankFormats.getD (off / 2 ^ 19) 0).toNat
       let cop := o.toNat
       meetTileForm r = true → suits cop (f % 16) = true →
       (128 ≤ f → (ckFmt? (f % 16)).isSome = true ∧ cop ≠ 0 ∧ cop ≠ 1 ∧ (cop < 5 ∨ 8 < cop)) → (cop = 9 → n ≤ 64) →
       oneFormat s.bankFormats off (64 * n) = true →
       goes (.meetT d a b o) n (s.meetOperand a b cop true (decide (128 ≤ f)) (f % 16) []) (some (off, n)))) ∧
    (∀ op p, s.findOp op = some p → p.op = .tagAsk →
      (s.hub.freeTag (s.hub.tags.length + 1) 0 = none →
        s.allocateTag op = (s.dropOp op).answer p.by_.core op (BitVec.ofNat 512 (2 ^ 56 * 0x70))) ∧
      (∀ n, s.hub.freeTag (s.hub.tags.length + 1) 0 = some n →
        let inc := match Sparse.get? s.hub.tags n with | some t => t.2 | none => 0
        s.allocateTag op = (s.onHub fun h => { h with tags := Sparse.set h.tags n (.allocated, inc) }).replaceOp op
          (.tagOpen n inc))) ∧
    (∀ op p n inc, s.findOp op = some p → p.op = .tagOpen n inc →
      s.openTag op = ((s.dropOp op).setEntry n { (s.node (homeNode n)).entry n with isOpen := true, inc := inc }).answer
        p.by_.core op (BitVec.ofNat 512 (2 ^ 24 * inc.toNat + n)))

/-- The events of the nodes: an operand, an MTAGF or an MSTAT arrives at a node that runs; operands that waited too long go
back with 0x73; a refused message is offered again once its 256 cycles are over (R364 to R366, R372, R375, R377).
The model's own readings that it rests on: log 4, 64, 66, 67 and 68. -/
def Obligations.MeetEvents : Prop :=
  ∀ (s : State) (op node : Nat) (p : Pending),
    (s.findOp op = some p →
      (∀ o rest, p.op = .meet o rest → (s.node (homeNode (tagNumber o.tag))).stopped = false →
        s.runs [(.meetArrival op, ((s.replaceOp op (.ack none none)).push (.sendAcknowledgement p.by_.core op)).arriveOperand
          (s.readLines o rest 128))]) ∧
      (∀ tag, p.op = .tagFree tag → (s.node (homeNode (tagNumber tag))).stopped = false →
        let t := (s.dropOp op).freeTag tag
        s.runs [(.meetArrival op, t.1.answer p.by_.core op (BitVec.ofNat 512 (2 ^ 56 * t.2)))]) ∧
      (∀ tag, p.op = .tagStat tag → (s.node (homeNode (tagNumber tag))).stopped = false →
        s.runs [(.meetArrival op, (s.dropOp op).answer p.by_.core op (BitVec.ofNat 512 (s.tagState tag)))])) ∧
    (node < 160 →
      s.runs [(.orphanScan node, (s.orphans node).foldl (fun t n => t.expelOperand node n 0x73) s)] ∧
      ((∀ m ∈ (s.node node).offers, s.time < m.1) → s.runs [(.resultReoffer node, s.setNode node (s.node node))]) ∧
      (∀ m due, (s.node node).offers = [(due, m)] → due ≤ s.time →
        let t := s.setNode node { s.node node with offers := [] }
        let r := t.deliverTo m.core m.q m.entries m.remote
        (r.2 ≠ .refused → s.runs [(.resultReoffer node, r.1)]) ∧
        (r.2 = .refused → s.runs [(.resultReoffer node,
          t.setNode node { t.node node with offers := (t.node node).offers ++ [(s.time + holdTime, m)] })])))

/-- Two operands of one open tag meet at its home node: the first one is held, with the time; the second one, of the same
form, combines with it and the result is delivered, the left partner being the one with the lower key; of another form,
both go back with 0x75; an operand of a closed tag or of another incarnation goes back with 0x71 and the node keeps what it
holds. A held operand whose block of the overflow area can not be read is lost, and its partner goes back with 0x74 (R364, R365,
R379, R410).
The model's own readings that it rests on: log 62, 63, 64, 65 and 128. -/
def Obligations.OperandsMeetInPairs : Prop :=
  ∀ (s : State) (op : Nat) (p : Pending) (o : Operand),
    s.findOp op = some p → p.op = .meet o none →
    let tnum := tagNumber o.tag
    let n := homeNode tnum
    let e := (s.node n).entry tnum
    let t := (s.replaceOp op (.ack none none)).push (.sendAcknowledgement p.by_.core op)
    (s.node n).stopped = false →
    (e.admits o.tag = false → s.runs [(.meetArrival op, t.returnOperand o 0x71)]) ∧
    (e.admits o.tag = true → (o.ext = true → o.sound = true) → e.tomb = false →
      (e.held = none → ∀ slot, (s.node n).freeSlot = some slot →
        s.runs [(.meetArrival op, t.setEntry tnum { e with held := some (slot.1, slot.2, { o with time := s.time }) })]) ∧
      (∀ i j h, e.held = some (i, j, h) →
        let pa := t.overflowSlot n j
        let lost := i && t.areaLost pa 8192
        let u := t.setEntry tnum { e with held := none }
        (lost = true →
          let v := (t.noteLost pa 8192).operandLost n tnum
          s.runs [(.meetArrival op,
            (v.setEntry tnum { (v.node n).entry tnum with tomb := false }).returnOperand o 0x74)]) ∧
        (lost = false → h.matches o = false → s.runs [(.meetArrival op, (u.returnOperand h 0x75).returnOperand o 0x75)]) ∧
        (∀ y, lost = false → h.matches o = true → combineOperands n (leftRight h o).1 (leftRight h o).2 = some y →
          s.runs [(.meetArrival op, u.deliverMeet (leftRight h o).1 (leftRight h o).2 y)])))

/-! Ranges. -/

/-- The range words with an address of 48 bits: RLOOK lands what the directory shows; RSPLIT and RMERGE take their first
step and land its result, or await it where an update or a move of the range is under way; the words without a result take
their first step, a failure being kept for RFENCE, or wait in the same way; RFENCE lands the failure or the count of the
context once nothing before it is under way (R249, R253 to R257).
The model's own readings that it rests on: log 39 and 41. -/
def Obligations.RangeWords : Prop :=
  ∀ (s : State) (d a b l : BitVec 5),
    let va := (s.reg a).toNat
    let v := s.reg b
    let id := s.nextId
    let me := s.issuer
    let port := s.here.sPort d.toNat
    let ends := fun (t : State) => t.countRange.traceQ va
    (va < 2 ^ 48 →
      (∀ p : Instr × RangeWord, p ∈ [(Instr.rinv a, RangeWord.remove),
          (.rresSet d a b, .window false (s.reg d) v), (.rresGrow d a b, .window true (s.reg d) v),
          (.rprotAll a b, .protect 0 v), (.rprotPerm a b, .protect 1 v), (.rprotKey a b, .protect 2 v),
          (.rmove a b, .move v)] →
        let t := State.abortMove { s with nextId := id + 1 } s.wantedSet va p.2
        (∀ u n, t.rangeStep id me s.wantedSet va p.2 = .applied u n → s.runs [(p.1, ends u)]) ∧
        (∀ st, t.rangeStep id me s.wantedSet va p.2 = .failed st →
          s.runs [(p.1, ends (t.rangeFailed me id st p.2.op))]) ∧
        (t.rangeStep id me s.wantedSet va p.2 = .waits → s.runs [(p.1, ends (State.push
          { t with ops := t.ops ++ [{ id := id, by_ := me, op := .rangeAsk s.wantedSet va p.2 }] }
          (.rangeUpdate s.cur id)))])) ∧
      (s.here.buffered < 64 →
        (∀ p : Instr × RangeWord, p ∈ [(Instr.rsplit d a b l, RangeWord.split v), (.rmerge d a b l, .merge v)] →
          let t : State := { s with nextId := id + 1 }
          (∀ st, t.rangeStep id me s.wantedSet va p.2 = .failed st →
            s.runs [(p.1, ends (t.timedNow port 24 l.toNat (2 ^ 56 * st)))]) ∧
          (∀ u n, t.rangeStep id me s.wantedSet va p.2 = .applied u n →
            s.runs [(p.1, ends (u.timedNow port 24 l.toNat (n % 2 ^ 56)))]) ∧
          (t.rangeStep id me s.wantedSet va p.2 = .waits →
            s.runs [(p.1, ends ((s.askNow port 24 l.toNat (.rangeAsk s.wantedSet va p.2)).push (.rangeUpdate s.cur id)))])) ∧
        (v.toNat < 8 → s.runs [(.rlook d a b l, ends (s.timedNow port 24 l.toNat (s.lookWord s.wantedSet va v.toNat)))]) ∧
        (8 ≤ v.toNat → s.runs [(.rlook d a b l, ends (s.timedNow port 24 l.toNat (2 ^ 56 * 0x21)))]))) ∧
    (s.here.buffered < 64 →
      let clear := fun (t : State) => t.onHere fun c => c.setCtx { c.ctx with rcount := 0 }
      let r := s.here.ctx.fenceResult id s.here.ctx.rcount
      (s.rangesPending s.cur s.here.inHandler id = true →
        s.runs [(.rfence d l, (clear (s.askNow port 24 l.toNat (.rangeFence s.here.ctx.rcount))).traceQ 0)]) ∧
      (s.rangesPending s.cur s.here.inHandler id = false →
        s.runs [(.rfence d l, (clear ((s.onHere fun c => c.setCtx r.1).timedNow port 24 l.toNat r.2)).traceQ 0)]))

/-- The events of the directory: an update whose old descriptors have no access in flight completes, its set is
written to the directory in memory and its fences are served, one that still counts some comes again; a walk on a range that no update locks loads the table, or notes the miss;
a block of a move is copied, its watermark advances, and the last one ends in an update (R244, R248, R251).
The model's own readings that it rests on: log 39, 40, 43 and 123. -/
def Obligations.RangeEvents : Prop :=
  ∀ (s : State) (core op : Nat) (p : Pending),
    (s.findOp op = some p →
      (∀ u, p.op = .range u →
        ((∀ c ∈ s.clusters, ∀ d ∈ u.old, c.2.count (d.rid, d.version) = 0) →
          s.runs [(.rangeUpdate core op,
            (((if u.move then s.finishMove else s).dropOp op).writeSet u.set).settleFences p.by_)]) ∧
        ((∃ c ∈ s.clusters, ∃ d ∈ u.old, c.2.count (d.rid, d.version) ≠ 0) →
          s.runs [(.rangeUpdate core op, s.push (.rangeUpdate core op))])) ∧
      (∀ set va w, p.op = .rangeAsk set va w → (s.abortMove set va w).rangeStep op p.by_ set va w = .waits →
        s.runs [(.rangeUpdate core op, (s.abortMove set va w).push (.rangeUpdate core op))])) ∧
    (∀ va set, (s.core core).tableSet = some set → s.lockedAt set va = false →
      (∀ d, descAt ((Sparse.get? s.hub.dir set).getD []) va = some d →
        s.runs [(.rangeWalk core false va, s.onCore core fun c => { c with table := tableWith c.table d })]) ∧
      (descAt ((Sparse.get? s.hub.dir set).getD []) va = none →
        s.runs [(.rangeWalk core false va, s.onCore core fun c => { c with walkMiss := c.walkMiss ++ [(set, va)] })])) ∧
    (∀ va l d, s.hub.launch = some l → (s.hub.dir.flatMap (·.2)).find? (fun d => d.rid == l.coderid) = some d →
      s.lockedRid d.rid = false →
      s.runs [(.rangeWalk core true va, s.onCore core fun c => { c with codeEntry := some d, codeLaunch := some l.num })]) ∧
    (∀ m rest x, s.hub.moves = m :: rest → (s.hub.set_ m.set).find? (fun d => d.rid == m.rid) = some x →
      s.updates.any (·.move) = false → m.aborted = false →
      let w := m.mark.getD 0
      (x.rlimit - x.rbase ≤ w →
        s.runs [(.compactionBlock, (s.onHub fun h => { h with moves := { m with mark := some w } :: rest }).beginUpdate m.id
          m.by_ m.set [x] [{ x with poff := m.poff }.advanced] [] true)]) ∧
      (w < x.rlimit - x.rbase →
        let from_ := x.physical x.rbase + w
        let t := (List.range 64).foldl (fun t i => t.copyBlock (t.keyNo x.key) (from_ + 64 * i) (m.base + w + 64 * i)) s
        let t := t.onLaunch fun l => { l with pwrites := (l.rebase from_ (m.base + w) 4096).pwrites }
        s.runs [(.compactionBlock, t.onHub fun h => { h with moves := { m with mark := some (w + 4096) } :: rest })]))

/-! The fabric. -/

/-- The fabric words: FPUT and FGET read a record; a malformed one is noted as 0x80 in the summary and marks the phase, and a well-formed one
whose local side and barrier are bound becomes a remote operation. FBAR with a legal handle and box and a bound object
goes to the hub; FSTAT lands the summary and clears it, a port or the pod; CPOST begins to copy its image, which then joins
the collective list of a launch with room, else 0x8B is noted (R426 to R432, R437, R448).
The model's own readings that it rests on: log 69, 70, 72 and 76. -/
def Obligations.FabricWords : Prop :=
  ∀ (s : State) (d a b l : BitVec 5),
    let v := s.reg a
    let off := v.toNat
    let port := s.here.sPort d.toNat
    let answers := fun (t : State) (w : Nat) => (t.timedNow port 24 l.toNat w).traceQ 0
    (blockOffset v = true → s.here.sends.length < 16 →
      (s.badAt s.cur false off 64 = false →
        let r := FabRecord.parse (s.ownRead false off 64)
        (s.malformed r false = true → s.runs [(.fput a, ((s.fabricFail s.issuer 0x80 0x10).spoil).traceQ 0)]) ∧
        (s.malformed r true = true → s.runs [(.fget a, ((s.fabricFail s.issuer 0x80 0x11).spoil).traceQ 0)]) ∧
        (∀ t x u bar w, s.malformed r false = false → s.bindSide r.lsp r.laddr r.len permR = .ok (t, x) →
          t.bindBarrier r.bar = .ok (u, bar) → u.acquireAll ([x, bar].filterMap id) = some w →
          s.runs [(.fput a, (w.sendRemote r false x bar).traceQ (if r.lsp = 0 then r.laddr else r.bar))]) ∧
        (∀ t x u bar w, s.malformed r true = false → s.bindSide r.lsp r.laddr r.len permW = .ok (t, x) →
          (∀ y, x = some y → y.versioned = false) →
          t.bindBarrier r.bar = .ok (u, bar) → u.acquireAll ([x, bar].filterMap id) = some w →
          s.runs [(.fget a, (w.sendRemote r true x bar).traceQ (if r.lsp = 0 then r.laddr else r.bar))])) ∧
      s.runs [(.cpost a, (((s.addOp s.issuer (.cpost off [])).onHere fun c =>
        { c with sends := c.sends ++ [s.nextId] }).spoil).traceQ 0)]) ∧
    (∀ op p o image, s.findOp op = some p → p.op = .cpost o image →
      (image.length < imageBytes o →
        s.servePost op = s.replaceOp op (.cpost o (image ++ s.agentRead p.by_.core false (o + image.length) 64))) ∧
      (∀ k, imageBytes o ≤ image.length → s.hub.launch = some k → k.ident = p.by_.launch →
        let t := s.leaveSends p.by_.core op
        (k.collectives.length < 64 → s.servePost op =
          t.onLaunch fun l => { l with collectives := l.collectives ++ [t.postedEntry image] }) ∧
        (64 ≤ k.collectives.length → s.servePost op = t.fabricFail p.by_ 0x8B 0x14))) ∧
    (∀ op p handle box obj, s.findOp op = some p → p.op = .fbar handle box obj →
      s.serveFbar op = (s.leaveSends p.by_.core op).fbarArrives handle { by_ := p.by_, id := op, box := box, obj := obj }) ∧
    (off < 2 ^ 24 → off % 65536 ≠ 0 →
      let box := (s.reg d).setWidth 25
      let w := (s.reg b).toNat
      let arrives := fun (u : State) (x : Option Bound) =>
        ((u.addOp u.issuer (.fbar (v.setWidth 32) box x)).onHere fun c => { c with
          sends := c.sends ++ [u.nextId], fabOps := c.fabOps ++ [(c.inHandler, u.nextId)] }).traceQ w
      (w = 0 → s.fabric.boxFits box s.hub.index = true → s.here.sends.length < 16 →
        ∀ u, s.acquireAll [] = some u → s.runs [(.fbar d a b, arrives u none)]) ∧
      (∀ x u, w ≠ 0 → w % 64 = 0 → s.binds w 64 permS false x u → u.fabric.boxFits box u.hub.index = true →
        u.here.sends.length < 16 → s.runs [(.fbar d a b, arrives u (some x))])) ∧
    (off < 2 ^ 8 → s.here.buffered < 64 →
      (off % 16 = 0 → s.runs [(.fstat d a l,
        answers (s.onHere fun c => c.setCtx { c.ctx with fabFail := none }) s.here.fabricWord)]) ∧
      (off % 16 = 1 → off / 16 < 12 → s.runs [(.fstat d a l, answers s (s.portWord (off / 16)))]) ∧
      (off % 16 = 2 → s.runs [(.fstat d a l, answers s (s.podWord v))]) ∧
      (3 ≤ off % 16 ∨ (off % 16 = 1 ∧ 12 ≤ off / 16) → s.runs [(.fstat d a l, answers s (2 ^ 56 * 0x8F))]))

/-- The events of ports and packets: replays are counted, and the sixteenth one of a flit in a row has its port retrain; a port in
service retrains, returns to service, or after three
failures within a second stays down; a packet that comes in order is applied and answered, and one that was applied before
is discarded; an operation reads and sends its next packet; a packet unanswered for 20 µs is sent again and its fifth loss ends the
operation with 0x88; acknowledgements and get responses write and end the operation, that of a put with the acknowledgement of its
last packet; a port that stays down and a package's death, also the own one once every port has been down for 20 µs, end the
operations that can no longer arrive (R422 to R430). -/
def fabricEvents : Prop :=
  ∀ (s : State) (n : Nat),
    (n < 12 →
      let p := s.fabric.port n
      (∀ again : Bool,
        let q := { p with replays := min (p.replays + 1) (2 ^ 32 - 1), run := if again then p.run + 1 else 0 }
        (q.run < 16 ∨ p.state ≠ 0 → s.runs [(.flitReplay ⟨n, again⟩, s.onFabric fun f => f.setPort n q)]) ∧
        (16 ≤ q.run → p.state = 0 →
          s.runs [(.flitReplay ⟨n, again⟩, s.portState n { q with state := 1, retrains := p.retrains + 1, run := 0 })])) ∧
      (p.state = 0 → s.runs [(.portRetrain n, s.portState n { p with state := 1, retrains := p.retrains + 1 })]) ∧
      (p.state = 1 →
        s.runs [(.portRetrainingEnd n true, s.portState n { p with state := 0 })] ∧
        (let late := s.time :: p.failures.filter fun t => decide (s.time ≤ t + 10 ^ 9)
         (3 ≤ late.length →
           s.runs [(.portRetrainingEnd n false, (s.portState n { p with state := 2, failures := late, since := s.time }).cutOff)]) ∧
         (late.length < 3 → s.runs [(.portRetrainingEnd n false,
           s.onFabric fun f => f.setPort n { p with failures := late, retrains := p.retrains + 1 })])))) ∧
    (∀ p : Packet, let ahead := (p.seq + 2 ^ 29 - s.fabric.expected (streamOf p)) % 2 ^ 29
      (2 ^ 28 ≤ ahead → s.runs [(.packetArrival p, s)]) ∧
      (ahead < 2 ^ 28 → s.fabric.early.contains p = false →
        let t := s.onFabric fun f => { f with early := f.early ++ [p] }
        s.runs [(.packetArrival p, t.drainStream (streamOf p) (t.fabric.early.length + 1))])) ∧
    (∀ r, s.fabric.remote n = some r →
      (let due := (lastSent n s.fabric.sent).filter fun p => decide (p.2.1 + 20000 ≤ s.time)
       (due = [] → s.runs [(.packetTimeout n, s)]) ∧
       ∀ p, choose s.fresh 46000 due = some p →
        let k := (Sparse.get? r.tries p.2.2.seq).getD 0
        (4 ≤ k → s.runs [(.packetTimeout n, s.completeRemote r 0x88)]) ∧
        (k < 4 → s.runs [(.packetTimeout n,
          (s.putRemote { r with tries := Sparse.set r.tries p.2.2.seq (k + 1) }).emit p.1 p.2.2)])) ∧
      (∀ lsp laddr pkg qf rid roff red len group user l bar, r.op = .fput lsp laddr pkg qf rid roff red len group user l bar →
        (let all := (len + 511) / 512
         let now := r.acked + if qf then all else 1
         (now ≤ r.left → all ≤ r.left → all ≤ now → s.runs [(.fabricCompletion n 0 [], s.completeRemote r 0)]) ∧
         (now ≤ r.left → r.left < all ∨ now < all →
           s.runs [(.fabricCompletion n 0 [], s.putRemote { r with acked := now })])) ∧
        (let d := s.localRead r.by_ lsp laddr l r.piece.1 r.piece.2
         let k := min 512 (len - 512 * r.left)
         (d.2.2 = false → s.sendNext n = d.1.completeRemote r 0x8C) ∧
         (d.2.2 = true → (r.buf ++ d.2.1).length < k → s.sendNext n = d.1.putRemote { r with buf := r.buf ++ d.2.1 }) ∧
         (d.2.2 = true → k ≤ (r.buf ++ d.2.1).length → qf = false →
           s.sendNext n = d.1.sendPacket r rid (roff + 512 * r.left) len roff red group user (r.buf ++ d.2.1)) ∧
         (d.2.2 = true → k ≤ (r.buf ++ d.2.1).length → qf = true →
           s.sendNext n = d.1.sendPacket r rid roff len roff red group user (r.buf ++ d.2.1))) ∧
        (∀ st : BitVec 8, st ≠ 0 → s.runs [(.fabricCompletion n st [], s.completeRemote r st.toNat)])) ∧
      (∀ lsp laddr pkg rid roff len group l bar bytes, r.op = .fget lsp laddr pkg rid roff len group l bar →
        let w := s.localWrite r.by_ lsp laddr l r.got bytes
        s.sendNext n = s.sendPacket r rid roff len roff 0 group 0 [] ∧
        (r.got + bytes.length = len → s.runs [(.fabricCompletion n 0 bytes, w.1.completeRemote r w.2)]) ∧
        (r.got + bytes.length < len → s.runs [(.getResponseArrival n bytes,
          w.1.putRemote { r with got := r.got + bytes.length, failed := if r.failed = 0 then w.2 else r.failed })]))) ∧
    (n < s.fabric.size → s.fabric.dead.contains n = false → n = s.hub.index → s.cutFromPod = false →
      s.runs [(.packageDeath n, s)]) ∧
    (n < s.fabric.size → s.fabric.dead.contains n = false → (n = s.hub.index → s.cutFromPod = true) →
      let t := (s.onFabric fun f => { f with dead := f.dead ++ [n] }).hubEvent 0x19 n
      t.cutOff.fabric.entries.filter t.cutOff.breaks = [] → s.runs [(.packageDeath n, t.cutOff)])

/-- The events of fabric barriers: an arrival of a child joins its entry and climbs, or opens one; a completed round
goes on to the children, advances the generation and sends one arrival to each recorded object in ascending logical index; a round
that stayed open too long, or whose box lost a package, breaks here and in the other packages of its box (R432 to R435). -/
def fabricBarrierEvents : Prop :=
  ∀ (s : State) (key child : Nat),
    (∀ e, s.fabric.entryByKey key = some e →
      (e.children.contains child = false →
        s.runs [(.fabricBarrierArrival key child, s.climb { e with children := e.children ++ [child] })]) ∧
      (e.children.contains child = true → s.runs [(.fabricBarrierArrival key child, s)]) ∧
      (e.isOpen = true → e.sentUp = true →
        let t := ((s.sendFlits e (s.fabric.treeChildren e.box s.hub.index)).endRound e).onFabric
          fun f => f.setEntry (e.closed ((e.gen + 1) % 65536))
        (e.pod = true → s.runs [(.fabricBarrierRelease key, t.onLaunch fun l => { l with podDone := true })]) ∧
        (e.pod = false → s.runs [(.fabricBarrierRelease key, ((byFbarIndex e.recs).foldl (fun t r =>
          match r.obj with
          | none => t.endFbar r
          | some b => ((t.endFbar r).addOp r.by_ (.fabricArrive b.object.1 b.object.2 (some b))).push
              (.syncOperation r.by_.core (t.endFbar r).nextId)) t).joinHeld e.gid e.nextRecs)])) ∧
      (s.breaks e = true → s.runs [(.roundBreak ⟨key, false⟩, s.breakHere e)]) ∧
      (s.breaks e = false → s.runs [(.roundBreak ⟨key, false⟩, s)]) ∧
      (e.join = false → s.runs [(.roundBreak ⟨key, true⟩, s.breakRound e)])) ∧
    (s.fabric.entryByKey key = none → s.fabric.entry (key % 65536) false = none → key < 2 ^ 24 →
      (s.fabric.entries.filter (·.active)).length < 1024 →
      s.runs [(.fabricBarrierArrival key child, s.onFabric fun f => f.setEntry
        { FabEntry.fresh (key % 65536) (BitVec.ofNat 8 (key / 65536)) false with children := [child] })])

/-- The events of ports, packets and fabric barriers (R422 to R435).
The model's own readings that it rests on: log 3, 69, 71, 73, 75, 77 and 126. -/
def Obligations.FabricEvents : Prop := fabricEvents ∧ fabricBarrierEvents


/-! The command processor and the collectives. -/

/-- The host's commands to a package that booted: a doorbell that gives more entries is stored and one that gives fewer is
refused; a register write changes its register, PGT and THERM among them, and one of another offset changes nothing; HSTAT's read clears BADCMD; a value that names no command is refused;
CONTINUE takes entries again; FREEZE and UNFREEZE act on the record that TRSEL names (R387 to R389, R395, R399, R402).
The model's own readings that it rests on: log 89 and 90. -/
def Obligations.HostCommands : Prop :=
  ∀ (s : State) (v : W64), s.platform.bootFailed = false →
    let h := s.hub
    let n := v.toNat
    let tail := n % 2 ^ h.lqsize
    (h.pendingEntries ≤ (tail + 2 ^ h.lqsize - h.lqhead) % 2 ^ h.lqsize →
      s.runs [(.doorbell v, s.onHub fun h => { h with lqtail := tail })]) ∧
    ((tail + 2 ^ h.lqsize - h.lqhead) % 2 ^ h.lqsize < h.pendingEntries → s.runs [(.doorbell v, s.badCommand)]) ∧
    (h.run = false → h.lqhead = h.lqtail →
      s.runs [(.hostRegisterWrite 0x20 v, s.onHub fun h =>
        { h with lqbase := BitVec.ofNat 64 (4096 * (n / 2 ^ 12 % 2 ^ 40)) })] ∧
      (4 ≤ n % 32 → n % 32 ≤ 16 → s.runs [(.hostRegisterWrite 0x28 v, s.onHub fun h =>
        { h with lqsize := n % 32, lqtail := h.lqtail % 2 ^ (n % 32), lqhead := h.lqhead % 2 ^ (n % 32) })])) ∧
    (h.run = true ∨ h.lqhead ≠ h.lqtail →
      s.runs [(.hostRegisterWrite 0x20 v, s.badCommand), (.hostRegisterWrite 0x28 v, s.badCommand)]) ∧
    (h.run = false → h.lqhead = h.lqtail → n % 32 < 4 ∨ 16 < n % 32 →
      s.runs [(.hostRegisterWrite 0x28 v, s.onHub fun h =>
        { h with lqsize := 4, lqtail := h.lqtail % 16, lqhead := h.lqhead % 16 })]) ∧
    s.runs [(.hostRegisterWrite 0x40 v, s.onHub fun h => { h with
      pgt := BitVec.ofNat 64 ((if n / 256 % 16 = 1 then 256 else 0) + if n / 16 % 16 = 1 then 16 else 0) })] ∧
    (n % 16 ≤ 8 → s.runs [(.hostRegisterWrite 0x50 v, s.onHub fun h => { h with trsel := n % 16 })]) ∧
    (8 < n % 16 → s.runs [(.hostRegisterWrite 0x50 v, s.onHub fun h => { h with trsel := 0 })]) ∧
    s.runs [(.hostRegisterWrite 0x340 v, s.onPlatform fun p => { p with
      tjthr := if 70 ≤ n / 2 ^ 40 % 256 ∧ n / 2 ^ 40 % 256 ≤ 100 then n / 2 ^ 40 % 256 else 95, tien := v.getLsbD 0 })] ∧
    (∀ offset, offset ∉ [0x20, 0x28, 0x40, 0x50, 0x58, 0x100, 0x340] → s.runs [(.hostRegisterWrite offset v, s)]) ∧
    s.runs [(.hostRegisterWrite 0x58 v, s.onHub fun h => { h with tridx := n % 2 ^ 12 }),
      (.hostRegisterWrite 0x100 v, s.onPlatform fun p => { p with hwkey := n % 2 ^ 10 })] ∧
    s.runs [(.hstatRead, (s.onPlatform fun p => { p with hostRead := natToBytes 8 s.hstat.toNat }).onHub fun h =>
      { h with badcmd := false })] ∧
    (n % 256 = 0 ∨ 6 < n % 256 → s.runs [(.hcmdInvalid v, s.refuseCommand n)]) ∧
    s.runs [(.continueCmd, s.onHub fun h => { h with qstop := false })] ∧
    (∀ p : Instr × Bool, p ∈ [(Instr.freeze, true), (.unfreeze, false)] →
      (h.trsel = 0 → s.runs [(p.1, s.onHub fun h => { h with transom := { h.transom with frozen := p.2 } })]) ∧
      (h.trsel ≠ 0 → s.runs [(p.1, s.onDie (h.trsel - 1) fun d => { d with transom := { d.transom with frozen := p.2 } })]))

/-- The entries of the launch queue: one of no type fails with fault 0x01; a job's start zeroes the package's state, loads
its keys and counts the job; a job's end zeroes it and drops the keys; a launch that passes its checks begins, and its
records are created one after the other, one that fails a check ends with that check's number; a phase that has ended is held, joins the barrier of the pod, and commits (R93,
R390, R391, R394, R396).
The model's own readings that it rests on: log 86, 87, 88 and 94. -/
def Obligations.LaunchQueueEntries : Prop :=
  ∀ (s : State),
    let i := s.hub.lqhead
    let dws := s.headEntry
    (∀ t, s.entryDue = some t → t = 0 ∨ 4 < t →
      s.runs [(.unknownEntry, (s.takeEntry t s.hub.ident).entryError i false 0)]) ∧
    (s.entryDue = some 3 → jobForm dws = true → (s.takeEntry 3 s.hub.ident).failedDie = none →
      let u := (s.takeEntry 3 s.hub.ident).zeroJob.onHub fun h =>
        { h.clearKeys.loadKeys (fieldOf (dws.getD 0 0) 0 10) (fieldOf (dws.getD 0 0) 16 10) with
          jseq := h.jseq + 1, lseq := 0, job := true }
      s.runs [(.jobStart, (u.onPlatform fun p => { p with subcnt := 0 }).endEntry i false 0 0 0 [])]) ∧
    (s.entryDue = some 4 → s.runs [(.jobEnd, ((s.takeEntry 4 s.hub.ident).zeroJob.onHub fun h =>
      { h.clearKeys with job := false }).endEntry i false 0 0 0 [])]) ∧
    (s.entryDue = some 1 →
      let irq := (dws.getD 0 0).getLsbD 47
      let h : Hub := { s.hub with lseq := s.hub.lseq + 1 }
      let t := ({ s with hub := h } : State).takeEntry 1 h.ident
      (s.hub.job = false → s.runs [(.launch, (s.takeEntry 1 s.hub.ident).entryError i irq 0)]) ∧
      (∀ u, s.hub.job = true → t.checkLaunch { dws := dws } i = .ok u → s.runs [(.launch, u)]) ∧
      (∀ n, s.hub.job = true → t.checkLaunch { dws := dws } i = .error n → s.runs [(.launch, t.entryError i irq n)])) ∧
    (∀ l dws d i, s.hub.launch = some l → l.roots = some (dws, d, i) →
      let e : LaunchEntry := { dws := dws }
      (i + 1 < e.count → s.nextRoot = (s.createRoot e d i).onLaunch fun l => { l with roots := some (dws, d, i + 1) }) ∧
      (e.count ≤ i + 1 → s.nextRoot = ((s.createRoot e d i).onLaunch fun l => { l with roots := none }).openPhase 0)) ∧
    (∀ l, s.hub.launch = some l → s.commitDue = true →
      (s.hub.hold = false → s.runs [(.phaseCommit, s.holdPhase)]) ∧
      (s.hub.hold = true → l.ppol = 2 → l.podDone = false → s.runs [(.phaseCommit, s.joinPod l)]) ∧
      (s.hub.hold = true → (l.ppol = 2 → l.podDone = true) → s.runs [(.phaseCommit, s.commitPhase l)]))

/-- Pre-emption: PREEMPT stops a package that runs and is refused while a pre-emption is under way; each engine's
acknowledgement is counted once and the last one completes it; an engine other than a core that stays silent for 10 ms
is recorded, fails the entry with 0x0C and counts as acknowledged; a command during a commit waits for its end; RESUME restarts the
classes in their order, and a copy engine's report restores its cluster; CANCEL ends the entry of a stopped package (R398,
R400, R401). A core saves itself at its point of interruption, and a saved core goes on when it resumes, or
loses its strand where its save area can not be read (R272, R274, R410).
The model's own readings that it rests on: log 91, 92 and 93. -/
def Obligations.PreemptionEvents : Prop :=
  ∀ (s : State) (e core : Nat), s.platform.bootFailed = false →
    let h := s.hub
    (s.commits = false → h.pstate = 0 ∨ h.pstate = 4 → s.runs [(.preempt, s.beginPreempt 1)]) ∧
    (s.commits = false → h.pstate ≠ 0 → h.pstate ≠ 4 → s.runs [(.preempt, s.refuseCommand 1)]) ∧
    (s.commits = true → s.runs [(.preempt, s.holdCommand 1), (.cancel, s.holdCommand 3)]) ∧
    (e < engineCount → h.pstate = 1 → h.acks.contains e = false →
      let t := s.onHub fun h => { h with
        acks := h.acks ++ [e]
        pstat := pstatWord (fieldOf h.pstat 32 32) (h.acks.length + 1) (engineClass e) }
      (h.acks.length + 1 = engineCount → s.runs [(.preemptAcknowledgement e, t.preempted (engineClass e))]) ∧
      (h.acks.length + 1 ≠ engineCount → s.runs [(.preemptAcknowledgement e, t)]) ∧
      (640 ≤ e → h.preStart + 10 ^ 7 ≤ s.time →
        let fails := fun (u : State) => (u.failEntry 0x0C [BitVec.ofNat 64 (engineClass e), 0, 0, 0]).acknowledge e
        (e < 1920 → s.runs [(.preemptionTimeout e, fails (s.noteDieCheck ((e - 640) / 160) 3 e))]) ∧
        (1920 ≤ e → e < 2080 → s.runs [(.preemptionTimeout e, fails (s.noteDieCheck ((e - 1920) / 20) 3 e))]) ∧
        (2080 ≤ e → e < 2088 → s.runs [(.preemptionTimeout e, fails (s.noteDieCheck (e - 2080) 3 e))]) ∧
        (2088 ≤ e → s.runs [(.preemptionTimeout e, fails s.noteHubCheck)]))) ∧
    (h.pstate ≠ 2 → s.runs [(.resume, s.refuseCommand 2)]) ∧
    (h.pstate = 2 → h.acks ≠ [] →
      let t := s.shiftHeld
      s.runs [(.resume, t.onHub fun h => { h with pstate := 3, toResume := t.restartOrder, preStart := s.time })]) ∧
    (e < engineCount → h.pstate = 3 → h.resuming.contains e = true →
      let t := s.onHub fun h => { h with toResume := h.toResume.filter (· != e), acks := h.acks.filter (· != e) }
      let u := if 640 ≤ e ∧ e < 1920 then t.restoreCluster ((e - 640) / 8) else t
      (u.hub.toResume = [] → s.runs [(.engineResumeReport e, u.resumed)]) ∧
      (u.hub.toResume ≠ [] → s.runs [(.engineResumeReport e, u.startRestores)])) ∧
    (s.commits = false →
      (h.pstate = 2 → s.runs [(.cancel, s.cancelEntry)]) ∧
      (h.pstate = 1 → s.runs [(.cancel, s.onHub fun h => { h with cancelling := true })]) ∧
      (h.pstate = 0 → s.runs [(.cancel, (s.onHub fun h => { h with cancelling := true }).beginPreempt 3)]) ∧
      (3 ≤ h.pstate → s.runs [(.cancel, s.refuseCommand 3)])) ∧
    (core < 640 →
      let c := s.core core
      (c.canSave = true → c.act = .idle →
        s.runs [(.preemptionService core, (s.onCore core fun c => { c with preempt := false, act := .saved none }).push
          (.preemptAcknowledgement core))]) ∧
      (c.canSave = true → c.act = .running → c.urgent = false → c.landings = [] → c.mat = Matrix.reset →
        s.copyStopped (clusterOf core) = true →
        let t := s.setCore core { c.advance s.time s.fresh (max c.cycle c.lastDue) with
          saveStart := some (c.saveStart.getD s.time) }
        s.runs [(.preemptionService core, t.saveCore core)]) ∧
      (∀ was, c.act = .saved was →
        (s.saveLost core = false → s.runs [(.coreResume core, ((s.readSave core).onCore core
          fun c => c.resumed core s.time (Config.periods s.fresh) was).push (.engineResumeReport core))]) ∧
        (∀ l, s.saveLost core = true → s.hub.launch = some l →
          s.runs [(.coreResume core, ((((s.noteAccess (s.keyNo 0) (l.saveOf core) (8804 * 1024)).onCore core fun c =>
            { c with saveStart := none }).loseStrand core).dieCheck (dieOfCore core) 0 core).push (.engineResumeReport core))])))

/-- Collectives: an entry that is due and passes its checks begins its join, one that fails a check ends with 0x20; a
participant's join is counted, and one with another hash ends the collective with 0x22; a participant that stays away too
long counts as dead; a join that comes before this package has an entry waits for it; a sound chunk is combined, the first unsound
one of a participant is asked for again and a second one ends the collective with 0x23; after a death the survivors agree on the
lowest count of chunks and resume there; behind the last chunk the entry ends, with the dead where there are any (R440 to R448).
The model's own readings that it rests on: log 95, 96, 97, 98, 99 and 127. -/
def Obligations.CollectiveEvents : Prop :=
  ∀ (s : State),
    (∀ i dws, s.collDue = some (some i, dws) →
      let t := s.takeEntry 2 s.hub.ident
      (t.hub.job = false → s.runs [(.collectiveEntry, t.endEntry s.hub.lqhead (fieldOf (dws.getD 0 0) 55 1 == 1) 0x01 0 (2 ^ 32 - 1) [0, 0, 0, 0])]) ∧
      (∀ n, t.hub.job = true → t.checkColl dws false = .error n →
        s.runs [(.collectiveEntry, t.endColl dws (some i) 0x20 n 0 [] none)]) ∧
      (∀ a b, t.hub.job = true → t.checkColl dws false = .ok (a, b) →
        s.runs [(.collectiveEntry, t.beginColl
          { dws := dws, index := some i, sbuf := a, dbuf := b, opened := false, joined := false, peers := [t.hub.index]
            dead := [], stepNo := 0, chunk := 0, sent := 0, resume := none, since := t.time, part := [], out := [], flags := 0
            bad := [] })])) ∧
    (∀ peer hash, s.hub.coll = none →
      s.runs [(.collectiveJoin peer hash, s.onHub fun h => { h with joins := h.joins ++ [(peer, hash)] })]) ∧
    (∀ c, s.hub.coll = some c →
      (∀ peer hash, c.joined = false → c.opened = true → c.peers.contains peer = false →
        (s.participants c.dws).any (fun p => p.1 == peer && !c.dead.contains p.2) = true →
        (hash = collHash c.dws → s.runs [(.collectiveJoin peer hash, s.tryJoin { c with peers := c.peers ++ [peer] })]) ∧
        (hash ≠ collHash c.dws → s.runs [(.collectiveJoin peer hash, s.failColl 0x22 0)])) ∧
      (∀ peer p, c.joined = false → c.opened = true → c.peers.contains peer = false → c.since + joinLimit c.dws ≤ s.time →
        (s.participants c.dws).find? (fun p => p.1 == peer) = some p →
        s.runs [(.joinTimeout peer, s.tryJoin { c with dead := insertRank p.2 c.dead })]) ∧
      (∀ xs : List Contribution, c.joined = true → xs.length = (s.survivors c).length → (∀ x ∈ xs, x.bytes = []) →
        (s.newlyDead c ≠ [] →
          let p := (xs.map (·.done)).foldl min c.chunk
          s.runs [(.collectiveChunk xs, (s.onHub fun h => { h with coll := some { c with
            dead := (s.newlyDead c).foldl (fun l r => insertRank r l) c.dead, chunk := p, sent := p, resume := some p
            bad := [] } }).sendAhead 8)]) ∧
        (s.newlyDead c = [] → s.collDone c = true → s.runs [(.collectiveChunk xs,
          s.endColl c.dws c.index (if c.dead = [] then 0 else 0x21) c.dead.length
            ((xs.map (·.flags)).foldl (· ||| ·) c.flags) c.dead c.resume)])) ∧
      (∀ contribution, c.joined = true → s.newlyDead c = [] → s.collDone c = false →
        let step := c.steps.getD c.stepNo .copy
        let first := c.chunk * collChunk c.dws
        let n := min (collChunk c.dws) (partSize (s.collRanges c (c.stepNo + 1)) - first)
        let me := s.ownCoords c.dws
        let ring := step.ring (collExtents c.dws) me c.dead
        let bad := contribution.filter fun x => !contributionSound c.dws n x.bytes
        let places := bad.flatMap contributionPlaces
        contributionsFit c.dws step ring me n contribution = true →
        (bad = [] → s.runs [(.collectiveChunk contribution, s.runChunk c step contribution first n)]) ∧
        (bad ≠ [] →
          (places.any c.bad.contains = true → s.runs [(.collectiveChunk contribution, s.failColl 0x23 c.stepNo)]) ∧
          (places.any c.bad.contains = false →
            s.runs [(.collectiveChunk contribution, (places.foldl (fun t i =>
              t.sendOwn (s.collPackage c.dws (ring.getD i [])) 5 (collHandle c.dws) (BitVec.ofNat 32 c.chunk) [])
                s).onHub fun h => { h with coll := some { c with bad := c.bad ++ places } })]))))

/-! The platform, resets and faults. -/

/-- The platform: boot verifies and measures its ten images, tests the dies and verifies the last image, or stops at the failed
stage; the host's window reads and writes HBM under its key; attestation reports the measurements with a nonce of up to 64 bytes;
the patrol arms a write-back that a step 64 ns later or more writes; a margin that falls below its threshold asks for retraining,
and a retraining slot serves every lane below it; a droop stretches the clock and raises the rail; the clock target falls where the
rails and the rest of the package draw too much, and above the threshold by 25 MHz in a millisecond with an interrupt when throttling begins, rises again once
every junction is 5 degrees below it, and a junction at 110 degrees trips its die; a poll reads a rail, and a silent regulator is
noted until it answers (R404 to R419).
The model's own readings that it rests on: log 8, 100, 101, 102, 103 and 108. -/
def Obligations.PlatformEvents : Prop :=
  ∀ (s : State),
    (s.platform.booted = false → s.platform.bootFailed = false →
      let m := bootImages s.platform.measures 0 10
      (m.2 = false ∨ Config.bootVerified 10 = false →
        s.runs [(.boot, s.onPlatform fun p => { p with measures := m.1, bootFailed := true })]) ∧
      (m.2 = true → Config.bootVerified 10 = true → s.runs [(.boot, s.bootTests.onPlatform fun p => { p with
        measures := measureImage m.1 10 (Config.bootImage 10 ++ s.bootTests.bootsumBytes), booted := true })])) ∧
    (s.platform.bootFailed = false →
      (∀ o n, o + n ≤ 2 ^ 40 →
        (s.windowKey = 0 → s.runs [(.windowRead o n,
          (s.badCommand).onPlatform fun p => { p with hostRead := List.replicate n 0 })]) ∧
        (s.windowKey ≠ 0 → s.runs [(.windowRead o n,
          (s.windowNotes o n).onPlatform fun p => { p with hostRead := s.windowBytes o n })])) ∧
      (∀ o bytes, o + bytes.length ≤ 2 ^ 40 →
        (s.windowKey = 0 → s.runs [(.windowWrite o bytes, s.badCommand)]) ∧
        (s.windowKey ≠ 0 → s.runs [(.windowWrite o bytes, s.windowStore (bytes.length / 64 + 2) o bytes)])) ∧
      (∀ nonce : List Byte, nonce.length ≤ 64 → let ms := s.platform.measures
        let i := s.hub.hid.toNat % 65536
        s.runs [(.attestationRequest nonce, s.onPlatform fun p => { p with
          report := some (ms, Config.securityVersion, i, nonce, Config.signature ms Config.securityVersion i nonce) })]) ∧
      (∀ stack v, stack < 16 →
        s.runs [(.eyectlWrite stack v, s.onEye stack fun e => { e with ctl := v % 2 ^ 29, int := false })])) ∧
    (∀ stack, stack < 16 →
      let e := s.platform.eye stack
      let b := 2 ^ 30 * stack + e.patrol
      let onward := fun (a : List (Nat × Bool × Nat)) => (s.noteRead (64 * b) 64).onEye stack fun e =>
        { e with armed := e.armed.filter (·.1 != b) ++ a, patrol := (e.patrol + 1) % (48 * 2 ^ 24) }
      ((s.poisoned (64 * b) 64 = true → s.runs [(.patrolScrub stack, onward [(b, true, s.time)])]) ∧
        (s.poisoned (64 * b) 64 = false → s.platform.soft.contains b = true →
          s.runs [(.patrolScrub stack, onward [(b, false, s.time)])]) ∧
        (s.poisoned (64 * b) 64 = false → s.platform.soft.contains b = false →
          s.runs [(.patrolScrub stack, onward [])])) ∧
      (∀ k bad at_ rest, e.armed = (k, bad, at_) :: rest → s.time < at_ + 64 → s.runs [(.scrubWriteback stack, s)]) ∧
      (∀ k bad at_ rest, e.armed = (k, bad, at_) :: rest → at_ + 64 ≤ s.time →
        let t := s.onEye stack fun e => { e with armed := rest }
        (bad = true → s.runs [(.scrubWriteback stack,
          t.onPlatform fun p => { p with poison := k :: p.poison.filter (· != k) })]) ∧
        (bad = false → s.runs [(.scrubWriteback stack,
          t.onPlatform fun p => { p with soft := p.soft.filter (· != k) })])) ∧
      (∀ lane, 0 < fieldOf e.ctl 0 16 → (∀ l ∈ e.low, l.lane ≠ lane % 65536) → ∃ margin, margin < fieldOf e.ctl 0 16 ∧
        let t := (s.onEye stack fun e => { e with
          int := true, rtpend := true
          low := e.low ++ [{ lane := lane % 65536, margin := margin, stage := 0 }] }).eyeEvent stack (lane % 65536) margin 0
        (e.ctl.getLsbD 16 = false → s.runs [(.eyeThresholdCrossed stack lane, t)]) ∧
        (e.ctl.getLsbD 16 = true → s.runs [(.eyeThresholdCrossed stack lane, t.interrupt 3)])) ∧
      (e.rtpend = true → s.runs [(.retrainingSlot stack,
        (e.low.foldl (fun t l => t.serveLane stack l) s).onEye stack fun e =>
          { e with rtpend := e.low.any fun l => decide (l.stage < 2) })]) ∧
      (∀ l : LowLane, let others := e.low.filter (·.lane != l.lane)
        (l.stage = 0 → ∃ margin,
          (margin < fieldOf e.ctl 0 16 → s.serveLane stack l =
            s.onEye stack fun e => { e with low := others ++ [{ l with margin := margin, stage := 1 }] }) ∧
          (fieldOf e.ctl 0 16 ≤ margin → s.serveLane stack l = s.onEye stack fun e => { e with low := others })) ∧
        (l.stage = 1 → e.spare = 0 → s.serveLane stack l =
          (s.onEye stack fun e => { e with nosp := true, low := others ++ [{ l with stage := 2 }] }).eyeEvent stack l.lane
            l.margin 2) ∧
        (l.stage = 1 → e.spare ≠ 0 → s.serveLane stack l = (s.onEye stack fun e => { e with
          spare := e.spare - 1, repd := min (e.repd + 1) 255, low := others }).eyeEvent stack l.lane l.margin 1))) ∧
    (∀ die volts amps, die < 8 →
      let r := s.platform.rail die
      let answers := fun (t : State) => (t.onPlatform fun p => { p with silent := p.silent.filter (· != die) }).onDie die
        fun d => { d with stretched := false }
      s.runs [(.droop die, (s.onDie die fun d => { d with stretched := true }).onRail die fun r => r.raise s.time),
        (.regulatorTimeout die, s.onPlatform fun p => { p with silent := die :: p.silent.filter (· != die) })] ∧
      (r.rise = false → s.runs [(.railPoll die ⟨volts, amps⟩,
        answers (s.onRail die fun r => { r with volts := volts, amps := amps }))]) ∧
      (r.rise = true → s.runs [(.railPoll die ⟨volts, amps⟩,
        answers (s.onRail die fun r => Rail.raise { r with volts := volts, amps := amps } s.time))]) ∧
      ((∀ t, r.wrote = some t → t + 10 ^ 4 ≤ s.time) →
        r.raise s.time = { r with target := min 220 (r.target + 1), wrote := some s.time, rise := false }) ∧
      (∀ t, r.wrote = some t → s.time < t + 10 ^ 4 → r.raise s.time = { r with rise := true })) ∧
    (∀ die junction x, die < 8 → junction < 4 →
      let p := s.platform
      let t := s.onDie die fun d => { d with temps := d.temps.set junction x }
      let u := t.onPlatform fun p => { p with tjmax := min t.hottest 255 }
      let ends := fun (w : State) =>
        (x < 110 → s.runs [(.thermalLoop die ⟨junction, x⟩, w)]) ∧
        (110 ≤ x → s.runs [(.thermalLoop die ⟨junction, x⟩, w.dieCheck die 0x20 0)])
      ((∃ b, p.stepped = some b ∧ s.time < b + 10 ^ 6) → ends u) ∧
      ((∀ b, p.stepped = some b → b + 10 ^ 6 ≤ s.time) →
        (let v := u.onPlatform fun p => { p with target := p.target - 25, throttling := true, stepped := some s.time }
         p.tjthr < t.hottest →
          (p.tien = true → p.throttling = false → ends (v.interrupt 4)) ∧
          (p.tien = false ∨ p.throttling = true → ends v)) ∧
        (t.hottest + 5 ≤ p.tjthr → p.throttling = true → ends (u.onPlatform fun p => { p with
          target := min 850 (p.target + 25), throttling := decide (p.target + 25 < 850), stepped := some s.time })) ∧
        (t.hottest ≤ p.tjthr → p.tjthr < t.hottest + 5 ∨ p.throttling = false → ends u))) ∧
    (∀ others, 5 * s.platform.power + 2 * others ≤ 3600000 → s.runs [(.powerLoop others, s)]) ∧
    (∀ others, 3600000 < 5 * s.platform.power + 2 * others → s.runs [(.powerLoop others, s.onPlatform fun p =>
      { p with target := max (min p.target 600) (p.target - 25) })])

/-- Resets of the package, a die and a core, and what a single fault does to the structure that it strikes: a line or a
block becomes uncorrectable, a register waits for the bundle that reads it, a record takes a reserved field, an undelivered
message is refused, an entry or a control unit raises the machine check of its core, die or hub; a unit that does not exist
stops by name (R8, R117, R222, R269, R280, R316, R340, R360, R379, R401, R406, R409, R420).
The model's own readings that it rests on: log 7, 15, 25, 104, 105, 106 and 107. -/
def Obligations.ResetsAndFaults : Prop :=
  ∀ (s : State) (c k d n x y z : Nat),
    let hits := fun (f : FaultSite) (t : State) => s.runs [(.singleFault f, t)]
    s.runs [(.reset 0 n, s.resetPackage false), (.reset 1 n, s.resetPackage true)] ∧
    (d < 8 → s.runs [(.reset 2 d, s.resetDie d)]) ∧
    (8 ≤ d → exec (.reset 2 d) s = .fault (.noSuchUnit d)) ∧
    (c < 640 → s.runs [(.reset 3 c, s.resetCore c)] ∧
      (x < 170 → hits (.register c x) (s.onCore c fun c => { c with badRegs := x :: c.badRegs.filter (· != x) })) ∧
      (x < 2 ^ 23 → hits (.coreLine c x) (s.onCore c fun c =>
        { c with badLines := x / 64 :: c.badLines.filter (· != x / 64) })) ∧
      hits (.threshold c x) (s.onCore c fun c =>
        { c with landings := markEntry (0x40000000000 + BitVec.ofNat 64 x) x c.landings }) ∧
      hits (.residue c) (s.onCore c fun c => c.residueFault s.fresh) ∧
      hits (.issue c) (s.onCore c Core.issueFault) ∧
      hits (.matrixControl c) (s.onCore c Core.sequencerFault) ∧
      hits (.accumulator c x y z) (s.onCore c fun c => c.upset s.fresh x y z) ∧
      hits (.checksum c x y z) (s.onCore c fun c => c.onMat fun m => m.putSet x ((m.set_ x).upsetCheck s.fresh y z)) ∧
      hits (.latch c x y z) (s.onCore c fun c => c.onMat fun m => m.upsetLatch s.fresh x y z) ∧
      hits (.coreRecord c x y) (s.onCore c fun c => c.spoilRecord s.fresh x y) ∧
      hits (.trace c x) (s.onCore c fun c => { c with trace := { c.trace with entries := Sparse.erase c.trace.entries x } }) ∧
      hits (.loopBuffer c) s ∧
      hits (.rangeEntry c x) (s.onCore c fun c =>
        { c with table := c.table.filter fun d => !(decide (d.vbase ≤ x) && decide (x < d.vlimit)) }) ∧
      (x < 8 →
        hits (.queueRegisters c x) (((s.onCore c fun c => c.setQueue x { c.queue x with
          desc := (c.queue x).desc &&& ~~~0x80000000#64 }).dieEvent (dieOfCore c) 0x0A c (c + 2 ^ 64 * x)).dieCheck
            (dieOfCore c) 3 (8 * c + x))) ∧
      (((s.core c).queue x).spilled ≠ [] →
        hits (.overflow c x) (s.onCore c fun c => c.setQueue x { c.queue x with spoiled := true }))) ∧
    (640 ≤ c → exec (.singleFault (.issue c)) s = .fault (.noSuchUnit c)) ∧
    (k < 160 →
      (x < 2 ^ 24 → hits (.clusterLine k x) (s.onCluster k fun c =>
        { c with badLines := x / 64 :: c.badLines.filter (· != x / 64) })) ∧
      hits (.tagSlot k x) (s.onCluster k fun c => { c with badSlots := x :: c.badSlots.filter (· != x) }) ∧
      hits (.lintel k) ((s.setNode k { s.node k with stopped := true }).dieCheck (k / 20) 3 k) ∧
      (((s.node k).entry x).held = none → hits (.heldOperand k x) s) ∧
      (((s.node k).entry x).held ≠ none →
        hits (.heldOperand k x) ((s.expelOperand k x 0x7A).dieEvent (k / 20) 0x08 0x3FF (4 + 2 ^ 64 * x))) ∧
      (x < 8 → exec (.singleFault (.copyEngine k x)) s = exec (.engineFault k x) s ∧
        hits (.copyBuffer k x) (s.bufferFault k x))) ∧
    (d < 8 →
      hits (.corrected d) (s.onDie d fun d => { d with corrected := d.corrected + 1 }) ∧
      hits (.syncEngine d) ((s.onDie d fun d => { d with stopped := true }).dieCheck d 3 0) ∧
      hits (.object d x) (s.loseObject d x 1) ∧
      hits (.record d x y z) (s.onDie d fun d => d.spoilRecord s.fresh x y z) ∧
      hits (.parkedRecord d x y) (s.putObject d x ((s.object d x).spoilRecord s.fresh y)) ∧
      hits (.nextRecord d x) (s.onDie d fun d => { d with next := spoilAt s.fresh x d.next }) ∧
      hits (.transomEntry d x) (s.onDie d fun d => { d with transom := d.transom.spoil x }) ∧
      hits (.waitScan d) (s.dieCheck d 6 0)) ∧
    hits (.transomEntry 8 x) (s.onHub fun h => { h with transom := h.transom.spoil x }) ∧
    (hbmAddress x = true → s.platform.poison.contains (x / 64) = false →
      hits (.hbmBlock x) (s.onPlatform fun p => { p with hard := x / 64 :: p.hard.filter (· != x / 64) })) ∧
    (hbmAddress x = true → s.platform.poison.contains (x / 64) = false → s.platform.hard.contains (x / 64) = false →
      hits (.hbmSymbols x) (s.onPlatform fun p => { p with soft := x / 64 :: p.soft.filter (· != x / 64) })) ∧
    (hbmAddress x = true → s.platform.poison.contains (x / 64) = true → hits (.hbmBlock x) s ∧ hits (.hbmSymbols x) s) ∧
    (x < 1024 → hits (.keySlot x) (s.onHub fun h => { h with keys := Sparse.erase h.keys x })) ∧
    (c < 640 → hits (.delivery c) (s.onFabric fun f => { f with lost := f.lost ++ [c] })) ∧
    (∀ p core q h user off line, s.findOp n = some p → p.op = .put core q h user off line →
      hits (.nocMessage n) (s.putRefused p core q h user)) ∧
    (∀ p die obj kind b, s.findOp n = some p → p.op = .sync die obj kind b → hits (.nocMessage n) (s.dieCheck die 7 n)) ∧
    hits .hub s.hubCheck ∧ hits .router s.hubCheck

/-! Results and frames. -/

/-- Division truncates towards zero and never traps: quotient and remainder for a divisor that is not zero, all ones and the
dividend for a zero divisor, and the most negative number over minus one (R160). -/
def Obligations.DivisionTruncates : Prop :=
  ∀ (a b : W64),
    (b ≠ 0 → ¬(a.toInt = -(2 ^ 63) ∧ b.toInt = -1) →
      (divSigned a b).toInt = a.toInt.tdiv b.toInt ∧
      (remSigned a b).toInt = a.toInt - b.toInt * a.toInt.tdiv b.toInt ∧
      (0 ≤ a.toInt → 0 ≤ (remSigned a b).toInt) ∧ (a.toInt ≤ 0 → (remSigned a b).toInt ≤ 0)) ∧
    (b ≠ 0 → (divUnsigned a b).toNat = a.toNat / b.toNat ∧
      (remUnsigned a b).toNat = a.toNat - b.toNat * (a.toNat / b.toNat)) ∧
    (b = 0 → divSigned a b = 0xFFFFFFFFFFFFFFFF#64 ∧ divUnsigned a b = 0xFFFFFFFFFFFFFFFF#64 ∧ remSigned a b = a ∧
      remUnsigned a b = a) ∧
    (a.toInt = -(2 ^ 63) → b.toInt = -1 →
      divSigned a b = a ∧ divUnsigned a b = 0 ∧ remSigned a b = 0 ∧ remUnsigned a b = a) ∧
    (∀ (s : State) (d m n : BitVec 5) (g : BitVec 3), s.guarded g false = true → s.reg m = a → s.reg n = b →
      s.runs [(.div d m n g, s.toReg d 20 (divSigned a b)), (.divu d m n g, s.toReg d 20 (divUnsigned a b)),
        (.rem d m n g, s.toReg d 20 (remSigned a b)), (.remu d m n g, s.toReg d 20 (remUnsigned a b))])

/-- A guarded scalar word whose guard does not hold has no effect (R47). -/
def Obligations.FalseGuardsStopTheEffect : Prop :=
  ∀ (s : State) (d a b : BitVec 5) (p q r g : BitVec 3), s.guarded g false = false →
    (∀ i ∈ ([
    .addSr d a b g, .subSr d a b g, .andSr d a b g, .orSr d a b g, .xorSr d a b g, .andnSr d a b g,
    .shlSr d a b g, .shrSr d a b g, .sarSr d a b g, .rotSr d a b g, .minSr d a b g, .maxSr d a b g,
    .minuSr d a b g, .maxuSr d a b g, .mulSr d a b g, .mulh d a b g, .mulhu d a b g, .div d a b g, .divu d a b g,
    .rem d a b g, .remu d a b g, .bfx d a b g, .bfi d a b g, .addsh1 d a b g, .addsh2 d a b g, .addsh3 d a b g,
    .addsh4 d a b g,
    .clz d a g, .ctz d a g, .popc d a g, .brev d a g, .extB d a g, .extBu d a g, .extH d a g, .extHu d a g,
    .extW d a g, .extWu d a g,
    .cmpEqSr p a b g, .cmpNeSr p a b g, .cmpLtSr p a b g, .cmpGeSr p a b g, .cmpLtuSr p a b g, .cmpGeuSr p a b g,
    .plogAnd p q r g, .plogOr p q r g, .plogXor p q r g, .plogAndn p q r g] : List Instr), exec i s = .next s)

/-- A register's number lies in its file, and a write to it is not ignored (R46, R117). -/
def inFile (c : Core) : Port → Prop
  | .s n => n < c.s.length
  | .h n => n < c.h.length
  | .p n => 0 < n ∧ n < c.p.length
  | .x n => n < c.x.length
  | .y n => n < c.y.length
  | .k n => 0 < n ∧ n < c.k.length
  | .ms n => n < c.ms.length
  | .mh n => n < c.mh.length
  | .mp n => 0 < n ∧ n < c.mp.length
  | .creg _ _ => False
  | .flags => False

/-- A result alone in flight leaves every register as it was before its landing cycle, and at that cycle its register, and no
other one, holds the value cut to the register's width; nothing is in flight any more. A second result on its way to the
same register leaves an unspecified value there, the same for both. Inside the window a read of the register gives an
unspecified value, any other register's read is not disturbed (R61 to R63).
The model's own readings that it rests on: log 11. -/
def Obligations.ResultsLandAtTheirCycle : Prop :=
  ∀ (c : Core) (port : Port) (lat v time fresh : Nat), inFile c port → 0 < lat → c.landings = [] →
    let e := c.land port lat v
    let w := 2 ^ port.width
    (∀ t, c.cycle ≤ t → t < c.cycle + lat →
      let f := e.advance time fresh t
      (∀ p, f.held_ p = c.held_ p) ∧ f.landings = e.landings ∧ f.cycle = t ∧
      (c.cycle < t → f.readPort fresh port = (Config.freeWord fresh (c.iss.word + 1) port.code).toNat % w) ∧
      (∀ p, p ≠ port → f.readPort fresh p = c.held_ p)) ∧
    (∀ t, c.cycle + lat ≤ t →
      let f := e.advance time fresh t
      f.held_ port = v % w ∧ (∀ p, p ≠ port → f.held_ p = c.held_ p) ∧ f.landings = [] ∧ f.cycle = t ∧
      f.readPort fresh port = v % w) ∧
    (∀ u, (((e.land port lat u).advance time fresh (c.cycle + lat)).held_ port) =
      (Config.freeWord fresh (c.cycle + 1) (5000 + port.code)).toNat % w)

/-- The registers that a scalar, vector, load or system word sends its results to, and `flags` where a result has none. -/
def resultPorts (s : State) : Instr → Option (List Port)
  | .addSr d _ _ _ => some [s.here.sPort d.toNat]
  | .addSi d _ _ => some [s.here.sPort d.toNat]
  | .subSr d _ _ _ => some [s.here.sPort d.toNat]
  | .subSi d _ _ => some [s.here.sPort d.toNat]
  | .andSr d _ _ _ => some [s.here.sPort d.toNat]
  | .andSi d _ _ => some [s.here.sPort d.toNat]
  | .orSr d _ _ _ => some [s.here.sPort d.toNat]
  | .orSi d _ _ => some [s.here.sPort d.toNat]
  | .xorSr d _ _ _ => some [s.here.sPort d.toNat]
  | .xorSi d _ _ => some [s.here.sPort d.toNat]
  | .andnSr d _ _ _ => some [s.here.sPort d.toNat]
  | .andnSi d _ _ => some [s.here.sPort d.toNat]
  | .shlSr d _ _ _ => some [s.here.sPort d.toNat]
  | .shlSi d _ _ => some [s.here.sPort d.toNat]
  | .shrSr d _ _ _ => some [s.here.sPort d.toNat]
  | .shrSi d _ _ => some [s.here.sPort d.toNat]
  | .sarSr d _ _ _ => some [s.here.sPort d.toNat]
  | .sarSi d _ _ => some [s.here.sPort d.toNat]
  | .rotSr d _ _ _ => some [s.here.sPort d.toNat]
  | .rotSi d _ _ => some [s.here.sPort d.toNat]
  | .minSr d _ _ _ => some [s.here.sPort d.toNat]
  | .minSi d _ _ => some [s.here.sPort d.toNat]
  | .maxSr d _ _ _ => some [s.here.sPort d.toNat]
  | .maxSi d _ _ => some [s.here.sPort d.toNat]
  | .minuSr d _ _ _ => some [s.here.sPort d.toNat]
  | .minuSi d _ _ => some [s.here.sPort d.toNat]
  | .maxuSr d _ _ _ => some [s.here.sPort d.toNat]
  | .maxuSi d _ _ => some [s.here.sPort d.toNat]
  | .mulSr d _ _ _ => some [s.here.sPort d.toNat]
  | .mulSi d _ _ => some [s.here.sPort d.toNat]
  | .mulh d _ _ _ => some [s.here.sPort d.toNat]
  | .mulhu d _ _ _ => some [s.here.sPort d.toNat]
  | .div d _ _ _ => some [s.here.sPort d.toNat]
  | .divu d _ _ _ => some [s.here.sPort d.toNat]
  | .rem d _ _ _ => some [s.here.sPort d.toNat]
  | .remu d _ _ _ => some [s.here.sPort d.toNat]
  | .clz d _ _ => some [s.here.sPort d.toNat]
  | .ctz d _ _ => some [s.here.sPort d.toNat]
  | .popc d _ _ => some [s.here.sPort d.toNat]
  | .brev d _ _ => some [s.here.sPort d.toNat]
  | .extB d _ _ => some [s.here.sPort d.toNat]
  | .extBu d _ _ => some [s.here.sPort d.toNat]
  | .extH d _ _ => some [s.here.sPort d.toNat]
  | .extHu d _ _ => some [s.here.sPort d.toNat]
  | .extW d _ _ => some [s.here.sPort d.toNat]
  | .extWu d _ _ => some [s.here.sPort d.toNat]
  | .bfx d _ _ _ => some [s.here.sPort d.toNat]
  | .bfi d _ _ _ => some [s.here.sPort d.toNat]
  | .addsh1 d _ _ _ => some [s.here.sPort d.toNat]
  | .addsh2 d _ _ _ => some [s.here.sPort d.toNat]
  | .addsh3 d _ _ _ => some [s.here.sPort d.toNat]
  | .addsh4 d _ _ _ => some [s.here.sPort d.toNat]
  | .sel d _ _ _ => some [s.here.sPort d.toNat]
  | .cmpEqSr p _ _ _ => some [s.here.pPort p.toNat]
  | .cmpEqSi p _ _ => some [s.here.pPort p.toNat]
  | .cmpNeSr p _ _ _ => some [s.here.pPort p.toNat]
  | .cmpNeSi p _ _ => some [s.here.pPort p.toNat]
  | .cmpLtSr p _ _ _ => some [s.here.pPort p.toNat]
  | .cmpLtSi p _ _ => some [s.here.pPort p.toNat]
  | .cmpGeSr p _ _ _ => some [s.here.pPort p.toNat]
  | .cmpGeSi p _ _ => some [s.here.pPort p.toNat]
  | .cmpLtuSr p _ _ _ => some [s.here.pPort p.toNat]
  | .cmpLtuSi p _ _ => some [s.here.pPort p.toNat]
  | .cmpGeuSr p _ _ _ => some [s.here.pPort p.toNat]
  | .cmpGeuSi p _ _ => some [s.here.pPort p.toNat]
  | .plogAnd d _ _ _ => some [s.here.pPort d.toNat]
  | .plogOr d _ _ _ => some [s.here.pPort d.toNat]
  | .plogXor d _ _ _ => some [s.here.pPort d.toNat]
  | .plogAndn d _ _ _ => some [s.here.pPort d.toNat]
  | .movi d _ => some [s.here.sPort d.toNat]
  | .limm _ => some []
  | .vadd x _ d _ _ _ _ => some [vPort (x == 1) d.toNat]
  | .vsub x _ d _ _ _ _ => some [vPort (x == 1) d.toNat]
  | .vmul x _ d _ _ _ _ => some [vPort (x == 1) d.toNat]
  | .vfma x _ d _ _ _ _ => some [vPort (x == 1) d.toNat]
  | .vfms x _ d _ _ _ _ => some [vPort (x == 1) d.toNat]
  | .vfnma x _ d _ _ _ _ => some [vPort (x == 1) d.toNat]
  | .vmin x _ d _ _ _ _ => some [vPort (x == 1) d.toNat]
  | .vmax x _ d _ _ _ _ => some [vPort (x == 1) d.toNat]
  | .vabs x _ d _ _ _ => some [vPort (x == 1) d.toNat]
  | .vneg x _ d _ _ _ => some [vPort (x == 1) d.toNat]
  | .vdiv x _ d _ _ _ _ => some [vPort (x == 1) d.toNat]
  | .vsqrt x _ d _ _ _ => some [vPort (x == 1) d.toNat]
  | .vcmpEqFloat _ _ k _ _ _ _ => some [.k k.toNat, .flags]
  | .vcmpLtFloat _ _ k _ _ _ _ => some [.k k.toNat, .flags]
  | .vcmpLeFloat _ _ k _ _ _ _ => some [.k k.toNat, .flags]
  | .vcmpUnFloat _ _ k _ _ _ _ => some [.k k.toNat, .flags]
  | .viadd x _ d _ _ _ _ => some [vPort (x == 1) d.toNat]
  | .visub x _ d _ _ _ _ => some [vPort (x == 1) d.toNat]
  | .vimul x _ d _ _ _ _ => some [vPort (x == 1) d.toNat]
  | .vimulh x _ d _ _ _ _ => some [vPort (x == 1) d.toNat]
  | .vimin x _ d _ _ _ _ => some [vPort (x == 1) d.toNat]
  | .vimax x _ d _ _ _ _ => some [vPort (x == 1) d.toNat]
  | .vand x d _ _ _ _ => some [vPort (x == 1) d.toNat]
  | .vor x d _ _ _ _ => some [vPort (x == 1) d.toNat]
  | .vxor x d _ _ _ _ => some [vPort (x == 1) d.toNat]
  | .vandn x d _ _ _ _ => some [vPort (x == 1) d.toNat]
  | .vshl x _ d _ _ _ _ => some [vPort (x == 1) d.toNat]
  | .vshr x _ d _ _ _ _ => some [vPort (x == 1) d.toNat]
  | .vsar x _ d _ _ _ _ => some [vPort (x == 1) d.toNat]
  | .vfxmulFix64 x d _ _ _ _ => some [vPort (x == 1) d.toNat]
  | .vfxaddFix64 x d _ _ _ _ => some [vPort (x == 1) d.toNat]
  | .vdot16Bf16 x d _ _ _ _ => some [vPort (x == 1) d.toNat]
  | .vdot16F16 x d _ _ _ _ => some [vPort (x == 1) d.toNat]
  | .vdot16E4m3 x d _ _ _ _ => some [vPort (x == 1) d.toNat]
  | .vdot16E5m2 x d _ _ _ _ => some [vPort (x == 1) d.toNat]
  | .vdot16I8 x d _ _ _ _ => some [vPort (x == 1) d.toNat]
  | .vdot16Log6 x d _ _ _ _ => some [vPort (x == 1) d.toNat]
  | .vdot16E2m1 x d _ _ _ _ => some [vPort (x == 1) d.toNat]
  | .vcmpEqInt _ _ k _ _ _ _ => some [.k k.toNat, .flags]
  | .vcmpLtInt _ _ k _ _ _ _ => some [.k k.toNat, .flags]
  | .vcmpLtuInt _ _ k _ _ _ _ => some [.k k.toNat, .flags]
  | .vcmpLeInt _ _ k _ _ _ _ => some [.k k.toNat, .flags]
  | .vcvt x _ d _ _ _ _ => some [vPort (x == 1) d.toNat]
  | .vmxq x d _ _ _ => some [vPort (x == 1) d.toNat]
  | .vmxd x d _ _ _ => some [vPort (x == 1) d.toNat, vPort (x == 1) (d.toNat + 1)]
  | .vrcpeF32 x d _ _ _ => some [vPort (x == 1) d.toNat]
  | .vrsqeF32 x d _ _ _ => some [vPort (x == 1) d.toNat]
  | .vfexpF32 x d _ _ _ => some [vPort (x == 1) d.toNat]
  | .vscalebF32 x d _ _ _ _ => some [vPort (x == 1) d.toNat]
  | .vgetexpF32 x d _ _ _ => some [vPort (x == 1) d.toNat]
  | .vrndiF32 x d _ _ _ => some [vPort (x == 1) d.toNat]
  | .vrndiIF32 x d _ _ _ => some [vPort (x == 1) d.toNat]
  | .vclassF32 x d _ _ _ => some [vPort (x == 1) d.toNat]
  | .vrcpeF64 x d _ _ _ => some [vPort (x == 1) d.toNat]
  | .vrsqeF64 x d _ _ _ => some [vPort (x == 1) d.toNat]
  | .vfexpF64 x d _ _ _ => some [vPort (x == 1) d.toNat]
  | .vscalebF64 x d _ _ _ _ => some [vPort (x == 1) d.toNat]
  | .vgetexpF64 x d _ _ _ => some [vPort (x == 1) d.toNat]
  | .vrndiF64 x d _ _ _ => some [vPort (x == 1) d.toNat]
  | .vrndiIF64 x d _ _ _ => some [vPort (x == 1) d.toNat]
  | .vclassF64 x d _ _ _ => some [vPort (x == 1) d.toNat]
  | .vsel x d _ _ _ => some [vPort (x == 1) d.toNat]
  | .vmov x d _ _ _ => some [vPort (x == 1) d.toNat]
  | .vxmov x d _ _ _ => some [vPort (x == 1) d.toNat]
  | .vbcast x d _ _ _ _ => some [vPort (x == 1) d.toNat]
  | .vext _ d _ _ _ _ _ => some [s.here.sPort d.toNat]
  | .vins x d _ _ _ _ => some [vPort (x == 1) d.toNat]
  | .vperm x d _ _ _ _ => some [vPort (x == 1) d.toNat]
  | .vshuf x d _ _ _ _ => some [vPort (x == 1) d.toNat]
  | .vredAddF32 x d _ _ _ => some [vPort (x == 1) d.toNat]
  | .vredAddF64 x d _ _ _ => some [vPort (x == 1) d.toNat]
  | .vredMinF32 x d _ _ _ => some [vPort (x == 1) d.toNat]
  | .vredMaxF32 x d _ _ _ => some [vPort (x == 1) d.toNat]
  | .vredAddI32 x d _ _ _ => some [vPort (x == 1) d.toNat]
  | .vredAddI64 x d _ _ _ => some [vPort (x == 1) d.toNat]
  | .vredMinI32 x d _ _ _ => some [vPort (x == 1) d.toNat]
  | .vredMaxI32 x d _ _ _ => some [vPort (x == 1) d.toNat]
  | .kand _ d _ _ => some [.k d.toNat, .flags]
  | .kor _ d _ _ => some [.k d.toNat, .flags]
  | .kxor _ d _ _ => some [.k d.toNat, .flags]
  | .knot _ d _ => some [.k d.toNat, .flags]
  | .kmov _ d _ => some [.k d.toNat, .flags]
  | .kmovFromS _ d _ => some [.k d.toNat, .flags]
  | .kmovToS _ d _ => some [s.here.sPort d.toNat]
  | .kpop _ d _ => some [s.here.sPort d.toNat]
  | .kuni _ d _ _ => some [.k d.toNat, .flags]
  | .ldB d _ _ _ => some [s.here.sPort d.toNat]
  | .ldBu d _ _ _ => some [s.here.sPort d.toNat]
  | .ldH d _ _ _ => some [s.here.sPort d.toNat]
  | .ldHu d _ _ _ => some [s.here.sPort d.toNat]
  | .ldW d _ _ _ => some [s.here.sPort d.toNat]
  | .ldWu d _ _ _ => some [s.here.sPort d.toNat]
  | .ldD d _ _ _ => some [s.here.sPort d.toNat]
  | .kldW d _ _ _ => some [s.here.sPort d.toNat]
  | .kldWu d _ _ _ => some [s.here.sPort d.toNat]
  | .kldD d _ _ _ => some [s.here.sPort d.toNat]
  | .vld y d _ _ _ => some [vPort (y == 1) d.toNat]
  | .kvld y d _ _ _ => some [vPort (y == 1) d.toNat]
  | .vgather x d _ _ _ _ => some [vPort (x == 1) d.toNat]
  | .mfc d _ => some [s.here.sPort d.toNat]
  | .mtc _ r => some [.creg (s.here.cregCopy r.toNat) r.toNat]
  | .traceR d _ => some [s.here.sPort d.toNat, s.here.sPort (d.toNat + 1)]
  | .nop => some []
  | .traceW _ => some []
  | .trigFire => some []
  | .trigRearm => some []
  | _ => none

/-- A word of the control, scalar or vector pipes, or a load, that issues only sends results to its own registers: no register changes at
its issue, every result in flight to another register stays in flight, and everything else, the status and control
registers, memory, the other cores and the package, is as before, but for the trace. -/
def Obligations.WordsOnlySendTheirResults : Prop :=
  ∀ (s t : State) (i : Instr) (ports : List Port), resultPorts s i = some ports → exec i s = .next t →
    t.here.iss.mark = .done →
    (∃ ls iss tr, t.here = { s.here with landings := ls, iss := iss, trace := tr } ∧
      ∀ l, l.port ∉ ports → (l ∈ ls ↔ l ∈ s.here.landings)) ∧
    t.cur = s.cur ∧ (∀ n, n ≠ s.cur → t.core n = s.core n) ∧ t.clusters = s.clusters ∧ t.dies = s.dies ∧ t.nodes = s.nodes ∧
    t.hub = s.hub ∧ t.hbm = s.hbm ∧ t.fabric = s.fabric ∧ t.platform = s.platform ∧ t.ops = s.ops ∧ t.agenda = s.agenda

/-- A matrix word that issues changes only the array and sends its result: registers, control registers, memory and the
other cores are as before, and every other result in flight stays. -/
def Obligations.MatrixWordsChangeOnlyTheArray : Prop :=
  ∀ (s t : State) (i : Instr) (ports : List Port),
    (match i with
      | .tmma _ _ _ _ _ => ports = []
      | .tmmaLatch _ _ _ _ _ => ports = []
      | .tlatch _ _ _ => ports = []
      | .tgo _ _ _ _ _ => ports = []
      | .tdrain _ _ => ports = []
      | .tclr _ => ports = []
      | .trow _ => ports = []
      | .twait d _ => ports = [s.here.sPort d.toNat]
      | .tstat d _ => ports = [s.here.sPort d.toNat]
      | _ => False) →
    exec i s = .next t → t.here.iss.mark = .done →
    (∃ ls iss m, t.here = { s.here with landings := ls, iss := iss, mat := m } ∧
      ∀ l, l.port ∉ ports → (l ∈ ls ↔ l ∈ s.here.landings)) ∧
    (∀ n, n ≠ s.cur → t.core n = s.core n) ∧ t.clusters = s.clusters ∧ t.hub = s.hub ∧ t.hbm = s.hbm ∧ t.ops = s.ops ∧
    t.agenda = s.agenda

/-- The words that send requests to other units: the Q pipe but for QCFG, and the strand and group words with a result. -/
def asksUnits : Instr → Bool
  | .klook _ _ _ => true
  | .ktag _ _ _ => true
  | .kuntag _ _ _ => true
  | .qput _ _ _ => true
  | .qget _ _ _ => true
  | .qstat _ _ _ => true
  | .xfer _ _ _ => true
  | .xwait _ _ _ => true
  | .xstat _ _ _ => true
  | .xcancel _ => true
  | .xcancelAll => true
  | .binit _ _ => true
  | .barrive _ => true
  | .bwait _ _ _ => true
  | .bexpect _ _ => true
  | .binv _ => true
  | .aadd _ _ _ _ => true
  | .acas _ _ _ _ => true
  | .amin _ _ _ _ => true
  | .amax _ _ _ _ => true
  | .aor _ _ _ _ => true
  | .afix _ _ _ _ => true
  | .aread _ _ _ => true
  | .mtaga _ _ => true
  | .mtagf _ _ _ => true
  | .meet _ _ _ _ _ => true
  | .meetT _ _ _ _ => true
  | .mstat _ _ _ => true
  | .rlook _ _ _ _ => true
  | .rsplit _ _ _ _ => true
  | .rmerge _ _ _ _ => true
  | .rinv _ => true
  | .rresSet _ _ _ => true
  | .rresGrow _ _ _ => true
  | .rprotAll _ _ => true
  | .rprotPerm _ _ => true
  | .rprotKey _ _ => true
  | .rfence _ _ => true
  | .rmove _ _ => true
  | .fput _ => true
  | .fget _ => true
  | .fbar _ _ _ => true
  | .fstat _ _ _ => true
  | .cpost _ => true
  | .post _ _ _ _ => true
  | .postn _ _ _ _ => true
  | .gnew _ _ _ => true
  | .gjoin _ _ _ => true
  | .gleave _ _ _ => true
  | .gfree _ _ _ => true
  | .ginfo _ _ _ => true
  | .dgst _ _ _ => true
  | _ => false

/-- A word that sends a request and issues leaves every register, the flags and cause registers, its core's scratchpad, every byte of HBM and
the registers and scratchpads of the other cores as they were; its effects come with the answers. -/
def Obligations.RequestsKeepRegistersAndMemory : Prop :=
  ∀ (s t : State) (i : Instr), asksUnits i = true → exec i s = .next t → t.here.iss.mark = .done →
    (∀ p, t.here.held_ p = s.here.held_ p) ∧ t.here.scratch = s.here.scratch ∧ t.here.mat = s.here.mat ∧
    t.here.main.xflags = s.here.main.xflags ∧ t.here.main.bank1 = s.here.main.bank1 ∧
    t.here.hand.bank1 = s.here.hand.bank1 ∧ t.here.main.mode = s.here.main.mode ∧
    (∀ n p, n ≠ s.cur → (t.core n).held_ p = (s.core n).held_ p ∧ (t.core n).scratch = (s.core n).scratch) ∧
    (∀ k, (t.cluster k).scratch = (s.cluster k).scratch) ∧ t.hbm = s.hbm

/-! Forms that complete. -/

/-- A form completes with a property of the state after it. -/
def completes (i : Instr) (s : State) (p : State → Prop) : Prop := ∃ t, exec i s = .next t ∧ p t

/-- The last bundle of a loop's body counts its iteration, and the arbiter of a cluster applies a look, a tag and an untag
(R171, R172, R300 to R302). -/
def loopAndTagsComplete : Prop :=
  ∀ (s : State) (core op n old new m : Nat) (x : BitVec 48) (by_ : Issuer),
    ((s.core core).loop.active = true →
      let k := if (s.core core).loop.sel then 1 else 0
      completes (.loopBack core) s fun t =>
        (t.core core).loop.active =
          decide (1 < ({ s with cur := core }.cregAt (if (s.core core).loop.sel then 0x00D else 0x00C)).toNat % 2 ^ 32) ∧
        ((t.core core).loop.active = true → (t.core core).loop.pos = 0) ∧
        ((t.core core).loop.active = false → (s.core core).lc.length = 2 → (s.core core).landings = [] →
          (t.core core).lc.getD k 0 = 0)) ∧
    ((s.cluster (clusterOf core)).badSlots = [] →
      let e := (s.cluster (clusterOf core)).tag n
      let slot := fun (u : State) => (u.cluster (clusterOf core)).tag n
      (s.findOp op = some { id := op, by_ := by_, op := .look m n } → completes (.tagArbiterApply core op) s fun t =>
        t = (s.dropOp op).answer core op (BitVec.ofNat 512 ((s.cluster (clusterOf core)).look m n))) ∧
      (s.findOp op = some { id := op, by_ := by_, op := .ktag n x old new } → e.state = old →
        (∀ f ∈ (s.cluster (clusterOf core)).tags, f.2.tag = x → f.2.state ≠ 0 → f.1 = n) →
        completes (.tagArbiterApply core op) s fun t => slot t = { tag := x, state := new, owner := core % 4 }) ∧
      (s.findOp op = some { id := op, by_ := by_, op := .kuntag n x old true } → e.state = old → old ≠ 0 → e.tag = x →
        completes (.tagArbiterApply core op) s fun t => slot t = { e with state := 0, owner := core % 4 }))

/-- The platform: an eye's control is written, the host's window is read and written, boot ends, the patrol goes on and writes
back, an eye asks for retraining and is retrained, and droop, power, heat and rails act on the clock (R404 to R419). -/
def platformEventsComplete : Prop :=
  ∀ (s : State) (stack die o n lane amps : Nat) (v : BitVec 64) (bytes : List Byte),
    (s.platform.bootFailed = false → stack < 16 → completes (.eyectlWrite stack v) s fun t =>
      (t.platform.eye stack).ctl = v % 2 ^ 29 ∧ (t.platform.eye stack).int = false) ∧
    (s.platform.bootFailed = false → s.windowKey ≠ 0 →
      (o + n ≤ 2 ^ 40 → completes (.windowRead o n) s fun t => t.platform.hostRead = s.windowBytes o n) ∧
      (o + bytes.length ≤ 2 ^ 40 →
        completes (.windowWrite o bytes) s fun t => t = s.windowStore (bytes.length / 64 + 2) o bytes)) ∧
    (s.platform.booted = false → s.platform.bootFailed = false → completes .boot s fun t =>
      t.platform.booted = ((bootImages s.platform.measures 0 10).2 && Config.bootVerified 10) ∧ t.platform.bootFailed = !t.platform.booted) ∧
    (stack < 16 → let e := s.platform.eye stack
      completes (.patrolScrub stack) s (fun t => (t.platform.eye stack).patrol = (e.patrol + 1) % (48 * 2 ^ 24)) ∧
      (∀ a rest, e.armed = a :: rest → a.2.2 + 64 ≤ s.time →
        completes (.scrubWriteback stack) s fun t => (t.platform.eye stack).armed = rest) ∧
      (0 < fieldOf e.ctl 0 16 → (∀ l ∈ e.low, l.lane ≠ lane % 65536) → completes (.eyeThresholdCrossed stack lane) s fun t =>
        let f := t.platform.eye stack
        f.int = true ∧ f.rtpend = true ∧ f.low.map (·.lane) = e.low.map (·.lane) ++ [lane % 65536]) ∧
      (∀ l, e.rtpend = true → e.low = [l] → completes (.retrainingSlot stack) s fun t => let f := t.platform.eye stack
        (l.stage = 0 → f.low = [] ∧ f.rtpend = false ∨ f.low.map (·.stage) = [1] ∧ f.rtpend = true) ∧
        (l.stage = 1 → f.rtpend = false ∧ f.spare = e.spare - 1 ∧ (e.spare = 0 → f.nosp = true)))) ∧
    (die < 8 →
      completes (.droop die) s (fun t => (t.die die).stretched = true ∧ t.platform.rail die = (s.platform.rail die).raise s.time) ∧
      completes (.railPoll die ⟨n, amps⟩) s (fun t => (t.die die).stretched = false ∧ ¬ t.platform.silent.contains die ∧
        (t.platform.rail die).volts = n ∧ (t.platform.rail die).amps = amps) ∧
      completes (.regulatorTimeout die) s (fun t => t.platform.silent.contains die = true) ∧
      (lane < 4 → n < 110 → (s.die die).temps.length = 4 → completes (.thermalLoop die ⟨lane, n⟩) s fun t =>
        (t.die die).temps.getD lane 0 = n)) ∧
    (∀ others, 3600000 < 5 * s.platform.power + 2 * others → completes (.powerLoop others) s fun t =>
      t.platform.target = max (min s.platform.target 600) (s.platform.target - 25))

/-- The fabric: replays, retraining, deaths, packets, completions, responses, barrier rounds and joins (R422 to R435, R445). -/
def fabricEventsComplete : Prop :=
  ∀ (s : State) (n k child peer : Nat) (st : BitVec 8) (bytes : List Byte) (p : Packet) (hash : BitVec 64),
    (n < 12 →
      completes (.flitReplay ⟨n, false⟩) s (fun t => (t.fabric.port n).replays = min ((s.fabric.port n).replays + 1) (2 ^ 32 - 1)) ∧
      ((s.fabric.port n).state = 0 → completes (.portRetrain n) s fun t => (t.fabric.port n).state = 1) ∧
      ((s.fabric.port n).state = 1 → completes (.portRetrainingEnd n true) s fun t => (t.fabric.port n).state = 0)) ∧
    (n < s.fabric.size → (n = s.hub.index → s.cutFromPod = true) → s.fabric.dead.contains n = false → completes (.packageDeath n) s fun t =>
      s.fabric.remotes = [] → s.fabric.entries = [] → t.fabric.dead = s.fabric.dead ++ [n]) ∧
    ((p.seq + 2 ^ 29 - s.fabric.expected (streamOf p)) % 2 ^ 29 < 2 ^ 28 → s.fabric.early.contains p = false →
      completes (.packetArrival p) s fun t =>
        t = (s.onFabric fun f => { f with early := f.early ++ [p] }).drainStream (streamOf p) (s.fabric.early.length + 2)) ∧
    (∀ r, s.fabric.remote n = some r →
      (∀ p, choose s.fresh 46000 ((lastSent n s.fabric.sent).filter fun p => decide (p.2.1 + 20000 ≤ s.time)) = some p →
        let k := (Sparse.get? r.tries p.2.2.seq).getD 0
        (k < 4 → completes (.packetTimeout n) s fun t =>
          t = (s.putRemote { r with tries := Sparse.set r.tries p.2.2.seq (k + 1) }).emit p.1 p.2.2) ∧
        (4 ≤ k → completes (.packetTimeout n) s fun t => t = s.completeRemote r 0x88)) ∧
      (st ≠ 0 → completes (.fabricCompletion n st bytes) s fun t => t = s.completeRemote r st.toNat) ∧
      (∀ lsp laddr pkg rid roff len group l bar, r.op = .fget lsp laddr pkg rid roff len group l bar →
        r.got + bytes.length < len → completes (.getResponseArrival n bytes) s fun t =>
          let w := s.localWrite r.by_ lsp laddr l r.got bytes
          t = w.1.putRemote { r with got := r.got + bytes.length, failed := if r.failed = 0 then w.2 else r.failed })) ∧
    (∀ e, s.fabric.entryByKey k = some e →
      (e.children.contains child = false →
        completes (.fabricBarrierArrival k child) s fun t => t = s.climb { e with children := e.children ++ [child] }) ∧
      (e.isOpen = true → e.sentUp = true → e.pod = true → completes (.fabricBarrierRelease k) s fun t =>
        t = (((s.sendFlits e (s.fabric.treeChildren e.box s.hub.index)).endRound e).onFabric fun f =>
          f.setEntry (e.closed ((e.gen + 1) % 65536))).onLaunch fun l => { l with podDone := true }) ∧
      (s.breaks e = true → completes (.roundBreak ⟨k, false⟩) s fun t => t = s.breakHere e) ∧
      (e.join = false → completes (.roundBreak ⟨k, true⟩) s fun t => t = s.breakRound e)) ∧
    (∀ c, s.hub.coll = some c → c.joined = false → c.opened = true → c.peers.contains peer = false →
      ((s.participants c.dws).any (fun p => p.1 == peer && !c.dead.contains p.2) = true → hash = collHash c.dws →
        completes (.collectiveJoin peer hash) s fun t => t = s.tryJoin { c with peers := c.peers ++ [peer] }) ∧
      (∀ p, c.since + joinLimit c.dws ≤ s.time → (s.participants c.dws).find? (fun p => p.1 == peer) = some p →
        completes (.joinTimeout peer) s fun t => t = s.tryJoin { c with dead := insertRank p.2 c.dead }))

/-- Resets of the package, a die and a core, a fault in a register, a lost line and a lost slot, and an engine's report of its
resumption (R8, R117, R222, R269, R400). -/
def resetsComplete : Prop :=
  ∀ (s : State) (n x : Nat),
    completes (.reset 0 n) s (fun t => t = s.resetPackage false) ∧ completes (.reset 1 n) s (fun t => t = s.resetPackage true) ∧
    (n < 8 → completes (.reset 2 n) s fun t => t = s.resetDie n) ∧
    (n < 640 → completes (.reset 3 n) s (fun t => t = s.resetCore n) ∧
      (x < 170 → completes (.singleFault (.register n x)) s fun t =>
        (t.core n).badRegs = x :: (s.core n).badRegs.filter (· != x))) ∧
    (n < 160 → completes (.singleFault (.tagSlot n x)) s fun t => (t.cluster n).badSlots.contains x = true) ∧
    (n < engineCount → s.hub.pstate = 3 → s.hub.resuming.contains n = true →
      completes (.engineResumeReport n) s fun t =>
        let v := s.onHub fun h => { h with toResume := h.toResume.filter (· != n), acks := h.acks.filter (· != n) }
        let u := if 640 ≤ n ∧ n < 1920 then v.restoreCluster ((n - 640) / 8) else v
        t = if u.hub.toResume.isEmpty then u.resumed else u.startRestores)

/-- Events of the package, of its platform and of its fabric run to their effect on every state that they ask for: LOOP_BACK,
TAG_ARBITER_APPLY; EYECTL_WRITE, WINDOW_READ, WINDOW_WRITE, BOOT, PATROL_SCRUB, SCRUB_WRITEBACK, EYE_THRESHOLD_CROSSED,
RETRAINING_SLOT, DROOP, POWER_LOOP, THERMAL_LOOP, RAIL_POLL, REGULATOR_TIMEOUT; FLIT_REPLAY, PORT_RETRAIN,
PORT_RETRAINING_END, PACKAGE_DEATH, PACKET_ARRIVAL, PACKET_TIMEOUT, FABRIC_COMPLETION, GET_RESPONSE_ARRIVAL,
FABRIC_BARRIER_ARRIVAL, FABRIC_BARRIER_RELEASE, ROUND_BREAK, COLLECTIVE_JOIN, JOIN_TIMEOUT; RESET, SINGLE_FAULT and
ENGINE_RESUME_REPORT.
The model's own readings that it rests on: log 3, 8, 25, 75, 77, 98, 100, 101, 102, 103, 104, 105, 107 and 126. -/
def Obligations.EventsComplete : Prop :=
  loopAndTagsComplete ∧ platformEventsComplete ∧ fabricEventsComplete ∧ resetsComplete
end

