-- ==== Sys2Proof/Laws/Memory.lean ====
section
/-! SUPPORT. Laws of tables with rising keys and of memories: a read after a write, the canonical form, and equal memories as
equal data. -/

namespace Sys2Proof.Machine

namespace Sparse

variable {α : Type}

theorem get?_set_same (t : List (Nat × α)) (n : Nat) (x : α) : get? (set t n x) n = some x := by
  induction t with
  | nil => simp [set, get?]
  | cons a t ih =>
    obtain ⟨k, v⟩ := a
    simp only [set]
    split
    · simp [get?]
    · split
      · simp [get?]
      · simp only [get?, ih]
        split <;> simp_all

theorem get?_set_other (t : List (Nat × α)) {n m : Nat} (x : α) (h : m ≠ n) : get? (set t n x) m = get? t m := by
  induction t with
  | nil => simp [set, get?, Ne.symm h]
  | cons a t ih =>
    obtain ⟨k, v⟩ := a
    simp only [set]
    split
    · simp [get?, Ne.symm h]
    · split
      · subst n
        simp [get?, Ne.symm h]
      · simp only [get?, ih]

/-- A lower bound of the keys. -/
theorem sorted_cons_iff (a : Nat × α) (t : List (Nat × α)) :
    sorted (a :: t) = true ↔ (∀ b ∈ t, a.1 < b.1) ∧ sorted t = true := by
  induction t generalizing a with
  | nil => simp [sorted]
  | cons b t ih =>
    simp only [sorted, Bool.and_eq_true, decide_eq_true_eq, List.mem_cons, forall_eq_or_imp]
    constructor
    · rintro ⟨h1, h2⟩
      have h3 := (ih b).1 h2
      exact ⟨⟨h1, fun c hc => Nat.lt_trans h1 (h3.1 c hc)⟩, h2⟩
    · rintro ⟨⟨h1, -⟩, h2⟩
      exact ⟨h1, h2⟩

theorem mem_set {t : List (Nat × α)} {n : Nat} {x : α} {b : Nat × α} (h : b ∈ set t n x) : b = (n, x) ∨ b ∈ t := by
  induction t with
  | nil => simpa [set] using h
  | cons a t ih =>
    obtain ⟨k, v⟩ := a
    simp only [set] at h
    split at h
    · simpa using h
    · split at h
      · rcases List.mem_cons.1 h with h | h
        · exact .inl h
        · exact .inr (List.mem_cons_of_mem _ h)
      · rcases List.mem_cons.1 h with h | h
        · exact .inr (h ▸ List.mem_cons_self)
        · rcases ih h with h | h
          · exact .inl h
          · exact .inr (List.mem_cons_of_mem _ h)

theorem sorted_set (t : List (Nat × α)) (n : Nat) (x : α) (h : sorted t = true) : sorted (set t n x) = true := by
  induction t with
  | nil => simp [set, sorted]
  | cons a t ih =>
    obtain ⟨k, v⟩ := a
    have hs := (sorted_cons_iff _ _).1 h
    simp only [set]
    split
    · refine (sorted_cons_iff _ _).2 ⟨?_, h⟩
      intro b hb
      rcases List.mem_cons.1 hb with hb | hb
      · simp_all
      · have := hs.1 b hb
        simp only at this ⊢
        omega
    · split
      · subst n
        exact (sorted_cons_iff _ _).2 ⟨hs.1, hs.2⟩
      · refine (sorted_cons_iff _ _).2 ⟨?_, ih hs.2⟩
        intro b hb
        rcases mem_set hb with hb | hb
        · subst hb
          simp only
          omega
        · exact hs.1 b hb

theorem mem_erase {t : List (Nat × α)} {n : Nat} {b : Nat × α} (h : b ∈ erase t n) : b ∈ t := by
  induction t with
  | nil => simp [erase] at h
  | cons a t ih =>
    obtain ⟨k, v⟩ := a
    simp only [erase] at h
    split at h
    · exact List.mem_cons_of_mem _ h
    · rcases List.mem_cons.1 h with h | h
      · exact h ▸ List.mem_cons_self
      · exact List.mem_cons_of_mem _ (ih h)

theorem sorted_erase (t : List (Nat × α)) (n : Nat) (h : sorted t = true) : sorted (erase t n) = true := by
  induction t with
  | nil => simp [erase, sorted]
  | cons a t ih =>
    obtain ⟨k, v⟩ := a
    have hs := (sorted_cons_iff _ _).1 h
    simp only [erase]
    split
    · exact hs.2
    · exact (sorted_cons_iff _ _).2 ⟨fun b hb => hs.1 b (mem_erase hb), ih hs.2⟩

theorem get?_none_of_lt (t : List (Nat × α)) (n : Nat) (h : ∀ b ∈ t, n < b.1) : get? t n = none := by
  induction t with
  | nil => rfl
  | cons a t ih =>
    obtain ⟨k, v⟩ := a
    have h1 := h (k, v) List.mem_cons_self
    simp only [get?]
    rw [if_neg (by simp only at h1; omega)]
    exact ih fun b hb => h b (List.mem_cons_of_mem _ hb)

theorem get?_erase_same (t : List (Nat × α)) (n : Nat) (h : sorted t = true) : get? (erase t n) n = none := by
  induction t with
  | nil => rfl
  | cons a t ih =>
    obtain ⟨k, v⟩ := a
    have hs := (sorted_cons_iff _ _).1 h
    simp only [erase]
    split
    · subst n
      exact get?_none_of_lt t k hs.1
    · rename_i hk
      simp only [get?, if_neg hk]
      exact ih hs.2

theorem get?_erase_other (t : List (Nat × α)) {n m : Nat} (h : m ≠ n) : get? (erase t n) m = get? t m := by
  induction t with
  | nil => rfl
  | cons a t ih =>
    obtain ⟨k, v⟩ := a
    simp only [erase]
    split
    · subst n
      simp [get?, Ne.symm h]
    · simp only [get?, ih]

end Sparse

namespace Memory

/-- The form in two parts. -/
theorem wf_iff (m : Memory) : wf m = true ↔ Sparse.sorted m = true ∧ ∀ c ∈ m, c.2 ≠ 0 := by
  simp [wf]

theorem wf_nil : wf [] = true := rfl

/-- A byte written keeps the canonical form. -/
theorem wf_set (m : Memory) (a : Nat) (b : Byte) (h : wf m = true) : wf (set m a b) = true := by
  obtain ⟨hs, hz⟩ := (wf_iff m).1 h
  unfold set
  split
  · exact (wf_iff _).2 ⟨Sparse.sorted_erase m a hs, fun c hc => hz c (Sparse.mem_erase hc)⟩
  · rename_i hb
    refine (wf_iff _).2 ⟨Sparse.sorted_set m a b hs, fun c hc => ?_⟩
    rcases Sparse.mem_set hc with hc | hc
    · subst hc
      exact hb
    · exact hz c hc

/-- Bytes written keep the canonical form. -/
theorem wf_write (bs : List Byte) : ∀ (m : Memory) (a : Nat), wf m = true → wf (write m a bs) = true := by
  induction bs with
  | nil => intro m a h; exact h
  | cons b bs ih => intro m a h; exact ih _ _ (wf_set m a b h)

/-- A read after a write to the same address gives the byte written. -/
theorem get_set_same (m : Memory) (a : Nat) (b : Byte) (h : wf m = true) : get (set m a b) a = b := by
  obtain ⟨hs, -⟩ := (wf_iff m).1 h
  unfold set get
  split
  · rename_i hb
    rw [Sparse.get?_erase_same m a hs, hb]
    rfl
  · rw [Sparse.get?_set_same]
    rfl

/-- A write leaves every other byte alone. -/
theorem get_set_other (m : Memory) {a x : Nat} (b : Byte) (h : x ≠ a) : get (set m a b) x = get m x := by
  unfold set get
  split
  · rw [Sparse.get?_erase_other m h]
  · rw [Sparse.get?_set_other m b h]

/-- A write of several bytes leaves every byte outside them alone. -/
theorem get_write_other (bs : List Byte) : ∀ (m : Memory) (a x : Nat), (x < a ∨ a + bs.length ≤ x) →
    get (write m a bs) x = get m x := by
  induction bs with
  | nil => intros; rfl
  | cons b bs ih =>
    intro m a x h
    simp only [List.length_cons] at h
    rw [write, ih _ _ _ (by omega), get_set_other m b (by omega)]

/-- A read inside a write gives the byte written. -/
theorem get_write_same (bs : List Byte) : ∀ (m : Memory) (a i : Nat), wf m = true → (hi : i < bs.length) →
    get (write m a bs) (a + i) = bs[i] := by
  induction bs with
  | nil => intro m a i _ hi; simp at hi
  | cons b bs ih =>
    intro m a i h hi
    rw [write]
    cases i with
    | zero =>
      rw [get_write_other _ _ _ _ (by omega)]
      exact get_set_same m a b h
    | succ i =>
      rw [show a + (i + 1) = a + 1 + i by omega]
      exact ih _ _ i (wf_set m a b h) (by simpa using hi)

end Memory

end Sys2Proof.Machine
end

