-- ==== Sys2Proof/Laws/State.lean ====
section
/-! SUPPORT. What each update of the package's state does to each of its fields, and what reading a unit gives after one. -/

namespace Sys2Proof.Machine

namespace State

variable (s : State)

@[simp] theorem setCore_cores (n : Nat) (c : Core) : (s.setCore n c).cores = Sparse.set s.cores n c := rfl
@[simp] theorem setCore_clusters (n : Nat) (c : Core) : (s.setCore n c).clusters = s.clusters := rfl
@[simp] theorem setCore_dies (n : Nat) (c : Core) : (s.setCore n c).dies = s.dies := rfl
@[simp] theorem setCore_nodes (n : Nat) (c : Core) : (s.setCore n c).nodes = s.nodes := rfl
@[simp] theorem setCore_hub (n : Nat) (c : Core) : (s.setCore n c).hub = s.hub := rfl
@[simp] theorem setCore_hbm (n : Nat) (c : Core) : (s.setCore n c).hbm = s.hbm := rfl
@[simp] theorem setCore_fabric (n : Nat) (c : Core) : (s.setCore n c).fabric = s.fabric := rfl
@[simp] theorem setCore_platform (n : Nat) (c : Core) : (s.setCore n c).platform = s.platform := rfl
@[simp] theorem setCore_ops (n : Nat) (c : Core) : (s.setCore n c).ops = s.ops := rfl
@[simp] theorem setCore_agenda (n : Nat) (c : Core) : (s.setCore n c).agenda = s.agenda := rfl
@[simp] theorem setCore_cur (n : Nat) (c : Core) : (s.setCore n c).cur = s.cur := rfl
@[simp] theorem setCore_time (n : Nat) (c : Core) : (s.setCore n c).time = s.time := rfl
@[simp] theorem setCore_fresh (n : Nat) (c : Core) : (s.setCore n c).fresh = s.fresh := rfl
@[simp] theorem setCore_nextId (n : Nat) (c : Core) : (s.setCore n c).nextId = s.nextId := rfl

@[simp] theorem onCore_cores (n : Nat) (f : Core → Core) : (s.onCore n f).cores = Sparse.set s.cores n (f (s.core n)) := rfl
@[simp] theorem onCore_clusters (n : Nat) (f : Core → Core) : (s.onCore n f).clusters = s.clusters := rfl
@[simp] theorem onCore_dies (n : Nat) (f : Core → Core) : (s.onCore n f).dies = s.dies := rfl
@[simp] theorem onCore_nodes (n : Nat) (f : Core → Core) : (s.onCore n f).nodes = s.nodes := rfl
@[simp] theorem onCore_hub (n : Nat) (f : Core → Core) : (s.onCore n f).hub = s.hub := rfl
@[simp] theorem onCore_hbm (n : Nat) (f : Core → Core) : (s.onCore n f).hbm = s.hbm := rfl
@[simp] theorem onCore_fabric (n : Nat) (f : Core → Core) : (s.onCore n f).fabric = s.fabric := rfl
@[simp] theorem onCore_platform (n : Nat) (f : Core → Core) : (s.onCore n f).platform = s.platform := rfl
@[simp] theorem onCore_ops (n : Nat) (f : Core → Core) : (s.onCore n f).ops = s.ops := rfl
@[simp] theorem onCore_agenda (n : Nat) (f : Core → Core) : (s.onCore n f).agenda = s.agenda := rfl
@[simp] theorem onCore_cur (n : Nat) (f : Core → Core) : (s.onCore n f).cur = s.cur := rfl
@[simp] theorem onCore_time (n : Nat) (f : Core → Core) : (s.onCore n f).time = s.time := rfl
@[simp] theorem onCore_fresh (n : Nat) (f : Core → Core) : (s.onCore n f).fresh = s.fresh := rfl
@[simp] theorem onCore_nextId (n : Nat) (f : Core → Core) : (s.onCore n f).nextId = s.nextId := rfl

@[simp] theorem onHere_cores (f : Core → Core) : (s.onHere f).cores = Sparse.set s.cores s.cur (f s.here) := rfl
@[simp] theorem onHere_clusters (f : Core → Core) : (s.onHere f).clusters = s.clusters := rfl
@[simp] theorem onHere_dies (f : Core → Core) : (s.onHere f).dies = s.dies := rfl
@[simp] theorem onHere_nodes (f : Core → Core) : (s.onHere f).nodes = s.nodes := rfl
@[simp] theorem onHere_hub (f : Core → Core) : (s.onHere f).hub = s.hub := rfl
@[simp] theorem onHere_hbm (f : Core → Core) : (s.onHere f).hbm = s.hbm := rfl
@[simp] theorem onHere_fabric (f : Core → Core) : (s.onHere f).fabric = s.fabric := rfl
@[simp] theorem onHere_platform (f : Core → Core) : (s.onHere f).platform = s.platform := rfl
@[simp] theorem onHere_ops (f : Core → Core) : (s.onHere f).ops = s.ops := rfl
@[simp] theorem onHere_agenda (f : Core → Core) : (s.onHere f).agenda = s.agenda := rfl
@[simp] theorem onHere_cur (f : Core → Core) : (s.onHere f).cur = s.cur := rfl
@[simp] theorem onHere_time (f : Core → Core) : (s.onHere f).time = s.time := rfl
@[simp] theorem onHere_fresh (f : Core → Core) : (s.onHere f).fresh = s.fresh := rfl
@[simp] theorem onHere_nextId (f : Core → Core) : (s.onHere f).nextId = s.nextId := rfl

@[simp] theorem setCluster_cores (n : Nat) (c : Cluster) : (s.setCluster n c).cores = s.cores := rfl
@[simp] theorem setCluster_clusters (n : Nat) (c : Cluster) : (s.setCluster n c).clusters = Sparse.set s.clusters n c := rfl
@[simp] theorem setCluster_dies (n : Nat) (c : Cluster) : (s.setCluster n c).dies = s.dies := rfl
@[simp] theorem setCluster_nodes (n : Nat) (c : Cluster) : (s.setCluster n c).nodes = s.nodes := rfl
@[simp] theorem setCluster_hub (n : Nat) (c : Cluster) : (s.setCluster n c).hub = s.hub := rfl
@[simp] theorem setCluster_hbm (n : Nat) (c : Cluster) : (s.setCluster n c).hbm = s.hbm := rfl
@[simp] theorem setCluster_fabric (n : Nat) (c : Cluster) : (s.setCluster n c).fabric = s.fabric := rfl
@[simp] theorem setCluster_platform (n : Nat) (c : Cluster) : (s.setCluster n c).platform = s.platform := rfl
@[simp] theorem setCluster_ops (n : Nat) (c : Cluster) : (s.setCluster n c).ops = s.ops := rfl
@[simp] theorem setCluster_agenda (n : Nat) (c : Cluster) : (s.setCluster n c).agenda = s.agenda := rfl
@[simp] theorem setCluster_cur (n : Nat) (c : Cluster) : (s.setCluster n c).cur = s.cur := rfl
@[simp] theorem setCluster_time (n : Nat) (c : Cluster) : (s.setCluster n c).time = s.time := rfl
@[simp] theorem setCluster_fresh (n : Nat) (c : Cluster) : (s.setCluster n c).fresh = s.fresh := rfl
@[simp] theorem setCluster_nextId (n : Nat) (c : Cluster) : (s.setCluster n c).nextId = s.nextId := rfl

@[simp] theorem onCluster_cores (n : Nat) (f : Cluster → Cluster) : (s.onCluster n f).cores = s.cores := rfl
@[simp] theorem onCluster_clusters (n : Nat) (f : Cluster → Cluster) : (s.onCluster n f).clusters = Sparse.set s.clusters n (f (s.cluster n)) := rfl
@[simp] theorem onCluster_dies (n : Nat) (f : Cluster → Cluster) : (s.onCluster n f).dies = s.dies := rfl
@[simp] theorem onCluster_nodes (n : Nat) (f : Cluster → Cluster) : (s.onCluster n f).nodes = s.nodes := rfl
@[simp] theorem onCluster_hub (n : Nat) (f : Cluster → Cluster) : (s.onCluster n f).hub = s.hub := rfl
@[simp] theorem onCluster_hbm (n : Nat) (f : Cluster → Cluster) : (s.onCluster n f).hbm = s.hbm := rfl
@[simp] theorem onCluster_fabric (n : Nat) (f : Cluster → Cluster) : (s.onCluster n f).fabric = s.fabric := rfl
@[simp] theorem onCluster_platform (n : Nat) (f : Cluster → Cluster) : (s.onCluster n f).platform = s.platform := rfl
@[simp] theorem onCluster_ops (n : Nat) (f : Cluster → Cluster) : (s.onCluster n f).ops = s.ops := rfl
@[simp] theorem onCluster_agenda (n : Nat) (f : Cluster → Cluster) : (s.onCluster n f).agenda = s.agenda := rfl
@[simp] theorem onCluster_cur (n : Nat) (f : Cluster → Cluster) : (s.onCluster n f).cur = s.cur := rfl
@[simp] theorem onCluster_time (n : Nat) (f : Cluster → Cluster) : (s.onCluster n f).time = s.time := rfl
@[simp] theorem onCluster_fresh (n : Nat) (f : Cluster → Cluster) : (s.onCluster n f).fresh = s.fresh := rfl
@[simp] theorem onCluster_nextId (n : Nat) (f : Cluster → Cluster) : (s.onCluster n f).nextId = s.nextId := rfl

@[simp] theorem setDie_cores (n : Nat) (d : Die) : (s.setDie n d).cores = s.cores := rfl
@[simp] theorem setDie_clusters (n : Nat) (d : Die) : (s.setDie n d).clusters = s.clusters := rfl
@[simp] theorem setDie_dies (n : Nat) (d : Die) : (s.setDie n d).dies = Sparse.set s.dies n d := rfl
@[simp] theorem setDie_nodes (n : Nat) (d : Die) : (s.setDie n d).nodes = s.nodes := rfl
@[simp] theorem setDie_hub (n : Nat) (d : Die) : (s.setDie n d).hub = s.hub := rfl
@[simp] theorem setDie_hbm (n : Nat) (d : Die) : (s.setDie n d).hbm = s.hbm := rfl
@[simp] theorem setDie_fabric (n : Nat) (d : Die) : (s.setDie n d).fabric = s.fabric := rfl
@[simp] theorem setDie_platform (n : Nat) (d : Die) : (s.setDie n d).platform = s.platform := rfl
@[simp] theorem setDie_ops (n : Nat) (d : Die) : (s.setDie n d).ops = s.ops := rfl
@[simp] theorem setDie_agenda (n : Nat) (d : Die) : (s.setDie n d).agenda = s.agenda := rfl
@[simp] theorem setDie_cur (n : Nat) (d : Die) : (s.setDie n d).cur = s.cur := rfl
@[simp] theorem setDie_time (n : Nat) (d : Die) : (s.setDie n d).time = s.time := rfl
@[simp] theorem setDie_fresh (n : Nat) (d : Die) : (s.setDie n d).fresh = s.fresh := rfl
@[simp] theorem setDie_nextId (n : Nat) (d : Die) : (s.setDie n d).nextId = s.nextId := rfl

@[simp] theorem onDie_cores (n : Nat) (f : Die → Die) : (s.onDie n f).cores = s.cores := rfl
@[simp] theorem onDie_clusters (n : Nat) (f : Die → Die) : (s.onDie n f).clusters = s.clusters := rfl
@[simp] theorem onDie_dies (n : Nat) (f : Die → Die) : (s.onDie n f).dies = Sparse.set s.dies n (f (s.die n)) := rfl
@[simp] theorem onDie_nodes (n : Nat) (f : Die → Die) : (s.onDie n f).nodes = s.nodes := rfl
@[simp] theorem onDie_hub (n : Nat) (f : Die → Die) : (s.onDie n f).hub = s.hub := rfl
@[simp] theorem onDie_hbm (n : Nat) (f : Die → Die) : (s.onDie n f).hbm = s.hbm := rfl
@[simp] theorem onDie_fabric (n : Nat) (f : Die → Die) : (s.onDie n f).fabric = s.fabric := rfl
@[simp] theorem onDie_platform (n : Nat) (f : Die → Die) : (s.onDie n f).platform = s.platform := rfl
@[simp] theorem onDie_ops (n : Nat) (f : Die → Die) : (s.onDie n f).ops = s.ops := rfl
@[simp] theorem onDie_agenda (n : Nat) (f : Die → Die) : (s.onDie n f).agenda = s.agenda := rfl
@[simp] theorem onDie_cur (n : Nat) (f : Die → Die) : (s.onDie n f).cur = s.cur := rfl
@[simp] theorem onDie_time (n : Nat) (f : Die → Die) : (s.onDie n f).time = s.time := rfl
@[simp] theorem onDie_fresh (n : Nat) (f : Die → Die) : (s.onDie n f).fresh = s.fresh := rfl
@[simp] theorem onDie_nextId (n : Nat) (f : Die → Die) : (s.onDie n f).nextId = s.nextId := rfl

@[simp] theorem setNode_cores (n : Nat) (x : Node) : (s.setNode n x).cores = s.cores := rfl
@[simp] theorem setNode_clusters (n : Nat) (x : Node) : (s.setNode n x).clusters = s.clusters := rfl
@[simp] theorem setNode_dies (n : Nat) (x : Node) : (s.setNode n x).dies = s.dies := rfl
@[simp] theorem setNode_nodes (n : Nat) (x : Node) : (s.setNode n x).nodes = Sparse.set s.nodes n x := rfl
@[simp] theorem setNode_hub (n : Nat) (x : Node) : (s.setNode n x).hub = s.hub := rfl
@[simp] theorem setNode_hbm (n : Nat) (x : Node) : (s.setNode n x).hbm = s.hbm := rfl
@[simp] theorem setNode_fabric (n : Nat) (x : Node) : (s.setNode n x).fabric = s.fabric := rfl
@[simp] theorem setNode_platform (n : Nat) (x : Node) : (s.setNode n x).platform = s.platform := rfl
@[simp] theorem setNode_ops (n : Nat) (x : Node) : (s.setNode n x).ops = s.ops := rfl
@[simp] theorem setNode_agenda (n : Nat) (x : Node) : (s.setNode n x).agenda = s.agenda := rfl
@[simp] theorem setNode_cur (n : Nat) (x : Node) : (s.setNode n x).cur = s.cur := rfl
@[simp] theorem setNode_time (n : Nat) (x : Node) : (s.setNode n x).time = s.time := rfl
@[simp] theorem setNode_fresh (n : Nat) (x : Node) : (s.setNode n x).fresh = s.fresh := rfl
@[simp] theorem setNode_nextId (n : Nat) (x : Node) : (s.setNode n x).nextId = s.nextId := rfl

@[simp] theorem onHub_cores (f : Hub → Hub) : (s.onHub f).cores = s.cores := rfl
@[simp] theorem onHub_clusters (f : Hub → Hub) : (s.onHub f).clusters = s.clusters := rfl
@[simp] theorem onHub_dies (f : Hub → Hub) : (s.onHub f).dies = s.dies := rfl
@[simp] theorem onHub_nodes (f : Hub → Hub) : (s.onHub f).nodes = s.nodes := rfl
@[simp] theorem onHub_hub (f : Hub → Hub) : (s.onHub f).hub = f s.hub := rfl
@[simp] theorem onHub_hbm (f : Hub → Hub) : (s.onHub f).hbm = s.hbm := rfl
@[simp] theorem onHub_fabric (f : Hub → Hub) : (s.onHub f).fabric = s.fabric := rfl
@[simp] theorem onHub_platform (f : Hub → Hub) : (s.onHub f).platform = s.platform := rfl
@[simp] theorem onHub_ops (f : Hub → Hub) : (s.onHub f).ops = s.ops := rfl
@[simp] theorem onHub_agenda (f : Hub → Hub) : (s.onHub f).agenda = s.agenda := rfl
@[simp] theorem onHub_cur (f : Hub → Hub) : (s.onHub f).cur = s.cur := rfl
@[simp] theorem onHub_time (f : Hub → Hub) : (s.onHub f).time = s.time := rfl
@[simp] theorem onHub_fresh (f : Hub → Hub) : (s.onHub f).fresh = s.fresh := rfl
@[simp] theorem onHub_nextId (f : Hub → Hub) : (s.onHub f).nextId = s.nextId := rfl

@[simp] theorem onPlatform_cores (f : Platform → Platform) : (s.onPlatform f).cores = s.cores := rfl
@[simp] theorem onPlatform_clusters (f : Platform → Platform) : (s.onPlatform f).clusters = s.clusters := rfl
@[simp] theorem onPlatform_dies (f : Platform → Platform) : (s.onPlatform f).dies = s.dies := rfl
@[simp] theorem onPlatform_nodes (f : Platform → Platform) : (s.onPlatform f).nodes = s.nodes := rfl
@[simp] theorem onPlatform_hub (f : Platform → Platform) : (s.onPlatform f).hub = s.hub := rfl
@[simp] theorem onPlatform_hbm (f : Platform → Platform) : (s.onPlatform f).hbm = s.hbm := rfl
@[simp] theorem onPlatform_fabric (f : Platform → Platform) : (s.onPlatform f).fabric = s.fabric := rfl
@[simp] theorem onPlatform_platform (f : Platform → Platform) : (s.onPlatform f).platform = f s.platform := rfl
@[simp] theorem onPlatform_ops (f : Platform → Platform) : (s.onPlatform f).ops = s.ops := rfl
@[simp] theorem onPlatform_agenda (f : Platform → Platform) : (s.onPlatform f).agenda = s.agenda := rfl
@[simp] theorem onPlatform_cur (f : Platform → Platform) : (s.onPlatform f).cur = s.cur := rfl
@[simp] theorem onPlatform_time (f : Platform → Platform) : (s.onPlatform f).time = s.time := rfl
@[simp] theorem onPlatform_fresh (f : Platform → Platform) : (s.onPlatform f).fresh = s.fresh := rfl
@[simp] theorem onPlatform_nextId (f : Platform → Platform) : (s.onPlatform f).nextId = s.nextId := rfl

@[simp] theorem onFabric_cores (f : Fabric → Fabric) : (s.onFabric f).cores = s.cores := rfl
@[simp] theorem onFabric_clusters (f : Fabric → Fabric) : (s.onFabric f).clusters = s.clusters := rfl
@[simp] theorem onFabric_dies (f : Fabric → Fabric) : (s.onFabric f).dies = s.dies := rfl
@[simp] theorem onFabric_nodes (f : Fabric → Fabric) : (s.onFabric f).nodes = s.nodes := rfl
@[simp] theorem onFabric_hub (f : Fabric → Fabric) : (s.onFabric f).hub = s.hub := rfl
@[simp] theorem onFabric_hbm (f : Fabric → Fabric) : (s.onFabric f).hbm = s.hbm := rfl
@[simp] theorem onFabric_fabric (f : Fabric → Fabric) : (s.onFabric f).fabric = f s.fabric := rfl
@[simp] theorem onFabric_platform (f : Fabric → Fabric) : (s.onFabric f).platform = s.platform := rfl
@[simp] theorem onFabric_ops (f : Fabric → Fabric) : (s.onFabric f).ops = s.ops := rfl
@[simp] theorem onFabric_agenda (f : Fabric → Fabric) : (s.onFabric f).agenda = s.agenda := rfl
@[simp] theorem onFabric_cur (f : Fabric → Fabric) : (s.onFabric f).cur = s.cur := rfl
@[simp] theorem onFabric_time (f : Fabric → Fabric) : (s.onFabric f).time = s.time := rfl
@[simp] theorem onFabric_fresh (f : Fabric → Fabric) : (s.onFabric f).fresh = s.fresh := rfl
@[simp] theorem onFabric_nextId (f : Fabric → Fabric) : (s.onFabric f).nextId = s.nextId := rfl

@[simp] theorem onLaunch_cores (f : Launch → Launch) : (s.onLaunch f).cores = s.cores := rfl
@[simp] theorem onLaunch_clusters (f : Launch → Launch) : (s.onLaunch f).clusters = s.clusters := rfl
@[simp] theorem onLaunch_dies (f : Launch → Launch) : (s.onLaunch f).dies = s.dies := rfl
@[simp] theorem onLaunch_nodes (f : Launch → Launch) : (s.onLaunch f).nodes = s.nodes := rfl
@[simp] theorem onLaunch_hub (f : Launch → Launch) : (s.onLaunch f).hub = { s.hub with launch := s.hub.launch.map f } := rfl
@[simp] theorem onLaunch_hbm (f : Launch → Launch) : (s.onLaunch f).hbm = s.hbm := rfl
@[simp] theorem onLaunch_fabric (f : Launch → Launch) : (s.onLaunch f).fabric = s.fabric := rfl
@[simp] theorem onLaunch_platform (f : Launch → Launch) : (s.onLaunch f).platform = s.platform := rfl
@[simp] theorem onLaunch_ops (f : Launch → Launch) : (s.onLaunch f).ops = s.ops := rfl
@[simp] theorem onLaunch_agenda (f : Launch → Launch) : (s.onLaunch f).agenda = s.agenda := rfl
@[simp] theorem onLaunch_cur (f : Launch → Launch) : (s.onLaunch f).cur = s.cur := rfl
@[simp] theorem onLaunch_time (f : Launch → Launch) : (s.onLaunch f).time = s.time := rfl
@[simp] theorem onLaunch_fresh (f : Launch → Launch) : (s.onLaunch f).fresh = s.fresh := rfl
@[simp] theorem onLaunch_nextId (f : Launch → Launch) : (s.onLaunch f).nextId = s.nextId := rfl

@[simp] theorem push_cores (i : Instr) : (s.push i).cores = s.cores := rfl
@[simp] theorem push_clusters (i : Instr) : (s.push i).clusters = s.clusters := rfl
@[simp] theorem push_dies (i : Instr) : (s.push i).dies = s.dies := rfl
@[simp] theorem push_nodes (i : Instr) : (s.push i).nodes = s.nodes := rfl
@[simp] theorem push_hub (i : Instr) : (s.push i).hub = s.hub := rfl
@[simp] theorem push_hbm (i : Instr) : (s.push i).hbm = s.hbm := rfl
@[simp] theorem push_fabric (i : Instr) : (s.push i).fabric = s.fabric := rfl
@[simp] theorem push_platform (i : Instr) : (s.push i).platform = s.platform := rfl
@[simp] theorem push_ops (i : Instr) : (s.push i).ops = s.ops := rfl
@[simp] theorem push_agenda (i : Instr) : (s.push i).agenda = s.agenda ++ [i] := rfl
@[simp] theorem push_cur (i : Instr) : (s.push i).cur = s.cur := rfl
@[simp] theorem push_time (i : Instr) : (s.push i).time = s.time := rfl
@[simp] theorem push_fresh (i : Instr) : (s.push i).fresh = s.fresh := rfl
@[simp] theorem push_nextId (i : Instr) : (s.push i).nextId = s.nextId := rfl

@[simp] theorem dropOp_cores (id : Nat) : (s.dropOp id).cores = s.cores := rfl
@[simp] theorem dropOp_clusters (id : Nat) : (s.dropOp id).clusters = s.clusters := rfl
@[simp] theorem dropOp_dies (id : Nat) : (s.dropOp id).dies = s.dies := rfl
@[simp] theorem dropOp_nodes (id : Nat) : (s.dropOp id).nodes = s.nodes := rfl
@[simp] theorem dropOp_hub (id : Nat) : (s.dropOp id).hub = s.hub := rfl
@[simp] theorem dropOp_hbm (id : Nat) : (s.dropOp id).hbm = s.hbm := rfl
@[simp] theorem dropOp_fabric (id : Nat) : (s.dropOp id).fabric = s.fabric := rfl
@[simp] theorem dropOp_platform (id : Nat) : (s.dropOp id).platform = s.platform := rfl
@[simp] theorem dropOp_ops (id : Nat) : (s.dropOp id).ops = s.ops.filter (fun p => p.id != id) := rfl
@[simp] theorem dropOp_agenda (id : Nat) : (s.dropOp id).agenda = s.agenda := rfl
@[simp] theorem dropOp_cur (id : Nat) : (s.dropOp id).cur = s.cur := rfl
@[simp] theorem dropOp_time (id : Nat) : (s.dropOp id).time = s.time := rfl
@[simp] theorem dropOp_fresh (id : Nat) : (s.dropOp id).fresh = s.fresh := rfl
@[simp] theorem dropOp_nextId (id : Nat) : (s.dropOp id).nextId = s.nextId := rfl

@[simp] theorem addOp_cores (b : Issuer) (op : Op) : (s.addOp b op).cores = s.cores := rfl
@[simp] theorem addOp_clusters (b : Issuer) (op : Op) : (s.addOp b op).clusters = s.clusters := rfl
@[simp] theorem addOp_dies (b : Issuer) (op : Op) : (s.addOp b op).dies = s.dies := rfl
@[simp] theorem addOp_nodes (b : Issuer) (op : Op) : (s.addOp b op).nodes = s.nodes := rfl
@[simp] theorem addOp_hub (b : Issuer) (op : Op) : (s.addOp b op).hub = s.hub := rfl
@[simp] theorem addOp_hbm (b : Issuer) (op : Op) : (s.addOp b op).hbm = s.hbm := rfl
@[simp] theorem addOp_fabric (b : Issuer) (op : Op) : (s.addOp b op).fabric = s.fabric := rfl
@[simp] theorem addOp_platform (b : Issuer) (op : Op) : (s.addOp b op).platform = s.platform := rfl
@[simp] theorem addOp_ops (b : Issuer) (op : Op) : (s.addOp b op).ops = s.ops ++ [{ id := s.nextId, by_ := b, op := op }] := rfl
@[simp] theorem addOp_agenda (b : Issuer) (op : Op) : (s.addOp b op).agenda = s.agenda := rfl
@[simp] theorem addOp_cur (b : Issuer) (op : Op) : (s.addOp b op).cur = s.cur := rfl
@[simp] theorem addOp_time (b : Issuer) (op : Op) : (s.addOp b op).time = s.time := rfl
@[simp] theorem addOp_fresh (b : Issuer) (op : Op) : (s.addOp b op).fresh = s.fresh := rfl
@[simp] theorem addOp_nextId (b : Issuer) (op : Op) : (s.addOp b op).nextId = s.nextId + 1 := rfl

@[simp] theorem interrupt_cores (v : Nat) : (s.interrupt v).cores = s.cores := rfl
@[simp] theorem interrupt_clusters (v : Nat) : (s.interrupt v).clusters = s.clusters := rfl
@[simp] theorem interrupt_dies (v : Nat) : (s.interrupt v).dies = s.dies := rfl
@[simp] theorem interrupt_nodes (v : Nat) : (s.interrupt v).nodes = s.nodes := rfl
@[simp] theorem interrupt_hub (v : Nat) : (s.interrupt v).hub = s.hub := rfl
@[simp] theorem interrupt_hbm (v : Nat) : (s.interrupt v).hbm = s.hbm := rfl
@[simp] theorem interrupt_fabric (v : Nat) : (s.interrupt v).fabric = s.fabric := rfl
@[simp] theorem interrupt_platform (v : Nat) : (s.interrupt v).platform = { s.platform with msix := v :: s.platform.msix } := rfl
@[simp] theorem interrupt_ops (v : Nat) : (s.interrupt v).ops = s.ops := rfl
@[simp] theorem interrupt_agenda (v : Nat) : (s.interrupt v).agenda = s.agenda := rfl
@[simp] theorem interrupt_cur (v : Nat) : (s.interrupt v).cur = s.cur := rfl
@[simp] theorem interrupt_time (v : Nat) : (s.interrupt v).time = s.time := rfl
@[simp] theorem interrupt_fresh (v : Nat) : (s.interrupt v).fresh = s.fresh := rfl
@[simp] theorem interrupt_nextId (v : Nat) : (s.interrupt v).nextId = s.nextId := rfl

/-! Reading a unit. -/

@[simp] theorem core_setCore_same (n : Nat) (c : Core) : (s.setCore n c).core n = c := by
  simp [core, Sparse.get?_set_same]

theorem core_setCore_other {n m : Nat} (c : Core) (h : m ≠ n) : (s.setCore n c).core m = s.core m := by
  simp [core, Sparse.get?_set_other _ _ h]

@[simp] theorem core_onCore_same (n : Nat) (f : Core → Core) : (s.onCore n f).core n = f (s.core n) := by
  simp [onCore]

theorem core_onCore_other {n m : Nat} (f : Core → Core) (h : m ≠ n) : (s.onCore n f).core m = s.core m := by
  simp [onCore, core_setCore_other s _ h]

@[simp] theorem here_onHere (f : Core → Core) : (s.onHere f).here = f s.here := by
  simp [here, onHere, onCore_cur]

@[simp] theorem cluster_setCluster_same (n : Nat) (c : Cluster) : (s.setCluster n c).cluster n = c := by
  simp [cluster, Sparse.get?_set_same]

theorem cluster_setCluster_other {n m : Nat} (c : Cluster) (h : m ≠ n) :
    (s.setCluster n c).cluster m = s.cluster m := by
  simp [cluster, Sparse.get?_set_other _ _ h]

@[simp] theorem die_setDie_same (n : Nat) (d : Die) : (s.setDie n d).die n = d := by
  simp [die, Sparse.get?_set_same]

theorem die_setDie_other {n m : Nat} (d : Die) (h : m ≠ n) : (s.setDie n d).die m = s.die m := by
  simp [die, Sparse.get?_set_other _ _ h]

@[simp] theorem node_setNode_same (n : Nat) (x : Node) : (s.setNode n x).node n = x := by
  simp [node, Sparse.get?_set_same]

theorem node_setNode_other {n m : Nat} (x : Node) (h : m ≠ n) : (s.setNode n x).node m = s.node m := by
  simp [node, Sparse.get?_set_other _ _ h]

@[simp] theorem cluster_setCore (n : Nat) (c : Core) (m : Nat) : (s.setCore n c).cluster m = s.cluster m := rfl
@[simp] theorem die_setCore (n : Nat) (c : Core) (m : Nat) : (s.setCore n c).die m = s.die m := rfl
@[simp] theorem node_setCore (n : Nat) (c : Core) (m : Nat) : (s.setCore n c).node m = s.node m := rfl
@[simp] theorem cluster_onCore (n : Nat) (f : Core → Core) (m : Nat) : (s.onCore n f).cluster m = s.cluster m := rfl
@[simp] theorem die_onCore (n : Nat) (f : Core → Core) (m : Nat) : (s.onCore n f).die m = s.die m := rfl
@[simp] theorem node_onCore (n : Nat) (f : Core → Core) (m : Nat) : (s.onCore n f).node m = s.node m := rfl
@[simp] theorem cluster_onHere (f : Core → Core) (m : Nat) : (s.onHere f).cluster m = s.cluster m := rfl
@[simp] theorem die_onHere (f : Core → Core) (m : Nat) : (s.onHere f).die m = s.die m := rfl
@[simp] theorem node_onHere (f : Core → Core) (m : Nat) : (s.onHere f).node m = s.node m := rfl
@[simp] theorem core_setCluster (n : Nat) (c : Cluster) (m : Nat) : (s.setCluster n c).core m = s.core m := rfl
@[simp] theorem die_setCluster (n : Nat) (c : Cluster) (m : Nat) : (s.setCluster n c).die m = s.die m := rfl
@[simp] theorem node_setCluster (n : Nat) (c : Cluster) (m : Nat) : (s.setCluster n c).node m = s.node m := rfl
@[simp] theorem here_setCluster (n : Nat) (c : Cluster) : (s.setCluster n c).here = s.here := rfl
@[simp] theorem core_onCluster (n : Nat) (f : Cluster → Cluster) (m : Nat) : (s.onCluster n f).core m = s.core m := rfl
@[simp] theorem die_onCluster (n : Nat) (f : Cluster → Cluster) (m : Nat) : (s.onCluster n f).die m = s.die m := rfl
@[simp] theorem node_onCluster (n : Nat) (f : Cluster → Cluster) (m : Nat) : (s.onCluster n f).node m = s.node m := rfl
@[simp] theorem here_onCluster (n : Nat) (f : Cluster → Cluster) : (s.onCluster n f).here = s.here := rfl
@[simp] theorem core_setDie (n : Nat) (d : Die) (m : Nat) : (s.setDie n d).core m = s.core m := rfl
@[simp] theorem cluster_setDie (n : Nat) (d : Die) (m : Nat) : (s.setDie n d).cluster m = s.cluster m := rfl
@[simp] theorem node_setDie (n : Nat) (d : Die) (m : Nat) : (s.setDie n d).node m = s.node m := rfl
@[simp] theorem here_setDie (n : Nat) (d : Die) : (s.setDie n d).here = s.here := rfl
@[simp] theorem core_onDie (n : Nat) (f : Die → Die) (m : Nat) : (s.onDie n f).core m = s.core m := rfl
@[simp] theorem cluster_onDie (n : Nat) (f : Die → Die) (m : Nat) : (s.onDie n f).cluster m = s.cluster m := rfl
@[simp] theorem node_onDie (n : Nat) (f : Die → Die) (m : Nat) : (s.onDie n f).node m = s.node m := rfl
@[simp] theorem here_onDie (n : Nat) (f : Die → Die) : (s.onDie n f).here = s.here := rfl
@[simp] theorem core_setNode (n : Nat) (x : Node) (m : Nat) : (s.setNode n x).core m = s.core m := rfl
@[simp] theorem cluster_setNode (n : Nat) (x : Node) (m : Nat) : (s.setNode n x).cluster m = s.cluster m := rfl
@[simp] theorem die_setNode (n : Nat) (x : Node) (m : Nat) : (s.setNode n x).die m = s.die m := rfl
@[simp] theorem here_setNode (n : Nat) (x : Node) : (s.setNode n x).here = s.here := rfl
@[simp] theorem core_onHub (f : Hub → Hub) (m : Nat) : (s.onHub f).core m = s.core m := rfl
@[simp] theorem cluster_onHub (f : Hub → Hub) (m : Nat) : (s.onHub f).cluster m = s.cluster m := rfl
@[simp] theorem die_onHub (f : Hub → Hub) (m : Nat) : (s.onHub f).die m = s.die m := rfl
@[simp] theorem node_onHub (f : Hub → Hub) (m : Nat) : (s.onHub f).node m = s.node m := rfl
@[simp] theorem here_onHub (f : Hub → Hub) : (s.onHub f).here = s.here := rfl
@[simp] theorem core_onPlatform (f : Platform → Platform) (m : Nat) : (s.onPlatform f).core m = s.core m := rfl
@[simp] theorem cluster_onPlatform (f : Platform → Platform) (m : Nat) : (s.onPlatform f).cluster m = s.cluster m := rfl
@[simp] theorem die_onPlatform (f : Platform → Platform) (m : Nat) : (s.onPlatform f).die m = s.die m := rfl
@[simp] theorem node_onPlatform (f : Platform → Platform) (m : Nat) : (s.onPlatform f).node m = s.node m := rfl
@[simp] theorem here_onPlatform (f : Platform → Platform) : (s.onPlatform f).here = s.here := rfl
@[simp] theorem core_onFabric (f : Fabric → Fabric) (m : Nat) : (s.onFabric f).core m = s.core m := rfl
@[simp] theorem cluster_onFabric (f : Fabric → Fabric) (m : Nat) : (s.onFabric f).cluster m = s.cluster m := rfl
@[simp] theorem die_onFabric (f : Fabric → Fabric) (m : Nat) : (s.onFabric f).die m = s.die m := rfl
@[simp] theorem node_onFabric (f : Fabric → Fabric) (m : Nat) : (s.onFabric f).node m = s.node m := rfl
@[simp] theorem here_onFabric (f : Fabric → Fabric) : (s.onFabric f).here = s.here := rfl
@[simp] theorem core_onLaunch (f : Launch → Launch) (m : Nat) : (s.onLaunch f).core m = s.core m := rfl
@[simp] theorem cluster_onLaunch (f : Launch → Launch) (m : Nat) : (s.onLaunch f).cluster m = s.cluster m := rfl
@[simp] theorem die_onLaunch (f : Launch → Launch) (m : Nat) : (s.onLaunch f).die m = s.die m := rfl
@[simp] theorem node_onLaunch (f : Launch → Launch) (m : Nat) : (s.onLaunch f).node m = s.node m := rfl
@[simp] theorem here_onLaunch (f : Launch → Launch) : (s.onLaunch f).here = s.here := rfl
@[simp] theorem core_push (i : Instr) (m : Nat) : (s.push i).core m = s.core m := rfl
@[simp] theorem cluster_push (i : Instr) (m : Nat) : (s.push i).cluster m = s.cluster m := rfl
@[simp] theorem die_push (i : Instr) (m : Nat) : (s.push i).die m = s.die m := rfl
@[simp] theorem node_push (i : Instr) (m : Nat) : (s.push i).node m = s.node m := rfl
@[simp] theorem here_push (i : Instr) : (s.push i).here = s.here := rfl
@[simp] theorem core_dropOp (id : Nat) (m : Nat) : (s.dropOp id).core m = s.core m := rfl
@[simp] theorem cluster_dropOp (id : Nat) (m : Nat) : (s.dropOp id).cluster m = s.cluster m := rfl
@[simp] theorem die_dropOp (id : Nat) (m : Nat) : (s.dropOp id).die m = s.die m := rfl
@[simp] theorem node_dropOp (id : Nat) (m : Nat) : (s.dropOp id).node m = s.node m := rfl
@[simp] theorem here_dropOp (id : Nat) : (s.dropOp id).here = s.here := rfl
@[simp] theorem core_addOp (b : Issuer) (op : Op) (m : Nat) : (s.addOp b op).core m = s.core m := rfl
@[simp] theorem cluster_addOp (b : Issuer) (op : Op) (m : Nat) : (s.addOp b op).cluster m = s.cluster m := rfl
@[simp] theorem die_addOp (b : Issuer) (op : Op) (m : Nat) : (s.addOp b op).die m = s.die m := rfl
@[simp] theorem node_addOp (b : Issuer) (op : Op) (m : Nat) : (s.addOp b op).node m = s.node m := rfl
@[simp] theorem here_addOp (b : Issuer) (op : Op) : (s.addOp b op).here = s.here := rfl
@[simp] theorem core_interrupt (v : Nat) (m : Nat) : (s.interrupt v).core m = s.core m := rfl
@[simp] theorem cluster_interrupt (v : Nat) (m : Nat) : (s.interrupt v).cluster m = s.cluster m := rfl
@[simp] theorem die_interrupt (v : Nat) (m : Nat) : (s.interrupt v).die m = s.die m := rfl
@[simp] theorem node_interrupt (v : Nat) (m : Nat) : (s.interrupt v).node m = s.node m := rfl
@[simp] theorem here_interrupt (v : Nat) : (s.interrupt v).here = s.here := rfl

end State

end Sys2Proof.Machine
end

