-- ==== Sys2Proof/Laws/Ops.lean ====
section
/-! SUPPORT. What the shared operations of the words can do: a second change of the core in hand, the taking of a
stochastic-rounding value, the sending of results, the enqueuing of a request, and what each leaves alone. -/

namespace Sys2Proof.Machine

theorem Sparse.set_set {α : Type} (t : List (Nat × α)) (n : Nat) (x y : α) :
    Sparse.set (Sparse.set t n x) n y = Sparse.set t n y := by
  induction t with
  | nil => simp [Sparse.set]
  | cons a t ih =>
    obtain ⟨k, v⟩ := a
    rcases Nat.lt_trichotomy n k with h | h | h
    · simp [Sparse.set, h]
    · subst h
      simp [Sparse.set]
    · have h1 : ¬ n < k := by omega
      have h2 : n ≠ k := by omega
      simp [Sparse.set, h1, h2, ih]

namespace State

variable (s : State)

theorem setCore_setCore (n : Nat) (c d : Core) : (s.setCore n c).setCore n d = s.setCore n d := by
  simp [setCore, Sparse.set_set]

theorem onCore_onCore (n : Nat) (f g : Core → Core) : (s.onCore n f).onCore n g = s.onCore n fun c => g (f c) := by
  simp only [onCore, core_setCore_same, setCore_setCore]

theorem onHere_onHere (f g : Core → Core) : (s.onHere f).onHere g = s.onHere fun c => g (f c) :=
  s.onCore_onCore s.cur f g

theorem core_onHere_other {n : Nat} (f : Core → Core) (h : n ≠ s.cur) : (s.onHere f).core n = s.core n :=
  s.core_onCore_other f h

/-! Taking a stochastic-rounding value touches the count of the bundle in hand and nothing else. -/

theorem takeSr_eq (uses : Bool) :
    s.takeSr uses = s ∨ s.takeSr uses = s.onHere fun c => { c with iss := { c.iss with srUsed := c.iss.srUsed + 1 } } := by
  unfold takeSr
  split
  · exact .inr rfl
  · exact .inl rfl

theorem takeSr_here (uses : Bool) : ∃ n, (s.takeSr uses).here = { s.here with iss := { s.here.iss with srUsed := n } } := by
  rcases s.takeSr_eq uses with h | h
  · exact ⟨s.here.iss.srUsed, by rw [h]⟩
  · exact ⟨s.here.iss.srUsed + 1, by rw [h, here_onHere]⟩

@[simp] theorem takeSr_inHandler (uses : Bool) : (s.takeSr uses).here.inHandler = s.here.inHandler := by
  obtain ⟨n, h⟩ := s.takeSr_here uses
  rw [h]

@[simp] theorem takeSr_fresh (uses : Bool) : (s.takeSr uses).fresh = s.fresh := by
  rcases s.takeSr_eq uses with h | h <;> rw [h]; rfl

@[simp] theorem takeSr_cur (uses : Bool) : (s.takeSr uses).cur = s.cur := by
  rcases s.takeSr_eq uses with h | h <;> rw [h]; rfl

@[simp] theorem takeSr_readPort (uses : Bool) (fresh : Nat) (p : Port) :
    (s.takeSr uses).here.readPort fresh p = s.here.readPort fresh p := by
  obtain ⟨n, h⟩ := s.takeSr_here uses
  rw [h]
  rfl

@[simp] theorem takeSr_held (uses : Bool) (p : Port) : (s.takeSr uses).here.held_ p = s.here.held_ p := by
  obtain ⟨n, h⟩ := s.takeSr_here uses
  rw [h]
  cases p <;> rfl

@[simp] theorem takeSr_mask (uses : Bool) (m : BitVec 3) : (s.takeSr uses).mask m = s.mask m := by
  simp [mask]

@[simp] theorem takeSr_vec (uses : Bool) (y : Bool) (n : BitVec 5) : (s.takeSr uses).vec y n = s.vec y n := by
  simp [vec]

@[simp] theorem takeSr_oldVec (uses : Bool) (y : Bool) (n : BitVec 5) : (s.takeSr uses).oldVec y n = s.oldVec y n := by
  simp [oldVec]

@[simp] theorem takeSr_osn (uses : Bool) : (s.takeSr uses).osn = s.osn := by
  obtain ⟨n, h⟩ := s.takeSr_here uses
  simp only [osn, h]
  rfl

end State

/-! Sending a result: it joins the results in flight, and nothing else of the core changes. -/

theorem Core.send_eq (c : Core) (port : Port) (lat : Nat) (l : Landing) :
    ∃ ls, c.send port lat l = { c with landings := ls } ∧ ∀ m, m.port ≠ port → (m ∈ ls ↔ m ∈ c.landings) := by
  unfold Core.send
  split
  · exact ⟨c.landings, rfl, fun _ _ => Iff.rfl⟩
  · refine ⟨_, rfl, fun m hm => ?_⟩
    simp only [List.mem_append, List.mem_singleton]
    constructor
    · rintro (h | h)
      · split at h
        · obtain ⟨o, ho, rfl⟩ := List.mem_map.1 h
          split at hm
          · simp_all
          · split
            · simp_all
            · exact ho
        · exact h
      · exact absurd (by rw [h]) hm
    · intro h
      refine .inl ?_
      split
      · refine List.mem_map.2 ⟨m, h, ?_⟩
        simp [hm]
      · exact h

theorem Core.land_eq (c : Core) (port : Port) (lat v : Nat) :
    ∃ ls, c.land port lat v = { c with landings := ls } ∧ ∀ m, m.port ≠ port → (m ∈ ls ↔ m ∈ c.landings) :=
  c.send_eq port lat _

end Sys2Proof.Machine
end

