-- ==== Sys2Proof/Laws/PerInstr.lean ====
section
/-! SUPPORT. Per-instruction laws: every encoded well-formed instruction decodes to itself. -/

namespace Sys2Proof.Laws.RoundTrip

/-- Decoding the word of a well-formed instruction gives the instruction back, with every operand as it was. -/
def Statement (i : Instr) : Prop :=
  ∀ c w, i.wellFormed = true → encode c i = some w → decode w = .ok i

/-- A number from runs of bits, the lowest one first: value and width. -/
def runs : List (Nat × Nat) → Nat
  | [] => 0
  | (v, w) :: l => v + 2 ^ w * runs l

/-- Every run of a number, from bit `lo` on, has its value. -/
def Reads (n : Nat) : Nat → List (Nat × Nat) → Prop
  | _, [] => True
  | lo, (v, w) :: l => n / 2 ^ lo % 2 ^ w = v ∧ Reads n (lo + w) l

/-- Every run fits its width. -/
def Fits : List (Nat × Nat) → Prop
  | [] => True
  | (v, w) :: l => v < 2 ^ w ∧ Fits l

/-- The runs of a number whose lower bits are given. -/
theorem reads_of (n : Nat) : ∀ (l : List (Nat × Nat)) (lo b : Nat), Fits l → n / 2 ^ lo % 2 ^ b = runs l →
    (l.map (·.2)).sum = b → Reads n lo l := by
  intro l
  induction l with
  | nil => intros; trivial
  | cons x l ih =>
    obtain ⟨v, w⟩ := x
    intro lo b hf hr hb
    obtain ⟨hv, hf⟩ := hf
    simp only [List.map_cons, List.sum_cons] at hb
    have hpow : 2 ^ b = 2 ^ w * 2 ^ (l.map (·.2)).sum := by rw [← Nat.pow_add, hb]
    refine ⟨?_, ih (lo + w) _ hf ?_ rfl⟩
    · have : n / 2 ^ lo % 2 ^ b % 2 ^ w = n / 2 ^ lo % 2 ^ w := Nat.mod_mod_of_dvd _ ⟨_, hpow⟩
      rw [← this, hr, runs, Nat.add_mul_mod_self_left, Nat.mod_eq_of_lt hv]
    · rw [Nat.pow_add, ← Nat.div_div_eq_div_mul]
      have h2 := Nat.mod_mul_right_div_self (n / 2 ^ lo) (2 ^ w) (2 ^ (l.map (·.2)).sum)
      rw [← hpow, hr, runs, Nat.add_mul_div_left _ _ (Nat.two_pow_pos w), Nat.div_eq_of_lt hv, Nat.zero_add] at h2
      exact h2.symm

/-- The runs of a packed word. -/
theorem pack_reads {c : Bool} {k f : Nat} {w : BitVec 32} (h : pack c k f = some w) (l : List (Nat × Nat))
    (hf : Fits l) (hr : k + f = runs l) (hs : (l.map (·.2)).sum = 31) (hlt : k + f < 2147483648) :
    Reads w.toNat 0 l := by
  apply reads_of w.toNat l 0 31 hf _ hs
  have hc := c.toNat_le
  simp only [pack, Option.some.injEq] at h
  subst h
  rw [BitVec.toNat_ofNat, ← hr]
  omega

/-- A field of a word from its run. -/
theorem fld_eq {w lo n : Nat} {v : BitVec w} (h : n / 2 ^ lo % 2 ^ w = v.toNat) : fld n lo w = v := by
  apply BitVec.eq_of_toNat_eq
  simp [fld, BitVec.toNat_ofNat, h]


theorem nop : Statement (.nop) := by
  intro c w hw h
  change pack c 0 (0) = some w at h
  obtain ⟨e0, e1, e2, -⟩ := pack_reads h [(0, 21), (0, 6), (0, 4)]
    ⟨by omega, by omega, by omega, trivial⟩ (by simp only [runs]; omega) rfl (by omega)
  unfold decode
  rw [show w.toNat / 134217728 % 16 = 0 from e2]
  change decodeControl _ = _
  unfold decodeControl
  rw [show w.toNat / 2097152 % 64 = 0 from e1]
  refine (if_pos (by simpa using e0)).trans ?_
  exact if_pos hw

theorem br (r : BitVec 1) (g : BitVec 3) (nn : BitVec 1) (d : BitVec 16) : Statement (.br r g nn d) := by
  intro c w hw h
  change pack c 2097152 (1048576 * r.toNat + 131072 * g.toNat + 65536 * nn.toNat + d.toNat) = some w at h
  have hr := r.isLt
  have hg := g.isLt
  have hnn := nn.isLt
  have hd := d.isLt
  obtain ⟨e0, e1, e2, e3, e4, e5, -⟩ := pack_reads h [(d.toNat, 16), (nn.toNat, 1), (g.toNat, 3), (r.toNat, 1), (1, 6), (0, 4)]
    ⟨by omega, by omega, by omega, by omega, by omega, by omega, trivial⟩ (by simp only [runs]; omega) rfl (by omega)
  have f_r : fld w.toNat 20 1 = r := fld_eq e3
  have f_g : fld w.toNat 17 3 = g := fld_eq e2
  have f_nn : fld w.toNat 16 1 = nn := fld_eq e1
  have f_d : fld w.toNat 0 16 = d := fld_eq e0
  unfold decode
  rw [show w.toNat / 134217728 % 16 = 0 from e5]
  change decodeControl _ = _
  unfold decodeControl
  rw [show w.toNat / 2097152 % 64 = 1 from e4]
  change accept (.br (fld _ 20 1) (fld _ 17 3) (fld _ 16 1) (fld _ 0 16)) = _
  rw [f_r, f_g, f_nn, f_d]
  exact if_pos hw

theorem jmp (r : BitVec 1) (g : BitVec 3) (nn : BitVec 1) (s : BitVec 5) : Statement (.jmp r g nn s) := by
  intro c w hw h
  change pack c 4194304 (1048576 * r.toNat + 131072 * g.toNat + 65536 * nn.toNat + s.toNat) = some w at h
  have hr := r.isLt
  have hg := g.isLt
  have hnn := nn.isLt
  have hs := s.isLt
  obtain ⟨e0, e1, e2, e3, e4, e5, e6, -⟩ := pack_reads h [(s.toNat, 5), (0, 11), (nn.toNat, 1), (g.toNat, 3), (r.toNat, 1), (2, 6), (0, 4)]
    ⟨by omega, by omega, by omega, by omega, by omega, by omega, by omega, trivial⟩ (by simp only [runs]; omega) rfl (by omega)
  have f_r : fld w.toNat 20 1 = r := fld_eq e4
  have f_g : fld w.toNat 17 3 = g := fld_eq e3
  have f_nn : fld w.toNat 16 1 = nn := fld_eq e2
  have f_s : fld w.toNat 0 5 = s := fld_eq e0
  unfold decode
  rw [show w.toNat / 134217728 % 16 = 0 from e6]
  change decodeControl _ = _
  unfold decodeControl
  rw [show w.toNat / 2097152 % 64 = 2 from e5]
  refine (if_pos e1).trans ?_
  rw [f_r, f_g, f_nn, f_s]
  exact if_pos hw

theorem callDisp (r : BitVec 1) (g : BitVec 3) (nn : BitVec 1) (d : BitVec 16) : Statement (.callDisp r g nn d) := by
  intro c w hw h
  change pack c 6291456 (1048576 * r.toNat + 131072 * g.toNat + 65536 * nn.toNat + d.toNat) = some w at h
  have hr := r.isLt
  have hg := g.isLt
  have hnn := nn.isLt
  have hd := d.isLt
  obtain ⟨e0, e1, e2, e3, e4, e5, -⟩ := pack_reads h [(d.toNat, 16), (nn.toNat, 1), (g.toNat, 3), (r.toNat, 1), (3, 6), (0, 4)]
    ⟨by omega, by omega, by omega, by omega, by omega, by omega, trivial⟩ (by simp only [runs]; omega) rfl (by omega)
  have f_r : fld w.toNat 20 1 = r := fld_eq e3
  have f_g : fld w.toNat 17 3 = g := fld_eq e2
  have f_nn : fld w.toNat 16 1 = nn := fld_eq e1
  have f_d : fld w.toNat 0 16 = d := fld_eq e0
  unfold decode
  rw [show w.toNat / 134217728 % 16 = 0 from e5]
  change decodeControl _ = _
  unfold decodeControl
  rw [show w.toNat / 2097152 % 64 = 3 from e4]
  change accept (.callDisp (fld _ 20 1) (fld _ 17 3) (fld _ 16 1) (fld _ 0 16)) = _
  rw [f_r, f_g, f_nn, f_d]
  exact if_pos hw

theorem callReg (r : BitVec 1) (g : BitVec 3) (nn : BitVec 1) (s : BitVec 5) : Statement (.callReg r g nn s) := by
  intro c w hw h
  change pack c 8388608 (1048576 * r.toNat + 131072 * g.toNat + 65536 * nn.toNat + s.toNat) = some w at h
  have hr := r.isLt
  have hg := g.isLt
  have hnn := nn.isLt
  have hs := s.isLt
  obtain ⟨e0, e1, e2, e3, e4, e5, e6, -⟩ := pack_reads h [(s.toNat, 5), (0, 11), (nn.toNat, 1), (g.toNat, 3), (r.toNat, 1), (4, 6), (0, 4)]
    ⟨by omega, by omega, by omega, by omega, by omega, by omega, by omega, trivial⟩ (by simp only [runs]; omega) rfl (by omega)
  have f_r : fld w.toNat 20 1 = r := fld_eq e4
  have f_g : fld w.toNat 17 3 = g := fld_eq e3
  have f_nn : fld w.toNat 16 1 = nn := fld_eq e2
  have f_s : fld w.toNat 0 5 = s := fld_eq e0
  unfold decode
  rw [show w.toNat / 134217728 % 16 = 0 from e6]
  change decodeControl _ = _
  unfold decodeControl
  rw [show w.toNat / 2097152 % 64 = 4 from e5]
  refine (if_pos e1).trans ?_
  rw [f_r, f_g, f_nn, f_s]
  exact if_pos hw

theorem ret (r : BitVec 1) (g : BitVec 3) (nn : BitVec 1) (s : BitVec 5) : Statement (.ret r g nn s) := by
  intro c w hw h
  change pack c 10485760 (1048576 * r.toNat + 131072 * g.toNat + 65536 * nn.toNat + s.toNat) = some w at h
  have hr := r.isLt
  have hg := g.isLt
  have hnn := nn.isLt
  have hs := s.isLt
  obtain ⟨e0, e1, e2, e3, e4, e5, e6, -⟩ := pack_reads h [(s.toNat, 5), (0, 11), (nn.toNat, 1), (g.toNat, 3), (r.toNat, 1), (5, 6), (0, 4)]
    ⟨by omega, by omega, by omega, by omega, by omega, by omega, by omega, trivial⟩ (by simp only [runs]; omega) rfl (by omega)
  have f_r : fld w.toNat 20 1 = r := fld_eq e4
  have f_g : fld w.toNat 17 3 = g := fld_eq e3
  have f_nn : fld w.toNat 16 1 = nn := fld_eq e2
  have f_s : fld w.toNat 0 5 = s := fld_eq e0
  unfold decode
  rw [show w.toNat / 134217728 % 16 = 0 from e6]
  change decodeControl _ = _
  unfold decodeControl
  rw [show w.toNat / 2097152 % 64 = 5 from e5]
  refine (if_pos e1).trans ?_
  rw [f_r, f_g, f_nn, f_s]
  exact if_pos hw

theorem brvAll (r : BitVec 1) (k : BitVec 3) (d : BitVec 16) : Statement (.brvAll r k d) := by
  intro c w hw h
  change pack c 12582912 (1048576 * r.toNat + 131072 * k.toNat + d.toNat) = some w at h
  have hr := r.isLt
  have hk := k.isLt
  have hd := d.isLt
  obtain ⟨e0, e1, e2, e3, e4, e5, -⟩ := pack_reads h [(d.toNat, 16), (0, 1), (k.toNat, 3), (r.toNat, 1), (6, 6), (0, 4)]
    ⟨by omega, by omega, by omega, by omega, by omega, by omega, trivial⟩ (by simp only [runs]; omega) rfl (by omega)
  have f_r : fld w.toNat 20 1 = r := fld_eq e3
  have f_k : fld w.toNat 17 3 = k := fld_eq e2
  have f_d : fld w.toNat 0 16 = d := fld_eq e0
  unfold decode
  rw [show w.toNat / 134217728 % 16 = 0 from e5]
  change decodeControl _ = _
  unfold decodeControl
  rw [show w.toNat / 2097152 % 64 = 6 from e4]
  rw [show w.toNat / 65536 % 2 = 0 from e1]
  change accept (.brvAll (fld _ 20 1) (fld _ 17 3) (fld _ 0 16)) = _
  rw [f_r, f_k, f_d]
  exact if_pos hw

theorem brvNone (r : BitVec 1) (k : BitVec 3) (d : BitVec 16) : Statement (.brvNone r k d) := by
  intro c w hw h
  change pack c 12648448 (1048576 * r.toNat + 131072 * k.toNat + d.toNat) = some w at h
  have hr := r.isLt
  have hk := k.isLt
  have hd := d.isLt
  obtain ⟨e0, e1, e2, e3, e4, e5, -⟩ := pack_reads h [(d.toNat, 16), (1, 1), (k.toNat, 3), (r.toNat, 1), (6, 6), (0, 4)]
    ⟨by omega, by omega, by omega, by omega, by omega, by omega, trivial⟩ (by simp only [runs]; omega) rfl (by omega)
  have f_r : fld w.toNat 20 1 = r := fld_eq e3
  have f_k : fld w.toNat 17 3 = k := fld_eq e2
  have f_d : fld w.toNat 0 16 = d := fld_eq e0
  unfold decode
  rw [show w.toNat / 134217728 % 16 = 0 from e5]
  change decodeControl _ = _
  unfold decodeControl
  rw [show w.toNat / 2097152 % 64 = 6 from e4]
  rw [show w.toNat / 65536 % 2 = 1 from e1]
  change accept (.brvNone (fld _ 20 1) (fld _ 17 3) (fld _ 0 16)) = _
  rw [f_r, f_k, f_d]
  exact if_pos hw

theorem loop (nn : BitVec 8) (l : BitVec 1) (s : BitVec 5) : Statement (.loop nn l s) := by
  intro c w hw h
  change pack c 14680064 (256 * nn.toNat + 128 * l.toNat + s.toNat) = some w at h
  have hnn := nn.isLt
  have hl := l.isLt
  have hs := s.isLt
  obtain ⟨e0, e1, e2, e3, e4, e5, e6, -⟩ := pack_reads h [(s.toNat, 5), (0, 2), (l.toNat, 1), (nn.toNat, 8), (0, 5), (7, 6), (0, 4)]
    ⟨by omega, by omega, by omega, by omega, by omega, by omega, by omega, trivial⟩ (by simp only [runs]; omega) rfl (by omega)
  have f_nn : fld w.toNat 8 8 = nn := fld_eq e3
  have f_l : fld w.toNat 7 1 = l := fld_eq e2
  have f_s : fld w.toNat 0 5 = s := fld_eq e0
  unfold decode
  rw [show w.toNat / 134217728 % 16 = 0 from e6]
  change decodeControl _ = _
  unfold decodeControl
  rw [show w.toNat / 2097152 % 64 = 7 from e5]
  refine (if_pos ⟨e4, e1⟩).trans ?_
  rw [f_nn, f_l, f_s]
  exact if_pos hw

theorem bsel (r : BitVec 1) (a : BitVec 5) (t : BitVec 11) : Statement (.bsel r a t) := by
  intro c w hw h
  change pack c 16777216 (1048576 * r.toNat + 2048 * a.toNat + t.toNat) = some w at h
  have hr := r.isLt
  have ha := a.isLt
  have ht := t.isLt
  obtain ⟨e0, e1, e2, e3, e4, e5, -⟩ := pack_reads h [(t.toNat, 11), (a.toNat, 5), (0, 4), (r.toNat, 1), (8, 6), (0, 4)]
    ⟨by omega, by omega, by omega, by omega, by omega, by omega, trivial⟩ (by simp only [runs]; omega) rfl (by omega)
  have f_r : fld w.toNat 20 1 = r := fld_eq e3
  have f_a : fld w.toNat 11 5 = a := fld_eq e1
  have f_t : fld w.toNat 0 11 = t := fld_eq e0
  unfold decode
  rw [show w.toNat / 134217728 % 16 = 0 from e5]
  change decodeControl _ = _
  unfold decodeControl
  rw [show w.toNat / 2097152 % 64 = 8 from e4]
  refine (if_pos e2).trans ?_
  rw [f_r, f_a, f_t]
  exact if_pos hw

theorem fenceL : Statement (.fenceL) := by
  intro c w hw h
  change pack c 18874368 (0) = some w at h
  obtain ⟨e0, e1, e2, -⟩ := pack_reads h [(0, 21), (9, 6), (0, 4)]
    ⟨by omega, by omega, by omega, trivial⟩ (by simp only [runs]; omega) rfl (by omega)
  unfold decode
  rw [show w.toNat / 134217728 % 16 = 0 from e2]
  change decodeControl _ = _
  unfold decodeControl
  rw [show w.toNat / 2097152 % 64 = 9 from e1]
  refine (if_pos (by simpa using e0)).trans ?_
  exact if_pos hw

theorem mfc (d : BitVec 5) (r : BitVec 11) : Statement (.mfc d r) := by
  intro c w hw h
  change pack c 134217728 (65536 * d.toNat + r.toNat) = some w at h
  have hd := d.isLt
  have hr := r.isLt
  obtain ⟨e0, e1, e2, e3, e4, -⟩ := pack_reads h [(r.toNat, 11), (0, 5), (d.toNat, 5), (0, 6), (1, 4)]
    ⟨by omega, by omega, by omega, by omega, by omega, trivial⟩ (by simp only [runs]; omega) rfl (by omega)
  have f_d : fld w.toNat 16 5 = d := fld_eq e2
  have f_r : fld w.toNat 0 11 = r := fld_eq e0
  unfold decode
  rw [show w.toNat / 134217728 % 16 = 1 from e4]
  change decodeSystem _ = _
  unfold decodeSystem
  rw [show w.toNat / 2097152 % 64 = 0 from e3]
  refine (if_pos e1).trans ?_
  rw [f_d, f_r]
  exact if_pos hw

theorem mtc (a : BitVec 5) (r : BitVec 11) : Statement (.mtc a r) := by
  intro c w hw h
  change pack c 136314880 (2048 * a.toNat + r.toNat) = some w at h
  have ha := a.isLt
  have hr := r.isLt
  obtain ⟨e0, e1, e2, e3, e4, -⟩ := pack_reads h [(r.toNat, 11), (a.toNat, 5), (0, 5), (1, 6), (1, 4)]
    ⟨by omega, by omega, by omega, by omega, by omega, trivial⟩ (by simp only [runs]; omega) rfl (by omega)
  have f_a : fld w.toNat 11 5 = a := fld_eq e1
  have f_r : fld w.toNat 0 11 = r := fld_eq e0
  unfold decode
  rw [show w.toNat / 134217728 % 16 = 1 from e4]
  change decodeSystem _ = _
  unfold decodeSystem
  rw [show w.toNat / 2097152 % 64 = 1 from e3]
  refine (if_pos e2).trans ?_
  rw [f_a, f_r]
  exact if_pos hw

theorem trap (k : BitVec 11) : Statement (.trap k) := by
  intro c w hw h
  change pack c 142606336 (k.toNat) = some w at h
  have hk := k.isLt
  obtain ⟨e0, e1, e2, e3, -⟩ := pack_reads h [(k.toNat, 11), (0, 10), (4, 6), (1, 4)]
    ⟨by omega, by omega, by omega, by omega, trivial⟩ (by simp only [runs]; omega) rfl (by omega)
  have f_k : fld w.toNat 0 11 = k := fld_eq e0
  unfold decode
  rw [show w.toNat / 134217728 % 16 = 1 from e3]
  change decodeSystem _ = _
  unfold decodeSystem
  rw [show w.toNat / 2097152 % 64 = 4 from e2]
  refine (if_pos e1).trans ?_
  rw [f_k]
  exact if_pos hw

theorem bkpt (k : BitVec 11) : Statement (.bkpt k) := by
  intro c w hw h
  change pack c 144703488 (k.toNat) = some w at h
  have hk := k.isLt
  obtain ⟨e0, e1, e2, e3, -⟩ := pack_reads h [(k.toNat, 11), (0, 10), (5, 6), (1, 4)]
    ⟨by omega, by omega, by omega, by omega, trivial⟩ (by simp only [runs]; omega) rfl (by omega)
  have f_k : fld w.toNat 0 11 = k := fld_eq e0
  unfold decode
  rw [show w.toNat / 134217728 % 16 = 1 from e3]
  change decodeSystem _ = _
  unfold decodeSystem
  rw [show w.toNat / 2097152 % 64 = 5 from e2]
  refine (if_pos e1).trans ?_
  rw [f_k]
  exact if_pos hw

theorem rett : Statement (.rett) := by
  intro c w hw h
  change pack c 146800640 (0) = some w at h
  obtain ⟨e0, e1, e2, -⟩ := pack_reads h [(0, 21), (6, 6), (1, 4)]
    ⟨by omega, by omega, by omega, trivial⟩ (by simp only [runs]; omega) rfl (by omega)
  unfold decode
  rw [show w.toNat / 134217728 % 16 = 1 from e2]
  change decodeSystem _ = _
  unfold decodeSystem
  rw [show w.toNat / 2097152 % 64 = 6 from e1]
  refine (if_pos (by simpa using e0)).trans ?_
  exact if_pos hw

theorem reth : Statement (.reth) := by
  intro c w hw h
  change pack c 148897792 (0) = some w at h
  obtain ⟨e0, e1, e2, -⟩ := pack_reads h [(0, 21), (7, 6), (1, 4)]
    ⟨by omega, by omega, by omega, trivial⟩ (by simp only [runs]; omega) rfl (by omega)
  unfold decode
  rw [show w.toNat / 134217728 % 16 = 1 from e2]
  change decodeSystem _ = _
  unfold decodeSystem
  rw [show w.toNat / 2097152 % 64 = 7 from e1]
  refine (if_pos (by simpa using e0)).trans ?_
  exact if_pos hw

theorem trapack : Statement (.trapack) := by
  intro c w hw h
  change pack c 150994944 (0) = some w at h
  obtain ⟨e0, e1, e2, -⟩ := pack_reads h [(0, 21), (8, 6), (1, 4)]
    ⟨by omega, by omega, by omega, trivial⟩ (by simp only [runs]; omega) rfl (by omega)
  unfold decode
  rw [show w.toNat / 134217728 % 16 = 1 from e2]
  change decodeSystem _ = _
  unfold decodeSystem
  rw [show w.toNat / 2097152 % 64 = 8 from e1]
  refine (if_pos (by simpa using e0)).trans ?_
  exact if_pos hw

theorem post (d : BitVec 5) (a : BitVec 5) (b : BitVec 5) (l : BitVec 5) : Statement (.post d a b l) := by
  intro c w hw h
  change pack c 167772160 (65536 * d.toNat + 2048 * a.toNat + 64 * b.toNat + 2 * l.toNat) = some w at h
  have hd := d.isLt
  have ha := a.isLt
  have hb := b.isLt
  have hl := l.isLt
  obtain ⟨e0, e1, e2, e3, e4, e5, e6, -⟩ := pack_reads h [(0, 1), (l.toNat, 5), (b.toNat, 5), (a.toNat, 5), (d.toNat, 5), (16, 6), (1, 4)]
    ⟨by omega, by omega, by omega, by omega, by omega, by omega, by omega, trivial⟩ (by simp only [runs]; omega) rfl (by omega)
  have f_d : fld w.toNat 16 5 = d := fld_eq e4
  have f_a : fld w.toNat 11 5 = a := fld_eq e3
  have f_b : fld w.toNat 6 5 = b := fld_eq e2
  have f_l : fld w.toNat 1 5 = l := fld_eq e1
  unfold decode
  rw [show w.toNat / 134217728 % 16 = 1 from e6]
  change decodeSystem _ = _
  unfold decodeSystem
  rw [show w.toNat / 2097152 % 64 = 16 from e5]
  refine (if_pos (by simpa using e0)).trans ?_
  rw [f_d, f_a, f_b, f_l]
  exact if_pos hw

theorem postn (d : BitVec 5) (a : BitVec 5) (b : BitVec 5) (l : BitVec 5) : Statement (.postn d a b l) := by
  intro c w hw h
  change pack c 169869312 (65536 * d.toNat + 2048 * a.toNat + 64 * b.toNat + 2 * l.toNat) = some w at h
  have hd := d.isLt
  have ha := a.isLt
  have hb := b.isLt
  have hl := l.isLt
  obtain ⟨e0, e1, e2, e3, e4, e5, e6, -⟩ := pack_reads h [(0, 1), (l.toNat, 5), (b.toNat, 5), (a.toNat, 5), (d.toNat, 5), (17, 6), (1, 4)]
    ⟨by omega, by omega, by omega, by omega, by omega, by omega, by omega, trivial⟩ (by simp only [runs]; omega) rfl (by omega)
  have f_d : fld w.toNat 16 5 = d := fld_eq e4
  have f_a : fld w.toNat 11 5 = a := fld_eq e3
  have f_b : fld w.toNat 6 5 = b := fld_eq e2
  have f_l : fld w.toNat 1 5 = l := fld_eq e1
  unfold decode
  rw [show w.toNat / 134217728 % 16 = 1 from e6]
  change decodeSystem _ = _
  unfold decodeSystem
  rw [show w.toNat / 2097152 % 64 = 17 from e5]
  refine (if_pos (by simpa using e0)).trans ?_
  rw [f_d, f_a, f_b, f_l]
  exact if_pos hw

theorem susp : Statement (.susp) := by
  intro c w hw h
  change pack c 171966464 (0) = some w at h
  obtain ⟨e0, e1, e2, -⟩ := pack_reads h [(0, 21), (18, 6), (1, 4)]
    ⟨by omega, by omega, by omega, trivial⟩ (by simp only [runs]; omega) rfl (by omega)
  unfold decode
  rw [show w.toNat / 134217728 % 16 = 1 from e2]
  change decodeSystem _ = _
  unfold decodeSystem
  rw [show w.toNat / 2097152 % 64 = 18 from e1]
  refine (if_pos (by simpa using e0)).trans ?_
  exact if_pos hw

theorem pinM : Statement (.pinM) := by
  intro c w hw h
  change pack c 174063616 (0) = some w at h
  obtain ⟨e0, e1, e2, e3, -⟩ := pack_reads h [(0, 11), (0, 10), (19, 6), (1, 4)]
    ⟨by omega, by omega, by omega, by omega, trivial⟩ (by simp only [runs]; omega) rfl (by omega)
  unfold decode
  rw [show w.toNat / 134217728 % 16 = 1 from e3]
  change decodeSystem _ = _
  unfold decodeSystem
  rw [show w.toNat / 2097152 % 64 = 19 from e2]
  rw [show w.toNat % 2048 = 0 from (by simpa using e0)]
  refine (if_pos e1).trans ?_
  exact if_pos hw

theorem pinQ (a : BitVec 5) : Statement (.pinQ a) := by
  intro c w hw h
  change pack c 174063617 (2048 * a.toNat) = some w at h
  have ha := a.isLt
  obtain ⟨e0, e1, e2, e3, e4, -⟩ := pack_reads h [(1, 11), (a.toNat, 5), (0, 5), (19, 6), (1, 4)]
    ⟨by omega, by omega, by omega, by omega, by omega, trivial⟩ (by simp only [runs]; omega) rfl (by omega)
  have f_a : fld w.toNat 11 5 = a := fld_eq e1
  unfold decode
  rw [show w.toNat / 134217728 % 16 = 1 from e4]
  change decodeSystem _ = _
  unfold decodeSystem
  rw [show w.toNat / 2097152 % 64 = 19 from e3]
  rw [show w.toNat % 2048 = 1 from (by simpa using e0)]
  refine (if_pos e2).trans ?_
  rw [f_a]
  exact if_pos hw

theorem pinB (d : BitVec 5) (a : BitVec 5) : Statement (.pinB d a) := by
  intro c w hw h
  change pack c 174063618 (65536 * d.toNat + 2048 * a.toNat) = some w at h
  have hd := d.isLt
  have ha := a.isLt
  obtain ⟨e0, e1, e2, e3, e4, -⟩ := pack_reads h [(2, 11), (a.toNat, 5), (d.toNat, 5), (19, 6), (1, 4)]
    ⟨by omega, by omega, by omega, by omega, by omega, trivial⟩ (by simp only [runs]; omega) rfl (by omega)
  have f_d : fld w.toNat 16 5 = d := fld_eq e2
  have f_a : fld w.toNat 11 5 = a := fld_eq e1
  unfold decode
  rw [show w.toNat / 134217728 % 16 = 1 from e4]
  change decodeSystem _ = _
  unfold decodeSystem
  rw [show w.toNat / 2097152 % 64 = 19 from e3]
  rw [show w.toNat % 2048 = 2 from (by simpa using e0)]
  change accept (.pinB (fld _ 16 5) (fld _ 11 5)) = _
  rw [f_d, f_a]
  exact if_pos hw

theorem pinT (a : BitVec 5) : Statement (.pinT a) := by
  intro c w hw h
  change pack c 174063619 (2048 * a.toNat) = some w at h
  have ha := a.isLt
  obtain ⟨e0, e1, e2, e3, e4, -⟩ := pack_reads h [(3, 11), (a.toNat, 5), (0, 5), (19, 6), (1, 4)]
    ⟨by omega, by omega, by omega, by omega, by omega, trivial⟩ (by simp only [runs]; omega) rfl (by omega)
  have f_a : fld w.toNat 11 5 = a := fld_eq e1
  unfold decode
  rw [show w.toNat / 134217728 % 16 = 1 from e4]
  change decodeSystem _ = _
  unfold decodeSystem
  rw [show w.toNat / 2097152 % 64 = 19 from e3]
  rw [show w.toNat % 2048 = 3 from (by simpa using e0)]
  refine (if_pos e2).trans ?_
  rw [f_a]
  exact if_pos hw

theorem endStrand : Statement (.endStrand) := by
  intro c w hw h
  change pack c 176160768 (0) = some w at h
  obtain ⟨e0, e1, e2, -⟩ := pack_reads h [(0, 21), (20, 6), (1, 4)]
    ⟨by omega, by omega, by omega, trivial⟩ (by simp only [runs]; omega) rfl (by omega)
  unfold decode
  rw [show w.toNat / 134217728 % 16 = 1 from e2]
  change decodeSystem _ = _
  unfold decodeSystem
  rw [show w.toNat / 2097152 % 64 = 20 from e1]
  refine (if_pos (by simpa using e0)).trans ?_
  exact if_pos hw

theorem gnew (d : BitVec 5) (a : BitVec 5) (l : BitVec 5) : Statement (.gnew d a l) := by
  intro c w hw h
  change pack c 184549376 (65536 * d.toNat + 2048 * a.toNat + 2 * l.toNat) = some w at h
  have hd := d.isLt
  have ha := a.isLt
  have hl := l.isLt
  obtain ⟨e0, e1, e2, e3, e4, e5, e6, -⟩ := pack_reads h [(0, 1), (l.toNat, 5), (0, 5), (a.toNat, 5), (d.toNat, 5), (24, 6), (1, 4)]
    ⟨by omega, by omega, by omega, by omega, by omega, by omega, by omega, trivial⟩ (by simp only [runs]; omega) rfl (by omega)
  have f_d : fld w.toNat 16 5 = d := fld_eq e4
  have f_a : fld w.toNat 11 5 = a := fld_eq e3
  have f_l : fld w.toNat 1 5 = l := fld_eq e1
  unfold decode
  rw [show w.toNat / 134217728 % 16 = 1 from e6]
  change decodeSystem _ = _
  unfold decodeSystem
  rw [show w.toNat / 2097152 % 64 = 24 from e5]
  refine (if_pos ⟨e2, (by simpa using e0)⟩).trans ?_
  rw [f_d, f_a, f_l]
  exact if_pos hw

theorem gjoin (d : BitVec 5) (a : BitVec 5) (l : BitVec 5) : Statement (.gjoin d a l) := by
  intro c w hw h
  change pack c 186646528 (65536 * d.toNat + 2048 * a.toNat + 2 * l.toNat) = some w at h
  have hd := d.isLt
  have ha := a.isLt
  have hl := l.isLt
  obtain ⟨e0, e1, e2, e3, e4, e5, e6, -⟩ := pack_reads h [(0, 1), (l.toNat, 5), (0, 5), (a.toNat, 5), (d.toNat, 5), (25, 6), (1, 4)]
    ⟨by omega, by omega, by omega, by omega, by omega, by omega, by omega, trivial⟩ (by simp only [runs]; omega) rfl (by omega)
  have f_d : fld w.toNat 16 5 = d := fld_eq e4
  have f_a : fld w.toNat 11 5 = a := fld_eq e3
  have f_l : fld w.toNat 1 5 = l := fld_eq e1
  unfold decode
  rw [show w.toNat / 134217728 % 16 = 1 from e6]
  change decodeSystem _ = _
  unfold decodeSystem
  rw [show w.toNat / 2097152 % 64 = 25 from e5]
  refine (if_pos ⟨e2, (by simpa using e0)⟩).trans ?_
  rw [f_d, f_a, f_l]
  exact if_pos hw

theorem gleave (d : BitVec 5) (a : BitVec 5) (l : BitVec 5) : Statement (.gleave d a l) := by
  intro c w hw h
  change pack c 188743680 (65536 * d.toNat + 2048 * a.toNat + 2 * l.toNat) = some w at h
  have hd := d.isLt
  have ha := a.isLt
  have hl := l.isLt
  obtain ⟨e0, e1, e2, e3, e4, e5, e6, -⟩ := pack_reads h [(0, 1), (l.toNat, 5), (0, 5), (a.toNat, 5), (d.toNat, 5), (26, 6), (1, 4)]
    ⟨by omega, by omega, by omega, by omega, by omega, by omega, by omega, trivial⟩ (by simp only [runs]; omega) rfl (by omega)
  have f_d : fld w.toNat 16 5 = d := fld_eq e4
  have f_a : fld w.toNat 11 5 = a := fld_eq e3
  have f_l : fld w.toNat 1 5 = l := fld_eq e1
  unfold decode
  rw [show w.toNat / 134217728 % 16 = 1 from e6]
  change decodeSystem _ = _
  unfold decodeSystem
  rw [show w.toNat / 2097152 % 64 = 26 from e5]
  refine (if_pos ⟨e2, (by simpa using e0)⟩).trans ?_
  rw [f_d, f_a, f_l]
  exact if_pos hw

theorem gfree (d : BitVec 5) (a : BitVec 5) (l : BitVec 5) : Statement (.gfree d a l) := by
  intro c w hw h
  change pack c 190840832 (65536 * d.toNat + 2048 * a.toNat + 2 * l.toNat) = some w at h
  have hd := d.isLt
  have ha := a.isLt
  have hl := l.isLt
  obtain ⟨e0, e1, e2, e3, e4, e5, e6, -⟩ := pack_reads h [(0, 1), (l.toNat, 5), (0, 5), (a.toNat, 5), (d.toNat, 5), (27, 6), (1, 4)]
    ⟨by omega, by omega, by omega, by omega, by omega, by omega, by omega, trivial⟩ (by simp only [runs]; omega) rfl (by omega)
  have f_d : fld w.toNat 16 5 = d := fld_eq e4
  have f_a : fld w.toNat 11 5 = a := fld_eq e3
  have f_l : fld w.toNat 1 5 = l := fld_eq e1
  unfold decode
  rw [show w.toNat / 134217728 % 16 = 1 from e6]
  change decodeSystem _ = _
  unfold decodeSystem
  rw [show w.toNat / 2097152 % 64 = 27 from e5]
  refine (if_pos ⟨e2, (by simpa using e0)⟩).trans ?_
  rw [f_d, f_a, f_l]
  exact if_pos hw

theorem ginfo (d : BitVec 5) (a : BitVec 5) (l : BitVec 5) : Statement (.ginfo d a l) := by
  intro c w hw h
  change pack c 192937984 (65536 * d.toNat + 2048 * a.toNat + 2 * l.toNat) = some w at h
  have hd := d.isLt
  have ha := a.isLt
  have hl := l.isLt
  obtain ⟨e0, e1, e2, e3, e4, e5, e6, -⟩ := pack_reads h [(0, 1), (l.toNat, 5), (0, 5), (a.toNat, 5), (d.toNat, 5), (28, 6), (1, 4)]
    ⟨by omega, by omega, by omega, by omega, by omega, by omega, by omega, trivial⟩ (by simp only [runs]; omega) rfl (by omega)
  have f_d : fld w.toNat 16 5 = d := fld_eq e4
  have f_a : fld w.toNat 11 5 = a := fld_eq e3
  have f_l : fld w.toNat 1 5 = l := fld_eq e1
  unfold decode
  rw [show w.toNat / 134217728 % 16 = 1 from e6]
  change decodeSystem _ = _
  unfold decodeSystem
  rw [show w.toNat / 2097152 % 64 = 28 from e5]
  refine (if_pos ⟨e2, (by simpa using e0)⟩).trans ?_
  rw [f_d, f_a, f_l]
  exact if_pos hw

theorem dgst (d : BitVec 5) (a : BitVec 5) (l : BitVec 5) : Statement (.dgst d a l) := by
  intro c w hw h
  change pack c 195035136 (65536 * d.toNat + 2048 * a.toNat + 2 * l.toNat) = some w at h
  have hd := d.isLt
  have ha := a.isLt
  have hl := l.isLt
  obtain ⟨e0, e1, e2, e3, e4, e5, e6, -⟩ := pack_reads h [(0, 1), (l.toNat, 5), (0, 5), (a.toNat, 5), (d.toNat, 5), (29, 6), (1, 4)]
    ⟨by omega, by omega, by omega, by omega, by omega, by omega, by omega, trivial⟩ (by simp only [runs]; omega) rfl (by omega)
  have f_d : fld w.toNat 16 5 = d := fld_eq e4
  have f_a : fld w.toNat 11 5 = a := fld_eq e3
  have f_l : fld w.toNat 1 5 = l := fld_eq e1
  unfold decode
  rw [show w.toNat / 134217728 % 16 = 1 from e6]
  change decodeSystem _ = _
  unfold decodeSystem
  rw [show w.toNat / 2097152 % 64 = 29 from e5]
  refine (if_pos ⟨e2, (by simpa using e0)⟩).trans ?_
  rw [f_d, f_a, f_l]
  exact if_pos hw

theorem traceW (a : BitVec 5) : Statement (.traceW a) := by
  intro c w hw h
  change pack c 201326592 (2048 * a.toNat) = some w at h
  have ha := a.isLt
  obtain ⟨e0, e1, e2, e3, e4, -⟩ := pack_reads h [(0, 11), (a.toNat, 5), (0, 5), (32, 6), (1, 4)]
    ⟨by omega, by omega, by omega, by omega, by omega, trivial⟩ (by simp only [runs]; omega) rfl (by omega)
  have f_a : fld w.toNat 11 5 = a := fld_eq e1
  unfold decode
  rw [show w.toNat / 134217728 % 16 = 1 from e4]
  change decodeSystem _ = _
  unfold decodeSystem
  rw [show w.toNat / 2097152 % 64 = 32 from e3]
  rw [show w.toNat % 2048 = 0 from (by simpa using e0)]
  refine (if_pos e2).trans ?_
  rw [f_a]
  exact if_pos hw

theorem traceR (d : BitVec 5) (a : BitVec 5) : Statement (.traceR d a) := by
  intro c w hw h
  change pack c 201326593 (65536 * d.toNat + 2048 * a.toNat) = some w at h
  have hd := d.isLt
  have ha := a.isLt
  obtain ⟨e0, e1, e2, e3, e4, -⟩ := pack_reads h [(1, 11), (a.toNat, 5), (d.toNat, 5), (32, 6), (1, 4)]
    ⟨by omega, by omega, by omega, by omega, by omega, trivial⟩ (by simp only [runs]; omega) rfl (by omega)
  have f_d : fld w.toNat 16 5 = d := fld_eq e2
  have f_a : fld w.toNat 11 5 = a := fld_eq e1
  unfold decode
  rw [show w.toNat / 134217728 % 16 = 1 from e4]
  change decodeSystem _ = _
  unfold decodeSystem
  rw [show w.toNat / 2097152 % 64 = 32 from e3]
  rw [show w.toNat % 2048 = 1 from (by simpa using e0)]
  change accept (.traceR (fld _ 16 5) (fld _ 11 5)) = _
  rw [f_d, f_a]
  exact if_pos hw

theorem trigFire : Statement (.trigFire) := by
  intro c w hw h
  change pack c 203423744 (0) = some w at h
  obtain ⟨e0, e1, e2, -⟩ := pack_reads h [(0, 21), (33, 6), (1, 4)]
    ⟨by omega, by omega, by omega, trivial⟩ (by simp only [runs]; omega) rfl (by omega)
  unfold decode
  rw [show w.toNat / 134217728 % 16 = 1 from e2]
  change decodeSystem _ = _
  unfold decodeSystem
  rw [show w.toNat / 2097152 % 64 = 33 from e1]
  rw [show w.toNat % 2097152 = 0 from (by simpa using e0)]
  exact if_pos hw

theorem trigRearm : Statement (.trigRearm) := by
  intro c w hw h
  change pack c 203423745 (0) = some w at h
  obtain ⟨e0, e1, e2, -⟩ := pack_reads h [(1, 21), (33, 6), (1, 4)]
    ⟨by omega, by omega, by omega, trivial⟩ (by simp only [runs]; omega) rfl (by omega)
  unfold decode
  rw [show w.toNat / 134217728 % 16 = 1 from e2]
  change decodeSystem _ = _
  unfold decodeSystem
  rw [show w.toNat / 2097152 % 64 = 33 from e1]
  rw [show w.toNat % 2097152 = 1 from (by simpa using e0)]
  exact if_pos hw

theorem addSr (d : BitVec 5) (a : BitVec 5) (b : BitVec 5) (g : BitVec 3) : Statement (.addSr d a b g) := by
  intro c w hw h
  change pack c 268435456 (32768 * d.toNat + 1024 * a.toNat + 32 * b.toNat + 4 * g.toNat) = some w at h
  have hd := d.isLt
  have ha := a.isLt
  have hb := b.isLt
  have hg := g.isLt
  obtain ⟨e0, e1, e2, e3, e4, e5, e6, -⟩ := pack_reads h [(0, 2), (g.toNat, 3), (b.toNat, 5), (a.toNat, 5), (d.toNat, 5), (0, 7), (2, 4)]
    ⟨by omega, by omega, by omega, by omega, by omega, by omega, by omega, trivial⟩ (by simp only [runs]; omega) rfl (by omega)
  have f_d : fld w.toNat 15 5 = d := fld_eq e4
  have f_a : fld w.toNat 10 5 = a := fld_eq e3
  have f_b : fld w.toNat 5 5 = b := fld_eq e2
  have f_g : fld w.toNat 2 3 = g := fld_eq e1
  unfold decode
  rw [show w.toNat / 134217728 % 16 = 2 from e6]
  change decodeScalarReg _ = _
  unfold decodeScalarReg
  rw [show w.toNat / 1048576 % 128 = 0 from e5]
  refine (if_pos (by simpa using e0)).trans ?_
  rw [f_d, f_a, f_b, f_g]
  exact if_pos hw

theorem addSi (d : BitVec 5) (a : BitVec 5) (i : BitVec 10) : Statement (.addSi d a i) := by
  intro c w hw h
  change pack c 402653184 (32768 * d.toNat + 1024 * a.toNat + i.toNat) = some w at h
  have hd := d.isLt
  have ha := a.isLt
  have hi := i.isLt
  obtain ⟨e0, e1, e2, e3, e4, -⟩ := pack_reads h [(i.toNat, 10), (a.toNat, 5), (d.toNat, 5), (0, 7), (3, 4)]
    ⟨by omega, by omega, by omega, by omega, by omega, trivial⟩ (by simp only [runs]; omega) rfl (by omega)
  have f_d : fld w.toNat 15 5 = d := fld_eq e2
  have f_a : fld w.toNat 10 5 = a := fld_eq e1
  have f_i : fld w.toNat 0 10 = i := fld_eq e0
  unfold decode
  rw [show w.toNat / 134217728 % 16 = 3 from e4]
  change decodeScalarImm _ = _
  unfold decodeScalarImm
  rw [show w.toNat / 1048576 % 128 = 0 from e3]
  change accept (.addSi (fld _ 15 5) (fld _ 10 5) (fld _ 0 10)) = _
  rw [f_d, f_a, f_i]
  exact if_pos hw

theorem subSr (d : BitVec 5) (a : BitVec 5) (b : BitVec 5) (g : BitVec 3) : Statement (.subSr d a b g) := by
  intro c w hw h
  change pack c 269484032 (32768 * d.toNat + 1024 * a.toNat + 32 * b.toNat + 4 * g.toNat) = some w at h
  have hd := d.isLt
  have ha := a.isLt
  have hb := b.isLt
  have hg := g.isLt
  obtain ⟨e0, e1, e2, e3, e4, e5, e6, -⟩ := pack_reads h [(0, 2), (g.toNat, 3), (b.toNat, 5), (a.toNat, 5), (d.toNat, 5), (1, 7), (2, 4)]
    ⟨by omega, by omega, by omega, by omega, by omega, by omega, by omega, trivial⟩ (by simp only [runs]; omega) rfl (by omega)
  have f_d : fld w.toNat 15 5 = d := fld_eq e4
  have f_a : fld w.toNat 10 5 = a := fld_eq e3
  have f_b : fld w.toNat 5 5 = b := fld_eq e2
  have f_g : fld w.toNat 2 3 = g := fld_eq e1
  unfold decode
  rw [show w.toNat / 134217728 % 16 = 2 from e6]
  change decodeScalarReg _ = _
  unfold decodeScalarReg
  rw [show w.toNat / 1048576 % 128 = 1 from e5]
  refine (if_pos (by simpa using e0)).trans ?_
  rw [f_d, f_a, f_b, f_g]
  exact if_pos hw

theorem subSi (d : BitVec 5) (a : BitVec 5) (i : BitVec 10) : Statement (.subSi d a i) := by
  intro c w hw h
  change pack c 403701760 (32768 * d.toNat + 1024 * a.toNat + i.toNat) = some w at h
  have hd := d.isLt
  have ha := a.isLt
  have hi := i.isLt
  obtain ⟨e0, e1, e2, e3, e4, -⟩ := pack_reads h [(i.toNat, 10), (a.toNat, 5), (d.toNat, 5), (1, 7), (3, 4)]
    ⟨by omega, by omega, by omega, by omega, by omega, trivial⟩ (by simp only [runs]; omega) rfl (by omega)
  have f_d : fld w.toNat 15 5 = d := fld_eq e2
  have f_a : fld w.toNat 10 5 = a := fld_eq e1
  have f_i : fld w.toNat 0 10 = i := fld_eq e0
  unfold decode
  rw [show w.toNat / 134217728 % 16 = 3 from e4]
  change decodeScalarImm _ = _
  unfold decodeScalarImm
  rw [show w.toNat / 1048576 % 128 = 1 from e3]
  change accept (.subSi (fld _ 15 5) (fld _ 10 5) (fld _ 0 10)) = _
  rw [f_d, f_a, f_i]
  exact if_pos hw

theorem andSr (d : BitVec 5) (a : BitVec 5) (b : BitVec 5) (g : BitVec 3) : Statement (.andSr d a b g) := by
  intro c w hw h
  change pack c 270532608 (32768 * d.toNat + 1024 * a.toNat + 32 * b.toNat + 4 * g.toNat) = some w at h
  have hd := d.isLt
  have ha := a.isLt
  have hb := b.isLt
  have hg := g.isLt
  obtain ⟨e0, e1, e2, e3, e4, e5, e6, -⟩ := pack_reads h [(0, 2), (g.toNat, 3), (b.toNat, 5), (a.toNat, 5), (d.toNat, 5), (2, 7), (2, 4)]
    ⟨by omega, by omega, by omega, by omega, by omega, by omega, by omega, trivial⟩ (by simp only [runs]; omega) rfl (by omega)
  have f_d : fld w.toNat 15 5 = d := fld_eq e4
  have f_a : fld w.toNat 10 5 = a := fld_eq e3
  have f_b : fld w.toNat 5 5 = b := fld_eq e2
  have f_g : fld w.toNat 2 3 = g := fld_eq e1
  unfold decode
  rw [show w.toNat / 134217728 % 16 = 2 from e6]
  change decodeScalarReg _ = _
  unfold decodeScalarReg
  rw [show w.toNat / 1048576 % 128 = 2 from e5]
  refine (if_pos (by simpa using e0)).trans ?_
  rw [f_d, f_a, f_b, f_g]
  exact if_pos hw

theorem andSi (d : BitVec 5) (a : BitVec 5) (i : BitVec 10) : Statement (.andSi d a i) := by
  intro c w hw h
  change pack c 404750336 (32768 * d.toNat + 1024 * a.toNat + i.toNat) = some w at h
  have hd := d.isLt
  have ha := a.isLt
  have hi := i.isLt
  obtain ⟨e0, e1, e2, e3, e4, -⟩ := pack_reads h [(i.toNat, 10), (a.toNat, 5), (d.toNat, 5), (2, 7), (3, 4)]
    ⟨by omega, by omega, by omega, by omega, by omega, trivial⟩ (by simp only [runs]; omega) rfl (by omega)
  have f_d : fld w.toNat 15 5 = d := fld_eq e2
  have f_a : fld w.toNat 10 5 = a := fld_eq e1
  have f_i : fld w.toNat 0 10 = i := fld_eq e0
  unfold decode
  rw [show w.toNat / 134217728 % 16 = 3 from e4]
  change decodeScalarImm _ = _
  unfold decodeScalarImm
  rw [show w.toNat / 1048576 % 128 = 2 from e3]
  change accept (.andSi (fld _ 15 5) (fld _ 10 5) (fld _ 0 10)) = _
  rw [f_d, f_a, f_i]
  exact if_pos hw

theorem orSr (d : BitVec 5) (a : BitVec 5) (b : BitVec 5) (g : BitVec 3) : Statement (.orSr d a b g) := by
  intro c w hw h
  change pack c 271581184 (32768 * d.toNat + 1024 * a.toNat + 32 * b.toNat + 4 * g.toNat) = some w at h
  have hd := d.isLt
  have ha := a.isLt
  have hb := b.isLt
  have hg := g.isLt
  obtain ⟨e0, e1, e2, e3, e4, e5, e6, -⟩ := pack_reads h [(0, 2), (g.toNat, 3), (b.toNat, 5), (a.toNat, 5), (d.toNat, 5), (3, 7), (2, 4)]
    ⟨by omega, by omega, by omega, by omega, by omega, by omega, by omega, trivial⟩ (by simp only [runs]; omega) rfl (by omega)
  have f_d : fld w.toNat 15 5 = d := fld_eq e4
  have f_a : fld w.toNat 10 5 = a := fld_eq e3
  have f_b : fld w.toNat 5 5 = b := fld_eq e2
  have f_g : fld w.toNat 2 3 = g := fld_eq e1
  unfold decode
  rw [show w.toNat / 134217728 % 16 = 2 from e6]
  change decodeScalarReg _ = _
  unfold decodeScalarReg
  rw [show w.toNat / 1048576 % 128 = 3 from e5]
  refine (if_pos (by simpa using e0)).trans ?_
  rw [f_d, f_a, f_b, f_g]
  exact if_pos hw

theorem orSi (d : BitVec 5) (a : BitVec 5) (i : BitVec 10) : Statement (.orSi d a i) := by
  intro c w hw h
  change pack c 405798912 (32768 * d.toNat + 1024 * a.toNat + i.toNat) = some w at h
  have hd := d.isLt
  have ha := a.isLt
  have hi := i.isLt
  obtain ⟨e0, e1, e2, e3, e4, -⟩ := pack_reads h [(i.toNat, 10), (a.toNat, 5), (d.toNat, 5), (3, 7), (3, 4)]
    ⟨by omega, by omega, by omega, by omega, by omega, trivial⟩ (by simp only [runs]; omega) rfl (by omega)
  have f_d : fld w.toNat 15 5 = d := fld_eq e2
  have f_a : fld w.toNat 10 5 = a := fld_eq e1
  have f_i : fld w.toNat 0 10 = i := fld_eq e0
  unfold decode
  rw [show w.toNat / 134217728 % 16 = 3 from e4]
  change decodeScalarImm _ = _
  unfold decodeScalarImm
  rw [show w.toNat / 1048576 % 128 = 3 from e3]
  change accept (.orSi (fld _ 15 5) (fld _ 10 5) (fld _ 0 10)) = _
  rw [f_d, f_a, f_i]
  exact if_pos hw

theorem xorSr (d : BitVec 5) (a : BitVec 5) (b : BitVec 5) (g : BitVec 3) : Statement (.xorSr d a b g) := by
  intro c w hw h
  change pack c 272629760 (32768 * d.toNat + 1024 * a.toNat + 32 * b.toNat + 4 * g.toNat) = some w at h
  have hd := d.isLt
  have ha := a.isLt
  have hb := b.isLt
  have hg := g.isLt
  obtain ⟨e0, e1, e2, e3, e4, e5, e6, -⟩ := pack_reads h [(0, 2), (g.toNat, 3), (b.toNat, 5), (a.toNat, 5), (d.toNat, 5), (4, 7), (2, 4)]
    ⟨by omega, by omega, by omega, by omega, by omega, by omega, by omega, trivial⟩ (by simp only [runs]; omega) rfl (by omega)
  have f_d : fld w.toNat 15 5 = d := fld_eq e4
  have f_a : fld w.toNat 10 5 = a := fld_eq e3
  have f_b : fld w.toNat 5 5 = b := fld_eq e2
  have f_g : fld w.toNat 2 3 = g := fld_eq e1
  unfold decode
  rw [show w.toNat / 134217728 % 16 = 2 from e6]
  change decodeScalarReg _ = _
  unfold decodeScalarReg
  rw [show w.toNat / 1048576 % 128 = 4 from e5]
  refine (if_pos (by simpa using e0)).trans ?_
  rw [f_d, f_a, f_b, f_g]
  exact if_pos hw

theorem xorSi (d : BitVec 5) (a : BitVec 5) (i : BitVec 10) : Statement (.xorSi d a i) := by
  intro c w hw h
  change pack c 406847488 (32768 * d.toNat + 1024 * a.toNat + i.toNat) = some w at h
  have hd := d.isLt
  have ha := a.isLt
  have hi := i.isLt
  obtain ⟨e0, e1, e2, e3, e4, -⟩ := pack_reads h [(i.toNat, 10), (a.toNat, 5), (d.toNat, 5), (4, 7), (3, 4)]
    ⟨by omega, by omega, by omega, by omega, by omega, trivial⟩ (by simp only [runs]; omega) rfl (by omega)
  have f_d : fld w.toNat 15 5 = d := fld_eq e2
  have f_a : fld w.toNat 10 5 = a := fld_eq e1
  have f_i : fld w.toNat 0 10 = i := fld_eq e0
  unfold decode
  rw [show w.toNat / 134217728 % 16 = 3 from e4]
  change decodeScalarImm _ = _
  unfold decodeScalarImm
  rw [show w.toNat / 1048576 % 128 = 4 from e3]
  change accept (.xorSi (fld _ 15 5) (fld _ 10 5) (fld _ 0 10)) = _
  rw [f_d, f_a, f_i]
  exact if_pos hw

theorem andnSr (d : BitVec 5) (a : BitVec 5) (b : BitVec 5) (g : BitVec 3) : Statement (.andnSr d a b g) := by
  intro c w hw h
  change pack c 273678336 (32768 * d.toNat + 1024 * a.toNat + 32 * b.toNat + 4 * g.toNat) = some w at h
  have hd := d.isLt
  have ha := a.isLt
  have hb := b.isLt
  have hg := g.isLt
  obtain ⟨e0, e1, e2, e3, e4, e5, e6, -⟩ := pack_reads h [(0, 2), (g.toNat, 3), (b.toNat, 5), (a.toNat, 5), (d.toNat, 5), (5, 7), (2, 4)]
    ⟨by omega, by omega, by omega, by omega, by omega, by omega, by omega, trivial⟩ (by simp only [runs]; omega) rfl (by omega)
  have f_d : fld w.toNat 15 5 = d := fld_eq e4
  have f_a : fld w.toNat 10 5 = a := fld_eq e3
  have f_b : fld w.toNat 5 5 = b := fld_eq e2
  have f_g : fld w.toNat 2 3 = g := fld_eq e1
  unfold decode
  rw [show w.toNat / 134217728 % 16 = 2 from e6]
  change decodeScalarReg _ = _
  unfold decodeScalarReg
  rw [show w.toNat / 1048576 % 128 = 5 from e5]
  refine (if_pos (by simpa using e0)).trans ?_
  rw [f_d, f_a, f_b, f_g]
  exact if_pos hw

theorem andnSi (d : BitVec 5) (a : BitVec 5) (i : BitVec 10) : Statement (.andnSi d a i) := by
  intro c w hw h
  change pack c 407896064 (32768 * d.toNat + 1024 * a.toNat + i.toNat) = some w at h
  have hd := d.isLt
  have ha := a.isLt
  have hi := i.isLt
  obtain ⟨e0, e1, e2, e3, e4, -⟩ := pack_reads h [(i.toNat, 10), (a.toNat, 5), (d.toNat, 5), (5, 7), (3, 4)]
    ⟨by omega, by omega, by omega, by omega, by omega, trivial⟩ (by simp only [runs]; omega) rfl (by omega)
  have f_d : fld w.toNat 15 5 = d := fld_eq e2
  have f_a : fld w.toNat 10 5 = a := fld_eq e1
  have f_i : fld w.toNat 0 10 = i := fld_eq e0
  unfold decode
  rw [show w.toNat / 134217728 % 16 = 3 from e4]
  change decodeScalarImm _ = _
  unfold decodeScalarImm
  rw [show w.toNat / 1048576 % 128 = 5 from e3]
  change accept (.andnSi (fld _ 15 5) (fld _ 10 5) (fld _ 0 10)) = _
  rw [f_d, f_a, f_i]
  exact if_pos hw

theorem shlSr (d : BitVec 5) (a : BitVec 5) (b : BitVec 5) (g : BitVec 3) : Statement (.shlSr d a b g) := by
  intro c w hw h
  change pack c 274726912 (32768 * d.toNat + 1024 * a.toNat + 32 * b.toNat + 4 * g.toNat) = some w at h
  have hd := d.isLt
  have ha := a.isLt
  have hb := b.isLt
  have hg := g.isLt
  obtain ⟨e0, e1, e2, e3, e4, e5, e6, -⟩ := pack_reads h [(0, 2), (g.toNat, 3), (b.toNat, 5), (a.toNat, 5), (d.toNat, 5), (6, 7), (2, 4)]
    ⟨by omega, by omega, by omega, by omega, by omega, by omega, by omega, trivial⟩ (by simp only [runs]; omega) rfl (by omega)
  have f_d : fld w.toNat 15 5 = d := fld_eq e4
  have f_a : fld w.toNat 10 5 = a := fld_eq e3
  have f_b : fld w.toNat 5 5 = b := fld_eq e2
  have f_g : fld w.toNat 2 3 = g := fld_eq e1
  unfold decode
  rw [show w.toNat / 134217728 % 16 = 2 from e6]
  change decodeScalarReg _ = _
  unfold decodeScalarReg
  rw [show w.toNat / 1048576 % 128 = 6 from e5]
  refine (if_pos (by simpa using e0)).trans ?_
  rw [f_d, f_a, f_b, f_g]
  exact if_pos hw

theorem shlSi (d : BitVec 5) (a : BitVec 5) (i : BitVec 10) : Statement (.shlSi d a i) := by
  intro c w hw h
  change pack c 408944640 (32768 * d.toNat + 1024 * a.toNat + i.toNat) = some w at h
  have hd := d.isLt
  have ha := a.isLt
  have hi := i.isLt
  obtain ⟨e0, e1, e2, e3, e4, -⟩ := pack_reads h [(i.toNat, 10), (a.toNat, 5), (d.toNat, 5), (6, 7), (3, 4)]
    ⟨by omega, by omega, by omega, by omega, by omega, trivial⟩ (by simp only [runs]; omega) rfl (by omega)
  have f_d : fld w.toNat 15 5 = d := fld_eq e2
  have f_a : fld w.toNat 10 5 = a := fld_eq e1
  have f_i : fld w.toNat 0 10 = i := fld_eq e0
  unfold decode
  rw [show w.toNat / 134217728 % 16 = 3 from e4]
  change decodeScalarImm _ = _
  unfold decodeScalarImm
  rw [show w.toNat / 1048576 % 128 = 6 from e3]
  change accept (.shlSi (fld _ 15 5) (fld _ 10 5) (fld _ 0 10)) = _
  rw [f_d, f_a, f_i]
  exact if_pos hw

theorem shrSr (d : BitVec 5) (a : BitVec 5) (b : BitVec 5) (g : BitVec 3) : Statement (.shrSr d a b g) := by
  intro c w hw h
  change pack c 275775488 (32768 * d.toNat + 1024 * a.toNat + 32 * b.toNat + 4 * g.toNat) = some w at h
  have hd := d.isLt
  have ha := a.isLt
  have hb := b.isLt
  have hg := g.isLt
  obtain ⟨e0, e1, e2, e3, e4, e5, e6, -⟩ := pack_reads h [(0, 2), (g.toNat, 3), (b.toNat, 5), (a.toNat, 5), (d.toNat, 5), (7, 7), (2, 4)]
    ⟨by omega, by omega, by omega, by omega, by omega, by omega, by omega, trivial⟩ (by simp only [runs]; omega) rfl (by omega)
  have f_d : fld w.toNat 15 5 = d := fld_eq e4
  have f_a : fld w.toNat 10 5 = a := fld_eq e3
  have f_b : fld w.toNat 5 5 = b := fld_eq e2
  have f_g : fld w.toNat 2 3 = g := fld_eq e1
  unfold decode
  rw [show w.toNat / 134217728 % 16 = 2 from e6]
  change decodeScalarReg _ = _
  unfold decodeScalarReg
  rw [show w.toNat / 1048576 % 128 = 7 from e5]
  refine (if_pos (by simpa using e0)).trans ?_
  rw [f_d, f_a, f_b, f_g]
  exact if_pos hw

theorem shrSi (d : BitVec 5) (a : BitVec 5) (i : BitVec 10) : Statement (.shrSi d a i) := by
  intro c w hw h
  change pack c 409993216 (32768 * d.toNat + 1024 * a.toNat + i.toNat) = some w at h
  have hd := d.isLt
  have ha := a.isLt
  have hi := i.isLt
  obtain ⟨e0, e1, e2, e3, e4, -⟩ := pack_reads h [(i.toNat, 10), (a.toNat, 5), (d.toNat, 5), (7, 7), (3, 4)]
    ⟨by omega, by omega, by omega, by omega, by omega, trivial⟩ (by simp only [runs]; omega) rfl (by omega)
  have f_d : fld w.toNat 15 5 = d := fld_eq e2
  have f_a : fld w.toNat 10 5 = a := fld_eq e1
  have f_i : fld w.toNat 0 10 = i := fld_eq e0
  unfold decode
  rw [show w.toNat / 134217728 % 16 = 3 from e4]
  change decodeScalarImm _ = _
  unfold decodeScalarImm
  rw [show w.toNat / 1048576 % 128 = 7 from e3]
  change accept (.shrSi (fld _ 15 5) (fld _ 10 5) (fld _ 0 10)) = _
  rw [f_d, f_a, f_i]
  exact if_pos hw

theorem sarSr (d : BitVec 5) (a : BitVec 5) (b : BitVec 5) (g : BitVec 3) : Statement (.sarSr d a b g) := by
  intro c w hw h
  change pack c 276824064 (32768 * d.toNat + 1024 * a.toNat + 32 * b.toNat + 4 * g.toNat) = some w at h
  have hd := d.isLt
  have ha := a.isLt
  have hb := b.isLt
  have hg := g.isLt
  obtain ⟨e0, e1, e2, e3, e4, e5, e6, -⟩ := pack_reads h [(0, 2), (g.toNat, 3), (b.toNat, 5), (a.toNat, 5), (d.toNat, 5), (8, 7), (2, 4)]
    ⟨by omega, by omega, by omega, by omega, by omega, by omega, by omega, trivial⟩ (by simp only [runs]; omega) rfl (by omega)
  have f_d : fld w.toNat 15 5 = d := fld_eq e4
  have f_a : fld w.toNat 10 5 = a := fld_eq e3
  have f_b : fld w.toNat 5 5 = b := fld_eq e2
  have f_g : fld w.toNat 2 3 = g := fld_eq e1
  unfold decode
  rw [show w.toNat / 134217728 % 16 = 2 from e6]
  change decodeScalarReg _ = _
  unfold decodeScalarReg
  rw [show w.toNat / 1048576 % 128 = 8 from e5]
  refine (if_pos (by simpa using e0)).trans ?_
  rw [f_d, f_a, f_b, f_g]
  exact if_pos hw

theorem sarSi (d : BitVec 5) (a : BitVec 5) (i : BitVec 10) : Statement (.sarSi d a i) := by
  intro c w hw h
  change pack c 411041792 (32768 * d.toNat + 1024 * a.toNat + i.toNat) = some w at h
  have hd := d.isLt
  have ha := a.isLt
  have hi := i.isLt
  obtain ⟨e0, e1, e2, e3, e4, -⟩ := pack_reads h [(i.toNat, 10), (a.toNat, 5), (d.toNat, 5), (8, 7), (3, 4)]
    ⟨by omega, by omega, by omega, by omega, by omega, trivial⟩ (by simp only [runs]; omega) rfl (by omega)
  have f_d : fld w.toNat 15 5 = d := fld_eq e2
  have f_a : fld w.toNat 10 5 = a := fld_eq e1
  have f_i : fld w.toNat 0 10 = i := fld_eq e0
  unfold decode
  rw [show w.toNat / 134217728 % 16 = 3 from e4]
  change decodeScalarImm _ = _
  unfold decodeScalarImm
  rw [show w.toNat / 1048576 % 128 = 8 from e3]
  change accept (.sarSi (fld _ 15 5) (fld _ 10 5) (fld _ 0 10)) = _
  rw [f_d, f_a, f_i]
  exact if_pos hw

theorem rotSr (d : BitVec 5) (a : BitVec 5) (b : BitVec 5) (g : BitVec 3) : Statement (.rotSr d a b g) := by
  intro c w hw h
  change pack c 277872640 (32768 * d.toNat + 1024 * a.toNat + 32 * b.toNat + 4 * g.toNat) = some w at h
  have hd := d.isLt
  have ha := a.isLt
  have hb := b.isLt
  have hg := g.isLt
  obtain ⟨e0, e1, e2, e3, e4, e5, e6, -⟩ := pack_reads h [(0, 2), (g.toNat, 3), (b.toNat, 5), (a.toNat, 5), (d.toNat, 5), (9, 7), (2, 4)]
    ⟨by omega, by omega, by omega, by omega, by omega, by omega, by omega, trivial⟩ (by simp only [runs]; omega) rfl (by omega)
  have f_d : fld w.toNat 15 5 = d := fld_eq e4
  have f_a : fld w.toNat 10 5 = a := fld_eq e3
  have f_b : fld w.toNat 5 5 = b := fld_eq e2
  have f_g : fld w.toNat 2 3 = g := fld_eq e1
  unfold decode
  rw [show w.toNat / 134217728 % 16 = 2 from e6]
  change decodeScalarReg _ = _
  unfold decodeScalarReg
  rw [show w.toNat / 1048576 % 128 = 9 from e5]
  refine (if_pos (by simpa using e0)).trans ?_
  rw [f_d, f_a, f_b, f_g]
  exact if_pos hw

theorem rotSi (d : BitVec 5) (a : BitVec 5) (i : BitVec 10) : Statement (.rotSi d a i) := by
  intro c w hw h
  change pack c 412090368 (32768 * d.toNat + 1024 * a.toNat + i.toNat) = some w at h
  have hd := d.isLt
  have ha := a.isLt
  have hi := i.isLt
  obtain ⟨e0, e1, e2, e3, e4, -⟩ := pack_reads h [(i.toNat, 10), (a.toNat, 5), (d.toNat, 5), (9, 7), (3, 4)]
    ⟨by omega, by omega, by omega, by omega, by omega, trivial⟩ (by simp only [runs]; omega) rfl (by omega)
  have f_d : fld w.toNat 15 5 = d := fld_eq e2
  have f_a : fld w.toNat 10 5 = a := fld_eq e1
  have f_i : fld w.toNat 0 10 = i := fld_eq e0
  unfold decode
  rw [show w.toNat / 134217728 % 16 = 3 from e4]
  change decodeScalarImm _ = _
  unfold decodeScalarImm
  rw [show w.toNat / 1048576 % 128 = 9 from e3]
  change accept (.rotSi (fld _ 15 5) (fld _ 10 5) (fld _ 0 10)) = _
  rw [f_d, f_a, f_i]
  exact if_pos hw

theorem minSr (d : BitVec 5) (a : BitVec 5) (b : BitVec 5) (g : BitVec 3) : Statement (.minSr d a b g) := by
  intro c w hw h
  change pack c 278921216 (32768 * d.toNat + 1024 * a.toNat + 32 * b.toNat + 4 * g.toNat) = some w at h
  have hd := d.isLt
  have ha := a.isLt
  have hb := b.isLt
  have hg := g.isLt
  obtain ⟨e0, e1, e2, e3, e4, e5, e6, -⟩ := pack_reads h [(0, 2), (g.toNat, 3), (b.toNat, 5), (a.toNat, 5), (d.toNat, 5), (10, 7), (2, 4)]
    ⟨by omega, by omega, by omega, by omega, by omega, by omega, by omega, trivial⟩ (by simp only [runs]; omega) rfl (by omega)
  have f_d : fld w.toNat 15 5 = d := fld_eq e4
  have f_a : fld w.toNat 10 5 = a := fld_eq e3
  have f_b : fld w.toNat 5 5 = b := fld_eq e2
  have f_g : fld w.toNat 2 3 = g := fld_eq e1
  unfold decode
  rw [show w.toNat / 134217728 % 16 = 2 from e6]
  change decodeScalarReg _ = _
  unfold decodeScalarReg
  rw [show w.toNat / 1048576 % 128 = 10 from e5]
  refine (if_pos (by simpa using e0)).trans ?_
  rw [f_d, f_a, f_b, f_g]
  exact if_pos hw

theorem minSi (d : BitVec 5) (a : BitVec 5) (i : BitVec 10) : Statement (.minSi d a i) := by
  intro c w hw h
  change pack c 413138944 (32768 * d.toNat + 1024 * a.toNat + i.toNat) = some w at h
  have hd := d.isLt
  have ha := a.isLt
  have hi := i.isLt
  obtain ⟨e0, e1, e2, e3, e4, -⟩ := pack_reads h [(i.toNat, 10), (a.toNat, 5), (d.toNat, 5), (10, 7), (3, 4)]
    ⟨by omega, by omega, by omega, by omega, by omega, trivial⟩ (by simp only [runs]; omega) rfl (by omega)
  have f_d : fld w.toNat 15 5 = d := fld_eq e2
  have f_a : fld w.toNat 10 5 = a := fld_eq e1
  have f_i : fld w.toNat 0 10 = i := fld_eq e0
  unfold decode
  rw [show w.toNat / 134217728 % 16 = 3 from e4]
  change decodeScalarImm _ = _
  unfold decodeScalarImm
  rw [show w.toNat / 1048576 % 128 = 10 from e3]
  change accept (.minSi (fld _ 15 5) (fld _ 10 5) (fld _ 0 10)) = _
  rw [f_d, f_a, f_i]
  exact if_pos hw

theorem maxSr (d : BitVec 5) (a : BitVec 5) (b : BitVec 5) (g : BitVec 3) : Statement (.maxSr d a b g) := by
  intro c w hw h
  change pack c 279969792 (32768 * d.toNat + 1024 * a.toNat + 32 * b.toNat + 4 * g.toNat) = some w at h
  have hd := d.isLt
  have ha := a.isLt
  have hb := b.isLt
  have hg := g.isLt
  obtain ⟨e0, e1, e2, e3, e4, e5, e6, -⟩ := pack_reads h [(0, 2), (g.toNat, 3), (b.toNat, 5), (a.toNat, 5), (d.toNat, 5), (11, 7), (2, 4)]
    ⟨by omega, by omega, by omega, by omega, by omega, by omega, by omega, trivial⟩ (by simp only [runs]; omega) rfl (by omega)
  have f_d : fld w.toNat 15 5 = d := fld_eq e4
  have f_a : fld w.toNat 10 5 = a := fld_eq e3
  have f_b : fld w.toNat 5 5 = b := fld_eq e2
  have f_g : fld w.toNat 2 3 = g := fld_eq e1
  unfold decode
  rw [show w.toNat / 134217728 % 16 = 2 from e6]
  change decodeScalarReg _ = _
  unfold decodeScalarReg
  rw [show w.toNat / 1048576 % 128 = 11 from e5]
  refine (if_pos (by simpa using e0)).trans ?_
  rw [f_d, f_a, f_b, f_g]
  exact if_pos hw

theorem maxSi (d : BitVec 5) (a : BitVec 5) (i : BitVec 10) : Statement (.maxSi d a i) := by
  intro c w hw h
  change pack c 414187520 (32768 * d.toNat + 1024 * a.toNat + i.toNat) = some w at h
  have hd := d.isLt
  have ha := a.isLt
  have hi := i.isLt
  obtain ⟨e0, e1, e2, e3, e4, -⟩ := pack_reads h [(i.toNat, 10), (a.toNat, 5), (d.toNat, 5), (11, 7), (3, 4)]
    ⟨by omega, by omega, by omega, by omega, by omega, trivial⟩ (by simp only [runs]; omega) rfl (by omega)
  have f_d : fld w.toNat 15 5 = d := fld_eq e2
  have f_a : fld w.toNat 10 5 = a := fld_eq e1
  have f_i : fld w.toNat 0 10 = i := fld_eq e0
  unfold decode
  rw [show w.toNat / 134217728 % 16 = 3 from e4]
  change decodeScalarImm _ = _
  unfold decodeScalarImm
  rw [show w.toNat / 1048576 % 128 = 11 from e3]
  change accept (.maxSi (fld _ 15 5) (fld _ 10 5) (fld _ 0 10)) = _
  rw [f_d, f_a, f_i]
  exact if_pos hw

theorem minuSr (d : BitVec 5) (a : BitVec 5) (b : BitVec 5) (g : BitVec 3) : Statement (.minuSr d a b g) := by
  intro c w hw h
  change pack c 281018368 (32768 * d.toNat + 1024 * a.toNat + 32 * b.toNat + 4 * g.toNat) = some w at h
  have hd := d.isLt
  have ha := a.isLt
  have hb := b.isLt
  have hg := g.isLt
  obtain ⟨e0, e1, e2, e3, e4, e5, e6, -⟩ := pack_reads h [(0, 2), (g.toNat, 3), (b.toNat, 5), (a.toNat, 5), (d.toNat, 5), (12, 7), (2, 4)]
    ⟨by omega, by omega, by omega, by omega, by omega, by omega, by omega, trivial⟩ (by simp only [runs]; omega) rfl (by omega)
  have f_d : fld w.toNat 15 5 = d := fld_eq e4
  have f_a : fld w.toNat 10 5 = a := fld_eq e3
  have f_b : fld w.toNat 5 5 = b := fld_eq e2
  have f_g : fld w.toNat 2 3 = g := fld_eq e1
  unfold decode
  rw [show w.toNat / 134217728 % 16 = 2 from e6]
  change decodeScalarReg _ = _
  unfold decodeScalarReg
  rw [show w.toNat / 1048576 % 128 = 12 from e5]
  refine (if_pos (by simpa using e0)).trans ?_
  rw [f_d, f_a, f_b, f_g]
  exact if_pos hw

theorem minuSi (d : BitVec 5) (a : BitVec 5) (i : BitVec 10) : Statement (.minuSi d a i) := by
  intro c w hw h
  change pack c 415236096 (32768 * d.toNat + 1024 * a.toNat + i.toNat) = some w at h
  have hd := d.isLt
  have ha := a.isLt
  have hi := i.isLt
  obtain ⟨e0, e1, e2, e3, e4, -⟩ := pack_reads h [(i.toNat, 10), (a.toNat, 5), (d.toNat, 5), (12, 7), (3, 4)]
    ⟨by omega, by omega, by omega, by omega, by omega, trivial⟩ (by simp only [runs]; omega) rfl (by omega)
  have f_d : fld w.toNat 15 5 = d := fld_eq e2
  have f_a : fld w.toNat 10 5 = a := fld_eq e1
  have f_i : fld w.toNat 0 10 = i := fld_eq e0
  unfold decode
  rw [show w.toNat / 134217728 % 16 = 3 from e4]
  change decodeScalarImm _ = _
  unfold decodeScalarImm
  rw [show w.toNat / 1048576 % 128 = 12 from e3]
  change accept (.minuSi (fld _ 15 5) (fld _ 10 5) (fld _ 0 10)) = _
  rw [f_d, f_a, f_i]
  exact if_pos hw

theorem maxuSr (d : BitVec 5) (a : BitVec 5) (b : BitVec 5) (g : BitVec 3) : Statement (.maxuSr d a b g) := by
  intro c w hw h
  change pack c 282066944 (32768 * d.toNat + 1024 * a.toNat + 32 * b.toNat + 4 * g.toNat) = some w at h
  have hd := d.isLt
  have ha := a.isLt
  have hb := b.isLt
  have hg := g.isLt
  obtain ⟨e0, e1, e2, e3, e4, e5, e6, -⟩ := pack_reads h [(0, 2), (g.toNat, 3), (b.toNat, 5), (a.toNat, 5), (d.toNat, 5), (13, 7), (2, 4)]
    ⟨by omega, by omega, by omega, by omega, by omega, by omega, by omega, trivial⟩ (by simp only [runs]; omega) rfl (by omega)
  have f_d : fld w.toNat 15 5 = d := fld_eq e4
  have f_a : fld w.toNat 10 5 = a := fld_eq e3
  have f_b : fld w.toNat 5 5 = b := fld_eq e2
  have f_g : fld w.toNat 2 3 = g := fld_eq e1
  unfold decode
  rw [show w.toNat / 134217728 % 16 = 2 from e6]
  change decodeScalarReg _ = _
  unfold decodeScalarReg
  rw [show w.toNat / 1048576 % 128 = 13 from e5]
  refine (if_pos (by simpa using e0)).trans ?_
  rw [f_d, f_a, f_b, f_g]
  exact if_pos hw

theorem maxuSi (d : BitVec 5) (a : BitVec 5) (i : BitVec 10) : Statement (.maxuSi d a i) := by
  intro c w hw h
  change pack c 416284672 (32768 * d.toNat + 1024 * a.toNat + i.toNat) = some w at h
  have hd := d.isLt
  have ha := a.isLt
  have hi := i.isLt
  obtain ⟨e0, e1, e2, e3, e4, -⟩ := pack_reads h [(i.toNat, 10), (a.toNat, 5), (d.toNat, 5), (13, 7), (3, 4)]
    ⟨by omega, by omega, by omega, by omega, by omega, trivial⟩ (by simp only [runs]; omega) rfl (by omega)
  have f_d : fld w.toNat 15 5 = d := fld_eq e2
  have f_a : fld w.toNat 10 5 = a := fld_eq e1
  have f_i : fld w.toNat 0 10 = i := fld_eq e0
  unfold decode
  rw [show w.toNat / 134217728 % 16 = 3 from e4]
  change decodeScalarImm _ = _
  unfold decodeScalarImm
  rw [show w.toNat / 1048576 % 128 = 13 from e3]
  change accept (.maxuSi (fld _ 15 5) (fld _ 10 5) (fld _ 0 10)) = _
  rw [f_d, f_a, f_i]
  exact if_pos hw

theorem mulSr (d : BitVec 5) (a : BitVec 5) (b : BitVec 5) (g : BitVec 3) : Statement (.mulSr d a b g) := by
  intro c w hw h
  change pack c 285212672 (32768 * d.toNat + 1024 * a.toNat + 32 * b.toNat + 4 * g.toNat) = some w at h
  have hd := d.isLt
  have ha := a.isLt
  have hb := b.isLt
  have hg := g.isLt
  obtain ⟨e0, e1, e2, e3, e4, e5, e6, -⟩ := pack_reads h [(0, 2), (g.toNat, 3), (b.toNat, 5), (a.toNat, 5), (d.toNat, 5), (16, 7), (2, 4)]
    ⟨by omega, by omega, by omega, by omega, by omega, by omega, by omega, trivial⟩ (by simp only [runs]; omega) rfl (by omega)
  have f_d : fld w.toNat 15 5 = d := fld_eq e4
  have f_a : fld w.toNat 10 5 = a := fld_eq e3
  have f_b : fld w.toNat 5 5 = b := fld_eq e2
  have f_g : fld w.toNat 2 3 = g := fld_eq e1
  unfold decode
  rw [show w.toNat / 134217728 % 16 = 2 from e6]
  change decodeScalarReg _ = _
  unfold decodeScalarReg
  rw [show w.toNat / 1048576 % 128 = 16 from e5]
  refine (if_pos (by simpa using e0)).trans ?_
  rw [f_d, f_a, f_b, f_g]
  exact if_pos hw

theorem mulSi (d : BitVec 5) (a : BitVec 5) (i : BitVec 10) : Statement (.mulSi d a i) := by
  intro c w hw h
  change pack c 419430400 (32768 * d.toNat + 1024 * a.toNat + i.toNat) = some w at h
  have hd := d.isLt
  have ha := a.isLt
  have hi := i.isLt
  obtain ⟨e0, e1, e2, e3, e4, -⟩ := pack_reads h [(i.toNat, 10), (a.toNat, 5), (d.toNat, 5), (16, 7), (3, 4)]
    ⟨by omega, by omega, by omega, by omega, by omega, trivial⟩ (by simp only [runs]; omega) rfl (by omega)
  have f_d : fld w.toNat 15 5 = d := fld_eq e2
  have f_a : fld w.toNat 10 5 = a := fld_eq e1
  have f_i : fld w.toNat 0 10 = i := fld_eq e0
  unfold decode
  rw [show w.toNat / 134217728 % 16 = 3 from e4]
  change decodeScalarImm _ = _
  unfold decodeScalarImm
  rw [show w.toNat / 1048576 % 128 = 16 from e3]
  change accept (.mulSi (fld _ 15 5) (fld _ 10 5) (fld _ 0 10)) = _
  rw [f_d, f_a, f_i]
  exact if_pos hw

theorem mulh (d : BitVec 5) (a : BitVec 5) (b : BitVec 5) (g : BitVec 3) : Statement (.mulh d a b g) := by
  intro c w hw h
  change pack c 286261248 (32768 * d.toNat + 1024 * a.toNat + 32 * b.toNat + 4 * g.toNat) = some w at h
  have hd := d.isLt
  have ha := a.isLt
  have hb := b.isLt
  have hg := g.isLt
  obtain ⟨e0, e1, e2, e3, e4, e5, e6, -⟩ := pack_reads h [(0, 2), (g.toNat, 3), (b.toNat, 5), (a.toNat, 5), (d.toNat, 5), (17, 7), (2, 4)]
    ⟨by omega, by omega, by omega, by omega, by omega, by omega, by omega, trivial⟩ (by simp only [runs]; omega) rfl (by omega)
  have f_d : fld w.toNat 15 5 = d := fld_eq e4
  have f_a : fld w.toNat 10 5 = a := fld_eq e3
  have f_b : fld w.toNat 5 5 = b := fld_eq e2
  have f_g : fld w.toNat 2 3 = g := fld_eq e1
  unfold decode
  rw [show w.toNat / 134217728 % 16 = 2 from e6]
  change decodeScalarReg _ = _
  unfold decodeScalarReg
  rw [show w.toNat / 1048576 % 128 = 17 from e5]
  refine (if_pos (by simpa using e0)).trans ?_
  rw [f_d, f_a, f_b, f_g]
  exact if_pos hw

theorem mulhu (d : BitVec 5) (a : BitVec 5) (b : BitVec 5) (g : BitVec 3) : Statement (.mulhu d a b g) := by
  intro c w hw h
  change pack c 287309824 (32768 * d.toNat + 1024 * a.toNat + 32 * b.toNat + 4 * g.toNat) = some w at h
  have hd := d.isLt
  have ha := a.isLt
  have hb := b.isLt
  have hg := g.isLt
  obtain ⟨e0, e1, e2, e3, e4, e5, e6, -⟩ := pack_reads h [(0, 2), (g.toNat, 3), (b.toNat, 5), (a.toNat, 5), (d.toNat, 5), (18, 7), (2, 4)]
    ⟨by omega, by omega, by omega, by omega, by omega, by omega, by omega, trivial⟩ (by simp only [runs]; omega) rfl (by omega)
  have f_d : fld w.toNat 15 5 = d := fld_eq e4
  have f_a : fld w.toNat 10 5 = a := fld_eq e3
  have f_b : fld w.toNat 5 5 = b := fld_eq e2
  have f_g : fld w.toNat 2 3 = g := fld_eq e1
  unfold decode
  rw [show w.toNat / 134217728 % 16 = 2 from e6]
  change decodeScalarReg _ = _
  unfold decodeScalarReg
  rw [show w.toNat / 1048576 % 128 = 18 from e5]
  refine (if_pos (by simpa using e0)).trans ?_
  rw [f_d, f_a, f_b, f_g]
  exact if_pos hw

theorem div (d : BitVec 5) (a : BitVec 5) (b : BitVec 5) (g : BitVec 3) : Statement (.div d a b g) := by
  intro c w hw h
  change pack c 289406976 (32768 * d.toNat + 1024 * a.toNat + 32 * b.toNat + 4 * g.toNat) = some w at h
  have hd := d.isLt
  have ha := a.isLt
  have hb := b.isLt
  have hg := g.isLt
  obtain ⟨e0, e1, e2, e3, e4, e5, e6, -⟩ := pack_reads h [(0, 2), (g.toNat, 3), (b.toNat, 5), (a.toNat, 5), (d.toNat, 5), (20, 7), (2, 4)]
    ⟨by omega, by omega, by omega, by omega, by omega, by omega, by omega, trivial⟩ (by simp only [runs]; omega) rfl (by omega)
  have f_d : fld w.toNat 15 5 = d := fld_eq e4
  have f_a : fld w.toNat 10 5 = a := fld_eq e3
  have f_b : fld w.toNat 5 5 = b := fld_eq e2
  have f_g : fld w.toNat 2 3 = g := fld_eq e1
  unfold decode
  rw [show w.toNat / 134217728 % 16 = 2 from e6]
  change decodeScalarReg _ = _
  unfold decodeScalarReg
  rw [show w.toNat / 1048576 % 128 = 20 from e5]
  refine (if_pos (by simpa using e0)).trans ?_
  rw [f_d, f_a, f_b, f_g]
  exact if_pos hw

theorem divu (d : BitVec 5) (a : BitVec 5) (b : BitVec 5) (g : BitVec 3) : Statement (.divu d a b g) := by
  intro c w hw h
  change pack c 290455552 (32768 * d.toNat + 1024 * a.toNat + 32 * b.toNat + 4 * g.toNat) = some w at h
  have hd := d.isLt
  have ha := a.isLt
  have hb := b.isLt
  have hg := g.isLt
  obtain ⟨e0, e1, e2, e3, e4, e5, e6, -⟩ := pack_reads h [(0, 2), (g.toNat, 3), (b.toNat, 5), (a.toNat, 5), (d.toNat, 5), (21, 7), (2, 4)]
    ⟨by omega, by omega, by omega, by omega, by omega, by omega, by omega, trivial⟩ (by simp only [runs]; omega) rfl (by omega)
  have f_d : fld w.toNat 15 5 = d := fld_eq e4
  have f_a : fld w.toNat 10 5 = a := fld_eq e3
  have f_b : fld w.toNat 5 5 = b := fld_eq e2
  have f_g : fld w.toNat 2 3 = g := fld_eq e1
  unfold decode
  rw [show w.toNat / 134217728 % 16 = 2 from e6]
  change decodeScalarReg _ = _
  unfold decodeScalarReg
  rw [show w.toNat / 1048576 % 128 = 21 from e5]
  refine (if_pos (by simpa using e0)).trans ?_
  rw [f_d, f_a, f_b, f_g]
  exact if_pos hw

theorem rem (d : BitVec 5) (a : BitVec 5) (b : BitVec 5) (g : BitVec 3) : Statement (.rem d a b g) := by
  intro c w hw h
  change pack c 291504128 (32768 * d.toNat + 1024 * a.toNat + 32 * b.toNat + 4 * g.toNat) = some w at h
  have hd := d.isLt
  have ha := a.isLt
  have hb := b.isLt
  have hg := g.isLt
  obtain ⟨e0, e1, e2, e3, e4, e5, e6, -⟩ := pack_reads h [(0, 2), (g.toNat, 3), (b.toNat, 5), (a.toNat, 5), (d.toNat, 5), (22, 7), (2, 4)]
    ⟨by omega, by omega, by omega, by omega, by omega, by omega, by omega, trivial⟩ (by simp only [runs]; omega) rfl (by omega)
  have f_d : fld w.toNat 15 5 = d := fld_eq e4
  have f_a : fld w.toNat 10 5 = a := fld_eq e3
  have f_b : fld w.toNat 5 5 = b := fld_eq e2
  have f_g : fld w.toNat 2 3 = g := fld_eq e1
  unfold decode
  rw [show w.toNat / 134217728 % 16 = 2 from e6]
  change decodeScalarReg _ = _
  unfold decodeScalarReg
  rw [show w.toNat / 1048576 % 128 = 22 from e5]
  refine (if_pos (by simpa using e0)).trans ?_
  rw [f_d, f_a, f_b, f_g]
  exact if_pos hw

theorem remu (d : BitVec 5) (a : BitVec 5) (b : BitVec 5) (g : BitVec 3) : Statement (.remu d a b g) := by
  intro c w hw h
  change pack c 292552704 (32768 * d.toNat + 1024 * a.toNat + 32 * b.toNat + 4 * g.toNat) = some w at h
  have hd := d.isLt
  have ha := a.isLt
  have hb := b.isLt
  have hg := g.isLt
  obtain ⟨e0, e1, e2, e3, e4, e5, e6, -⟩ := pack_reads h [(0, 2), (g.toNat, 3), (b.toNat, 5), (a.toNat, 5), (d.toNat, 5), (23, 7), (2, 4)]
    ⟨by omega, by omega, by omega, by omega, by omega, by omega, by omega, trivial⟩ (by simp only [runs]; omega) rfl (by omega)
  have f_d : fld w.toNat 15 5 = d := fld_eq e4
  have f_a : fld w.toNat 10 5 = a := fld_eq e3
  have f_b : fld w.toNat 5 5 = b := fld_eq e2
  have f_g : fld w.toNat 2 3 = g := fld_eq e1
  unfold decode
  rw [show w.toNat / 134217728 % 16 = 2 from e6]
  change decodeScalarReg _ = _
  unfold decodeScalarReg
  rw [show w.toNat / 1048576 % 128 = 23 from e5]
  refine (if_pos (by simpa using e0)).trans ?_
  rw [f_d, f_a, f_b, f_g]
  exact if_pos hw

theorem clz (d : BitVec 5) (a : BitVec 5) (g : BitVec 3) : Statement (.clz d a g) := by
  intro c w hw h
  change pack c 293601280 (32768 * d.toNat + 1024 * a.toNat + 4 * g.toNat) = some w at h
  have hd := d.isLt
  have ha := a.isLt
  have hg := g.isLt
  obtain ⟨e0, e1, e2, e3, e4, e5, e6, -⟩ := pack_reads h [(0, 2), (g.toNat, 3), (0, 5), (a.toNat, 5), (d.toNat, 5), (24, 7), (2, 4)]
    ⟨by omega, by omega, by omega, by omega, by omega, by omega, by omega, trivial⟩ (by simp only [runs]; omega) rfl (by omega)
  have f_d : fld w.toNat 15 5 = d := fld_eq e4
  have f_a : fld w.toNat 10 5 = a := fld_eq e3
  have f_g : fld w.toNat 2 3 = g := fld_eq e1
  unfold decode
  rw [show w.toNat / 134217728 % 16 = 2 from e6]
  change decodeScalarReg _ = _
  unfold decodeScalarReg
  rw [show w.toNat / 1048576 % 128 = 24 from e5]
  refine (if_pos ⟨e2, (by simpa using e0)⟩).trans ?_
  rw [f_d, f_a, f_g]
  exact if_pos hw

theorem ctz (d : BitVec 5) (a : BitVec 5) (g : BitVec 3) : Statement (.ctz d a g) := by
  intro c w hw h
  change pack c 294649856 (32768 * d.toNat + 1024 * a.toNat + 4 * g.toNat) = some w at h
  have hd := d.isLt
  have ha := a.isLt
  have hg := g.isLt
  obtain ⟨e0, e1, e2, e3, e4, e5, e6, -⟩ := pack_reads h [(0, 2), (g.toNat, 3), (0, 5), (a.toNat, 5), (d.toNat, 5), (25, 7), (2, 4)]
    ⟨by omega, by omega, by omega, by omega, by omega, by omega, by omega, trivial⟩ (by simp only [runs]; omega) rfl (by omega)
  have f_d : fld w.toNat 15 5 = d := fld_eq e4
  have f_a : fld w.toNat 10 5 = a := fld_eq e3
  have f_g : fld w.toNat 2 3 = g := fld_eq e1
  unfold decode
  rw [show w.toNat / 134217728 % 16 = 2 from e6]
  change decodeScalarReg _ = _
  unfold decodeScalarReg
  rw [show w.toNat / 1048576 % 128 = 25 from e5]
  refine (if_pos ⟨e2, (by simpa using e0)⟩).trans ?_
  rw [f_d, f_a, f_g]
  exact if_pos hw

theorem popc (d : BitVec 5) (a : BitVec 5) (g : BitVec 3) : Statement (.popc d a g) := by
  intro c w hw h
  change pack c 295698432 (32768 * d.toNat + 1024 * a.toNat + 4 * g.toNat) = some w at h
  have hd := d.isLt
  have ha := a.isLt
  have hg := g.isLt
  obtain ⟨e0, e1, e2, e3, e4, e5, e6, -⟩ := pack_reads h [(0, 2), (g.toNat, 3), (0, 5), (a.toNat, 5), (d.toNat, 5), (26, 7), (2, 4)]
    ⟨by omega, by omega, by omega, by omega, by omega, by omega, by omega, trivial⟩ (by simp only [runs]; omega) rfl (by omega)
  have f_d : fld w.toNat 15 5 = d := fld_eq e4
  have f_a : fld w.toNat 10 5 = a := fld_eq e3
  have f_g : fld w.toNat 2 3 = g := fld_eq e1
  unfold decode
  rw [show w.toNat / 134217728 % 16 = 2 from e6]
  change decodeScalarReg _ = _
  unfold decodeScalarReg
  rw [show w.toNat / 1048576 % 128 = 26 from e5]
  refine (if_pos ⟨e2, (by simpa using e0)⟩).trans ?_
  rw [f_d, f_a, f_g]
  exact if_pos hw

theorem brev (d : BitVec 5) (a : BitVec 5) (g : BitVec 3) : Statement (.brev d a g) := by
  intro c w hw h
  change pack c 296747008 (32768 * d.toNat + 1024 * a.toNat + 4 * g.toNat) = some w at h
  have hd := d.isLt
  have ha := a.isLt
  have hg := g.isLt
  obtain ⟨e0, e1, e2, e3, e4, e5, e6, -⟩ := pack_reads h [(0, 2), (g.toNat, 3), (0, 5), (a.toNat, 5), (d.toNat, 5), (27, 7), (2, 4)]
    ⟨by omega, by omega, by omega, by omega, by omega, by omega, by omega, trivial⟩ (by simp only [runs]; omega) rfl (by omega)
  have f_d : fld w.toNat 15 5 = d := fld_eq e4
  have f_a : fld w.toNat 10 5 = a := fld_eq e3
  have f_g : fld w.toNat 2 3 = g := fld_eq e1
  unfold decode
  rw [show w.toNat / 134217728 % 16 = 2 from e6]
  change decodeScalarReg _ = _
  unfold decodeScalarReg
  rw [show w.toNat / 1048576 % 128 = 27 from e5]
  refine (if_pos ⟨e2, (by simpa using e0)⟩).trans ?_
  rw [f_d, f_a, f_g]
  exact if_pos hw

theorem extB (d : BitVec 5) (a : BitVec 5) (g : BitVec 3) : Statement (.extB d a g) := by
  intro c w hw h
  change pack c 301989888 (32768 * d.toNat + 1024 * a.toNat + 4 * g.toNat) = some w at h
  have hd := d.isLt
  have ha := a.isLt
  have hg := g.isLt
  obtain ⟨e0, e1, e2, e3, e4, e5, e6, -⟩ := pack_reads h [(0, 2), (g.toNat, 3), (0, 5), (a.toNat, 5), (d.toNat, 5), (32, 7), (2, 4)]
    ⟨by omega, by omega, by omega, by omega, by omega, by omega, by omega, trivial⟩ (by simp only [runs]; omega) rfl (by omega)
  have f_d : fld w.toNat 15 5 = d := fld_eq e4
  have f_a : fld w.toNat 10 5 = a := fld_eq e3
  have f_g : fld w.toNat 2 3 = g := fld_eq e1
  unfold decode
  rw [show w.toNat / 134217728 % 16 = 2 from e6]
  change decodeScalarReg _ = _
  unfold decodeScalarReg
  rw [show w.toNat / 1048576 % 128 = 32 from e5]
  refine (if_pos ⟨e2, (by simpa using e0)⟩).trans ?_
  rw [f_d, f_a, f_g]
  exact if_pos hw

theorem extBu (d : BitVec 5) (a : BitVec 5) (g : BitVec 3) : Statement (.extBu d a g) := by
  intro c w hw h
  change pack c 303038464 (32768 * d.toNat + 1024 * a.toNat + 4 * g.toNat) = some w at h
  have hd := d.isLt
  have ha := a.isLt
  have hg := g.isLt
  obtain ⟨e0, e1, e2, e3, e4, e5, e6, -⟩ := pack_reads h [(0, 2), (g.toNat, 3), (0, 5), (a.toNat, 5), (d.toNat, 5), (33, 7), (2, 4)]
    ⟨by omega, by omega, by omega, by omega, by omega, by omega, by omega, trivial⟩ (by simp only [runs]; omega) rfl (by omega)
  have f_d : fld w.toNat 15 5 = d := fld_eq e4
  have f_a : fld w.toNat 10 5 = a := fld_eq e3
  have f_g : fld w.toNat 2 3 = g := fld_eq e1
  unfold decode
  rw [show w.toNat / 134217728 % 16 = 2 from e6]
  change decodeScalarReg _ = _
  unfold decodeScalarReg
  rw [show w.toNat / 1048576 % 128 = 33 from e5]
  refine (if_pos ⟨e2, (by simpa using e0)⟩).trans ?_
  rw [f_d, f_a, f_g]
  exact if_pos hw

theorem extH (d : BitVec 5) (a : BitVec 5) (g : BitVec 3) : Statement (.extH d a g) := by
  intro c w hw h
  change pack c 304087040 (32768 * d.toNat + 1024 * a.toNat + 4 * g.toNat) = some w at h
  have hd := d.isLt
  have ha := a.isLt
  have hg := g.isLt
  obtain ⟨e0, e1, e2, e3, e4, e5, e6, -⟩ := pack_reads h [(0, 2), (g.toNat, 3), (0, 5), (a.toNat, 5), (d.toNat, 5), (34, 7), (2, 4)]
    ⟨by omega, by omega, by omega, by omega, by omega, by omega, by omega, trivial⟩ (by simp only [runs]; omega) rfl (by omega)
  have f_d : fld w.toNat 15 5 = d := fld_eq e4
  have f_a : fld w.toNat 10 5 = a := fld_eq e3
  have f_g : fld w.toNat 2 3 = g := fld_eq e1
  unfold decode
  rw [show w.toNat / 134217728 % 16 = 2 from e6]
  change decodeScalarReg _ = _
  unfold decodeScalarReg
  rw [show w.toNat / 1048576 % 128 = 34 from e5]
  refine (if_pos ⟨e2, (by simpa using e0)⟩).trans ?_
  rw [f_d, f_a, f_g]
  exact if_pos hw

theorem extHu (d : BitVec 5) (a : BitVec 5) (g : BitVec 3) : Statement (.extHu d a g) := by
  intro c w hw h
  change pack c 305135616 (32768 * d.toNat + 1024 * a.toNat + 4 * g.toNat) = some w at h
  have hd := d.isLt
  have ha := a.isLt
  have hg := g.isLt
  obtain ⟨e0, e1, e2, e3, e4, e5, e6, -⟩ := pack_reads h [(0, 2), (g.toNat, 3), (0, 5), (a.toNat, 5), (d.toNat, 5), (35, 7), (2, 4)]
    ⟨by omega, by omega, by omega, by omega, by omega, by omega, by omega, trivial⟩ (by simp only [runs]; omega) rfl (by omega)
  have f_d : fld w.toNat 15 5 = d := fld_eq e4
  have f_a : fld w.toNat 10 5 = a := fld_eq e3
  have f_g : fld w.toNat 2 3 = g := fld_eq e1
  unfold decode
  rw [show w.toNat / 134217728 % 16 = 2 from e6]
  change decodeScalarReg _ = _
  unfold decodeScalarReg
  rw [show w.toNat / 1048576 % 128 = 35 from e5]
  refine (if_pos ⟨e2, (by simpa using e0)⟩).trans ?_
  rw [f_d, f_a, f_g]
  exact if_pos hw

theorem extW (d : BitVec 5) (a : BitVec 5) (g : BitVec 3) : Statement (.extW d a g) := by
  intro c w hw h
  change pack c 306184192 (32768 * d.toNat + 1024 * a.toNat + 4 * g.toNat) = some w at h
  have hd := d.isLt
  have ha := a.isLt
  have hg := g.isLt
  obtain ⟨e0, e1, e2, e3, e4, e5, e6, -⟩ := pack_reads h [(0, 2), (g.toNat, 3), (0, 5), (a.toNat, 5), (d.toNat, 5), (36, 7), (2, 4)]
    ⟨by omega, by omega, by omega, by omega, by omega, by omega, by omega, trivial⟩ (by simp only [runs]; omega) rfl (by omega)
  have f_d : fld w.toNat 15 5 = d := fld_eq e4
  have f_a : fld w.toNat 10 5 = a := fld_eq e3
  have f_g : fld w.toNat 2 3 = g := fld_eq e1
  unfold decode
  rw [show w.toNat / 134217728 % 16 = 2 from e6]
  change decodeScalarReg _ = _
  unfold decodeScalarReg
  rw [show w.toNat / 1048576 % 128 = 36 from e5]
  refine (if_pos ⟨e2, (by simpa using e0)⟩).trans ?_
  rw [f_d, f_a, f_g]
  exact if_pos hw

theorem extWu (d : BitVec 5) (a : BitVec 5) (g : BitVec 3) : Statement (.extWu d a g) := by
  intro c w hw h
  change pack c 307232768 (32768 * d.toNat + 1024 * a.toNat + 4 * g.toNat) = some w at h
  have hd := d.isLt
  have ha := a.isLt
  have hg := g.isLt
  obtain ⟨e0, e1, e2, e3, e4, e5, e6, -⟩ := pack_reads h [(0, 2), (g.toNat, 3), (0, 5), (a.toNat, 5), (d.toNat, 5), (37, 7), (2, 4)]
    ⟨by omega, by omega, by omega, by omega, by omega, by omega, by omega, trivial⟩ (by simp only [runs]; omega) rfl (by omega)
  have f_d : fld w.toNat 15 5 = d := fld_eq e4
  have f_a : fld w.toNat 10 5 = a := fld_eq e3
  have f_g : fld w.toNat 2 3 = g := fld_eq e1
  unfold decode
  rw [show w.toNat / 134217728 % 16 = 2 from e6]
  change decodeScalarReg _ = _
  unfold decodeScalarReg
  rw [show w.toNat / 1048576 % 128 = 37 from e5]
  refine (if_pos ⟨e2, (by simpa using e0)⟩).trans ?_
  rw [f_d, f_a, f_g]
  exact if_pos hw

theorem bfx (d : BitVec 5) (a : BitVec 5) (b : BitVec 5) (g : BitVec 3) : Statement (.bfx d a b g) := by
  intro c w hw h
  change pack c 310378496 (32768 * d.toNat + 1024 * a.toNat + 32 * b.toNat + 4 * g.toNat) = some w at h
  have hd := d.isLt
  have ha := a.isLt
  have hb := b.isLt
  have hg := g.isLt
  obtain ⟨e0, e1, e2, e3, e4, e5, e6, -⟩ := pack_reads h [(0, 2), (g.toNat, 3), (b.toNat, 5), (a.toNat, 5), (d.toNat, 5), (40, 7), (2, 4)]
    ⟨by omega, by omega, by omega, by omega, by omega, by omega, by omega, trivial⟩ (by simp only [runs]; omega) rfl (by omega)
  have f_d : fld w.toNat 15 5 = d := fld_eq e4
  have f_a : fld w.toNat 10 5 = a := fld_eq e3
  have f_b : fld w.toNat 5 5 = b := fld_eq e2
  have f_g : fld w.toNat 2 3 = g := fld_eq e1
  unfold decode
  rw [show w.toNat / 134217728 % 16 = 2 from e6]
  change decodeScalarReg _ = _
  unfold decodeScalarReg
  rw [show w.toNat / 1048576 % 128 = 40 from e5]
  refine (if_pos (by simpa using e0)).trans ?_
  rw [f_d, f_a, f_b, f_g]
  exact if_pos hw

theorem bfi (d : BitVec 5) (a : BitVec 5) (b : BitVec 5) (g : BitVec 3) : Statement (.bfi d a b g) := by
  intro c w hw h
  change pack c 311427072 (32768 * d.toNat + 1024 * a.toNat + 32 * b.toNat + 4 * g.toNat) = some w at h
  have hd := d.isLt
  have ha := a.isLt
  have hb := b.isLt
  have hg := g.isLt
  obtain ⟨e0, e1, e2, e3, e4, e5, e6, -⟩ := pack_reads h [(0, 2), (g.toNat, 3), (b.toNat, 5), (a.toNat, 5), (d.toNat, 5), (41, 7), (2, 4)]
    ⟨by omega, by omega, by omega, by omega, by omega, by omega, by omega, trivial⟩ (by simp only [runs]; omega) rfl (by omega)
  have f_d : fld w.toNat 15 5 = d := fld_eq e4
  have f_a : fld w.toNat 10 5 = a := fld_eq e3
  have f_b : fld w.toNat 5 5 = b := fld_eq e2
  have f_g : fld w.toNat 2 3 = g := fld_eq e1
  unfold decode
  rw [show w.toNat / 134217728 % 16 = 2 from e6]
  change decodeScalarReg _ = _
  unfold decodeScalarReg
  rw [show w.toNat / 1048576 % 128 = 41 from e5]
  refine (if_pos (by simpa using e0)).trans ?_
  rw [f_d, f_a, f_b, f_g]
  exact if_pos hw

theorem addsh1 (d : BitVec 5) (a : BitVec 5) (b : BitVec 5) (g : BitVec 3) : Statement (.addsh1 d a b g) := by
  intro c w hw h
  change pack c 314572800 (32768 * d.toNat + 1024 * a.toNat + 32 * b.toNat + 4 * g.toNat) = some w at h
  have hd := d.isLt
  have ha := a.isLt
  have hb := b.isLt
  have hg := g.isLt
  obtain ⟨e0, e1, e2, e3, e4, e5, e6, -⟩ := pack_reads h [(0, 2), (g.toNat, 3), (b.toNat, 5), (a.toNat, 5), (d.toNat, 5), (44, 7), (2, 4)]
    ⟨by omega, by omega, by omega, by omega, by omega, by omega, by omega, trivial⟩ (by simp only [runs]; omega) rfl (by omega)
  have f_d : fld w.toNat 15 5 = d := fld_eq e4
  have f_a : fld w.toNat 10 5 = a := fld_eq e3
  have f_b : fld w.toNat 5 5 = b := fld_eq e2
  have f_g : fld w.toNat 2 3 = g := fld_eq e1
  unfold decode
  rw [show w.toNat / 134217728 % 16 = 2 from e6]
  change decodeScalarReg _ = _
  unfold decodeScalarReg
  rw [show w.toNat / 1048576 % 128 = 44 from e5]
  refine (if_pos (by simpa using e0)).trans ?_
  rw [f_d, f_a, f_b, f_g]
  exact if_pos hw

theorem addsh2 (d : BitVec 5) (a : BitVec 5) (b : BitVec 5) (g : BitVec 3) : Statement (.addsh2 d a b g) := by
  intro c w hw h
  change pack c 315621376 (32768 * d.toNat + 1024 * a.toNat + 32 * b.toNat + 4 * g.toNat) = some w at h
  have hd := d.isLt
  have ha := a.isLt
  have hb := b.isLt
  have hg := g.isLt
  obtain ⟨e0, e1, e2, e3, e4, e5, e6, -⟩ := pack_reads h [(0, 2), (g.toNat, 3), (b.toNat, 5), (a.toNat, 5), (d.toNat, 5), (45, 7), (2, 4)]
    ⟨by omega, by omega, by omega, by omega, by omega, by omega, by omega, trivial⟩ (by simp only [runs]; omega) rfl (by omega)
  have f_d : fld w.toNat 15 5 = d := fld_eq e4
  have f_a : fld w.toNat 10 5 = a := fld_eq e3
  have f_b : fld w.toNat 5 5 = b := fld_eq e2
  have f_g : fld w.toNat 2 3 = g := fld_eq e1
  unfold decode
  rw [show w.toNat / 134217728 % 16 = 2 from e6]
  change decodeScalarReg _ = _
  unfold decodeScalarReg
  rw [show w.toNat / 1048576 % 128 = 45 from e5]
  refine (if_pos (by simpa using e0)).trans ?_
  rw [f_d, f_a, f_b, f_g]
  exact if_pos hw

theorem addsh3 (d : BitVec 5) (a : BitVec 5) (b : BitVec 5) (g : BitVec 3) : Statement (.addsh3 d a b g) := by
  intro c w hw h
  change pack c 316669952 (32768 * d.toNat + 1024 * a.toNat + 32 * b.toNat + 4 * g.toNat) = some w at h
  have hd := d.isLt
  have ha := a.isLt
  have hb := b.isLt
  have hg := g.isLt
  obtain ⟨e0, e1, e2, e3, e4, e5, e6, -⟩ := pack_reads h [(0, 2), (g.toNat, 3), (b.toNat, 5), (a.toNat, 5), (d.toNat, 5), (46, 7), (2, 4)]
    ⟨by omega, by omega, by omega, by omega, by omega, by omega, by omega, trivial⟩ (by simp only [runs]; omega) rfl (by omega)
  have f_d : fld w.toNat 15 5 = d := fld_eq e4
  have f_a : fld w.toNat 10 5 = a := fld_eq e3
  have f_b : fld w.toNat 5 5 = b := fld_eq e2
  have f_g : fld w.toNat 2 3 = g := fld_eq e1
  unfold decode
  rw [show w.toNat / 134217728 % 16 = 2 from e6]
  change decodeScalarReg _ = _
  unfold decodeScalarReg
  rw [show w.toNat / 1048576 % 128 = 46 from e5]
  refine (if_pos (by simpa using e0)).trans ?_
  rw [f_d, f_a, f_b, f_g]
  exact if_pos hw

theorem addsh4 (d : BitVec 5) (a : BitVec 5) (b : BitVec 5) (g : BitVec 3) : Statement (.addsh4 d a b g) := by
  intro c w hw h
  change pack c 317718528 (32768 * d.toNat + 1024 * a.toNat + 32 * b.toNat + 4 * g.toNat) = some w at h
  have hd := d.isLt
  have ha := a.isLt
  have hb := b.isLt
  have hg := g.isLt
  obtain ⟨e0, e1, e2, e3, e4, e5, e6, -⟩ := pack_reads h [(0, 2), (g.toNat, 3), (b.toNat, 5), (a.toNat, 5), (d.toNat, 5), (47, 7), (2, 4)]
    ⟨by omega, by omega, by omega, by omega, by omega, by omega, by omega, trivial⟩ (by simp only [runs]; omega) rfl (by omega)
  have f_d : fld w.toNat 15 5 = d := fld_eq e4
  have f_a : fld w.toNat 10 5 = a := fld_eq e3
  have f_b : fld w.toNat 5 5 = b := fld_eq e2
  have f_g : fld w.toNat 2 3 = g := fld_eq e1
  unfold decode
  rw [show w.toNat / 134217728 % 16 = 2 from e6]
  change decodeScalarReg _ = _
  unfold decodeScalarReg
  rw [show w.toNat / 1048576 % 128 = 47 from e5]
  refine (if_pos (by simpa using e0)).trans ?_
  rw [f_d, f_a, f_b, f_g]
  exact if_pos hw

theorem sel (d : BitVec 5) (a : BitVec 5) (b : BitVec 5) (p : BitVec 3) : Statement (.sel d a b p) := by
  intro c w hw h
  change pack c 318767104 (32768 * d.toNat + 1024 * a.toNat + 32 * b.toNat + 4 * p.toNat) = some w at h
  have hd := d.isLt
  have ha := a.isLt
  have hb := b.isLt
  have hp := p.isLt
  obtain ⟨e0, e1, e2, e3, e4, e5, e6, -⟩ := pack_reads h [(0, 2), (p.toNat, 3), (b.toNat, 5), (a.toNat, 5), (d.toNat, 5), (48, 7), (2, 4)]
    ⟨by omega, by omega, by omega, by omega, by omega, by omega, by omega, trivial⟩ (by simp only [runs]; omega) rfl (by omega)
  have f_d : fld w.toNat 15 5 = d := fld_eq e4
  have f_a : fld w.toNat 10 5 = a := fld_eq e3
  have f_b : fld w.toNat 5 5 = b := fld_eq e2
  have f_p : fld w.toNat 2 3 = p := fld_eq e1
  unfold decode
  rw [show w.toNat / 134217728 % 16 = 2 from e6]
  change decodeScalarReg _ = _
  unfold decodeScalarReg
  rw [show w.toNat / 1048576 % 128 = 48 from e5]
  refine (if_pos (by simpa using e0)).trans ?_
  rw [f_d, f_a, f_b, f_p]
  exact if_pos hw

theorem cmpEqSr (p : BitVec 3) (a : BitVec 5) (b : BitVec 5) (g : BitVec 3) : Statement (.cmpEqSr p a b g) := by
  intro c w hw h
  change pack c 327155712 (32768 * p.toNat + 1024 * a.toNat + 32 * b.toNat + 4 * g.toNat) = some w at h
  have hp := p.isLt
  have ha := a.isLt
  have hb := b.isLt
  have hg := g.isLt
  obtain ⟨e0, e1, e2, e3, e4, e5, e6, e7, -⟩ := pack_reads h [(0, 2), (g.toNat, 3), (b.toNat, 5), (a.toNat, 5), (p.toNat, 3), (0, 2), (56, 7), (2, 4)]
    ⟨by omega, by omega, by omega, by omega, by omega, by omega, by omega, by omega, trivial⟩ (by simp only [runs]; omega) rfl (by omega)
  have f_p : fld w.toNat 15 3 = p := fld_eq e4
  have f_a : fld w.toNat 10 5 = a := fld_eq e3
  have f_b : fld w.toNat 5 5 = b := fld_eq e2
  have f_g : fld w.toNat 2 3 = g := fld_eq e1
  unfold decode
  rw [show w.toNat / 134217728 % 16 = 2 from e7]
  change decodeScalarReg _ = _
  unfold decodeScalarReg
  rw [show w.toNat / 1048576 % 128 = 56 from e6]
  refine (if_pos ⟨e5, (by simpa using e0)⟩).trans ?_
  rw [f_p, f_a, f_b, f_g]
  exact if_pos hw

theorem cmpEqSi (p : BitVec 3) (a : BitVec 5) (i : BitVec 10) : Statement (.cmpEqSi p a i) := by
  intro c w hw h
  change pack c 461373440 (32768 * p.toNat + 1024 * a.toNat + i.toNat) = some w at h
  have hp := p.isLt
  have ha := a.isLt
  have hi := i.isLt
  obtain ⟨e0, e1, e2, e3, e4, e5, -⟩ := pack_reads h [(i.toNat, 10), (a.toNat, 5), (p.toNat, 3), (0, 2), (56, 7), (3, 4)]
    ⟨by omega, by omega, by omega, by omega, by omega, by omega, trivial⟩ (by simp only [runs]; omega) rfl (by omega)
  have f_p : fld w.toNat 15 3 = p := fld_eq e2
  have f_a : fld w.toNat 10 5 = a := fld_eq e1
  have f_i : fld w.toNat 0 10 = i := fld_eq e0
  unfold decode
  rw [show w.toNat / 134217728 % 16 = 3 from e5]
  change decodeScalarImm _ = _
  unfold decodeScalarImm
  rw [show w.toNat / 1048576 % 128 = 56 from e4]
  refine (if_pos e3).trans ?_
  rw [f_p, f_a, f_i]
  exact if_pos hw

theorem cmpNeSr (p : BitVec 3) (a : BitVec 5) (b : BitVec 5) (g : BitVec 3) : Statement (.cmpNeSr p a b g) := by
  intro c w hw h
  change pack c 328204288 (32768 * p.toNat + 1024 * a.toNat + 32 * b.toNat + 4 * g.toNat) = some w at h
  have hp := p.isLt
  have ha := a.isLt
  have hb := b.isLt
  have hg := g.isLt
  obtain ⟨e0, e1, e2, e3, e4, e5, e6, e7, -⟩ := pack_reads h [(0, 2), (g.toNat, 3), (b.toNat, 5), (a.toNat, 5), (p.toNat, 3), (0, 2), (57, 7), (2, 4)]
    ⟨by omega, by omega, by omega, by omega, by omega, by omega, by omega, by omega, trivial⟩ (by simp only [runs]; omega) rfl (by omega)
  have f_p : fld w.toNat 15 3 = p := fld_eq e4
  have f_a : fld w.toNat 10 5 = a := fld_eq e3
  have f_b : fld w.toNat 5 5 = b := fld_eq e2
  have f_g : fld w.toNat 2 3 = g := fld_eq e1
  unfold decode
  rw [show w.toNat / 134217728 % 16 = 2 from e7]
  change decodeScalarReg _ = _
  unfold decodeScalarReg
  rw [show w.toNat / 1048576 % 128 = 57 from e6]
  refine (if_pos ⟨e5, (by simpa using e0)⟩).trans ?_
  rw [f_p, f_a, f_b, f_g]
  exact if_pos hw

theorem cmpNeSi (p : BitVec 3) (a : BitVec 5) (i : BitVec 10) : Statement (.cmpNeSi p a i) := by
  intro c w hw h
  change pack c 462422016 (32768 * p.toNat + 1024 * a.toNat + i.toNat) = some w at h
  have hp := p.isLt
  have ha := a.isLt
  have hi := i.isLt
  obtain ⟨e0, e1, e2, e3, e4, e5, -⟩ := pack_reads h [(i.toNat, 10), (a.toNat, 5), (p.toNat, 3), (0, 2), (57, 7), (3, 4)]
    ⟨by omega, by omega, by omega, by omega, by omega, by omega, trivial⟩ (by simp only [runs]; omega) rfl (by omega)
  have f_p : fld w.toNat 15 3 = p := fld_eq e2
  have f_a : fld w.toNat 10 5 = a := fld_eq e1
  have f_i : fld w.toNat 0 10 = i := fld_eq e0
  unfold decode
  rw [show w.toNat / 134217728 % 16 = 3 from e5]
  change decodeScalarImm _ = _
  unfold decodeScalarImm
  rw [show w.toNat / 1048576 % 128 = 57 from e4]
  refine (if_pos e3).trans ?_
  rw [f_p, f_a, f_i]
  exact if_pos hw

theorem cmpLtSr (p : BitVec 3) (a : BitVec 5) (b : BitVec 5) (g : BitVec 3) : Statement (.cmpLtSr p a b g) := by
  intro c w hw h
  change pack c 329252864 (32768 * p.toNat + 1024 * a.toNat + 32 * b.toNat + 4 * g.toNat) = some w at h
  have hp := p.isLt
  have ha := a.isLt
  have hb := b.isLt
  have hg := g.isLt
  obtain ⟨e0, e1, e2, e3, e4, e5, e6, e7, -⟩ := pack_reads h [(0, 2), (g.toNat, 3), (b.toNat, 5), (a.toNat, 5), (p.toNat, 3), (0, 2), (58, 7), (2, 4)]
    ⟨by omega, by omega, by omega, by omega, by omega, by omega, by omega, by omega, trivial⟩ (by simp only [runs]; omega) rfl (by omega)
  have f_p : fld w.toNat 15 3 = p := fld_eq e4
  have f_a : fld w.toNat 10 5 = a := fld_eq e3
  have f_b : fld w.toNat 5 5 = b := fld_eq e2
  have f_g : fld w.toNat 2 3 = g := fld_eq e1
  unfold decode
  rw [show w.toNat / 134217728 % 16 = 2 from e7]
  change decodeScalarReg _ = _
  unfold decodeScalarReg
  rw [show w.toNat / 1048576 % 128 = 58 from e6]
  refine (if_pos ⟨e5, (by simpa using e0)⟩).trans ?_
  rw [f_p, f_a, f_b, f_g]
  exact if_pos hw

theorem cmpLtSi (p : BitVec 3) (a : BitVec 5) (i : BitVec 10) : Statement (.cmpLtSi p a i) := by
  intro c w hw h
  change pack c 463470592 (32768 * p.toNat + 1024 * a.toNat + i.toNat) = some w at h
  have hp := p.isLt
  have ha := a.isLt
  have hi := i.isLt
  obtain ⟨e0, e1, e2, e3, e4, e5, -⟩ := pack_reads h [(i.toNat, 10), (a.toNat, 5), (p.toNat, 3), (0, 2), (58, 7), (3, 4)]
    ⟨by omega, by omega, by omega, by omega, by omega, by omega, trivial⟩ (by simp only [runs]; omega) rfl (by omega)
  have f_p : fld w.toNat 15 3 = p := fld_eq e2
  have f_a : fld w.toNat 10 5 = a := fld_eq e1
  have f_i : fld w.toNat 0 10 = i := fld_eq e0
  unfold decode
  rw [show w.toNat / 134217728 % 16 = 3 from e5]
  change decodeScalarImm _ = _
  unfold decodeScalarImm
  rw [show w.toNat / 1048576 % 128 = 58 from e4]
  refine (if_pos e3).trans ?_
  rw [f_p, f_a, f_i]
  exact if_pos hw

theorem cmpGeSr (p : BitVec 3) (a : BitVec 5) (b : BitVec 5) (g : BitVec 3) : Statement (.cmpGeSr p a b g) := by
  intro c w hw h
  change pack c 330301440 (32768 * p.toNat + 1024 * a.toNat + 32 * b.toNat + 4 * g.toNat) = some w at h
  have hp := p.isLt
  have ha := a.isLt
  have hb := b.isLt
  have hg := g.isLt
  obtain ⟨e0, e1, e2, e3, e4, e5, e6, e7, -⟩ := pack_reads h [(0, 2), (g.toNat, 3), (b.toNat, 5), (a.toNat, 5), (p.toNat, 3), (0, 2), (59, 7), (2, 4)]
    ⟨by omega, by omega, by omega, by omega, by omega, by omega, by omega, by omega, trivial⟩ (by simp only [runs]; omega) rfl (by omega)
  have f_p : fld w.toNat 15 3 = p := fld_eq e4
  have f_a : fld w.toNat 10 5 = a := fld_eq e3
  have f_b : fld w.toNat 5 5 = b := fld_eq e2
  have f_g : fld w.toNat 2 3 = g := fld_eq e1
  unfold decode
  rw [show w.toNat / 134217728 % 16 = 2 from e7]
  change decodeScalarReg _ = _
  unfold decodeScalarReg
  rw [show w.toNat / 1048576 % 128 = 59 from e6]
  refine (if_pos ⟨e5, (by simpa using e0)⟩).trans ?_
  rw [f_p, f_a, f_b, f_g]
  exact if_pos hw

theorem cmpGeSi (p : BitVec 3) (a : BitVec 5) (i : BitVec 10) : Statement (.cmpGeSi p a i) := by
  intro c w hw h
  change pack c 464519168 (32768 * p.toNat + 1024 * a.toNat + i.toNat) = some w at h
  have hp := p.isLt
  have ha := a.isLt
  have hi := i.isLt
  obtain ⟨e0, e1, e2, e3, e4, e5, -⟩ := pack_reads h [(i.toNat, 10), (a.toNat, 5), (p.toNat, 3), (0, 2), (59, 7), (3, 4)]
    ⟨by omega, by omega, by omega, by omega, by omega, by omega, trivial⟩ (by simp only [runs]; omega) rfl (by omega)
  have f_p : fld w.toNat 15 3 = p := fld_eq e2
  have f_a : fld w.toNat 10 5 = a := fld_eq e1
  have f_i : fld w.toNat 0 10 = i := fld_eq e0
  unfold decode
  rw [show w.toNat / 134217728 % 16 = 3 from e5]
  change decodeScalarImm _ = _
  unfold decodeScalarImm
  rw [show w.toNat / 1048576 % 128 = 59 from e4]
  refine (if_pos e3).trans ?_
  rw [f_p, f_a, f_i]
  exact if_pos hw

theorem cmpLtuSr (p : BitVec 3) (a : BitVec 5) (b : BitVec 5) (g : BitVec 3) : Statement (.cmpLtuSr p a b g) := by
  intro c w hw h
  change pack c 331350016 (32768 * p.toNat + 1024 * a.toNat + 32 * b.toNat + 4 * g.toNat) = some w at h
  have hp := p.isLt
  have ha := a.isLt
  have hb := b.isLt
  have hg := g.isLt
  obtain ⟨e0, e1, e2, e3, e4, e5, e6, e7, -⟩ := pack_reads h [(0, 2), (g.toNat, 3), (b.toNat, 5), (a.toNat, 5), (p.toNat, 3), (0, 2), (60, 7), (2, 4)]
    ⟨by omega, by omega, by omega, by omega, by omega, by omega, by omega, by omega, trivial⟩ (by simp only [runs]; omega) rfl (by omega)
  have f_p : fld w.toNat 15 3 = p := fld_eq e4
  have f_a : fld w.toNat 10 5 = a := fld_eq e3
  have f_b : fld w.toNat 5 5 = b := fld_eq e2
  have f_g : fld w.toNat 2 3 = g := fld_eq e1
  unfold decode
  rw [show w.toNat / 134217728 % 16 = 2 from e7]
  change decodeScalarReg _ = _
  unfold decodeScalarReg
  rw [show w.toNat / 1048576 % 128 = 60 from e6]
  refine (if_pos ⟨e5, (by simpa using e0)⟩).trans ?_
  rw [f_p, f_a, f_b, f_g]
  exact if_pos hw

theorem cmpLtuSi (p : BitVec 3) (a : BitVec 5) (i : BitVec 10) : Statement (.cmpLtuSi p a i) := by
  intro c w hw h
  change pack c 465567744 (32768 * p.toNat + 1024 * a.toNat + i.toNat) = some w at h
  have hp := p.isLt
  have ha := a.isLt
  have hi := i.isLt
  obtain ⟨e0, e1, e2, e3, e4, e5, -⟩ := pack_reads h [(i.toNat, 10), (a.toNat, 5), (p.toNat, 3), (0, 2), (60, 7), (3, 4)]
    ⟨by omega, by omega, by omega, by omega, by omega, by omega, trivial⟩ (by simp only [runs]; omega) rfl (by omega)
  have f_p : fld w.toNat 15 3 = p := fld_eq e2
  have f_a : fld w.toNat 10 5 = a := fld_eq e1
  have f_i : fld w.toNat 0 10 = i := fld_eq e0
  unfold decode
  rw [show w.toNat / 134217728 % 16 = 3 from e5]
  change decodeScalarImm _ = _
  unfold decodeScalarImm
  rw [show w.toNat / 1048576 % 128 = 60 from e4]
  refine (if_pos e3).trans ?_
  rw [f_p, f_a, f_i]
  exact if_pos hw

theorem cmpGeuSr (p : BitVec 3) (a : BitVec 5) (b : BitVec 5) (g : BitVec 3) : Statement (.cmpGeuSr p a b g) := by
  intro c w hw h
  change pack c 332398592 (32768 * p.toNat + 1024 * a.toNat + 32 * b.toNat + 4 * g.toNat) = some w at h
  have hp := p.isLt
  have ha := a.isLt
  have hb := b.isLt
  have hg := g.isLt
  obtain ⟨e0, e1, e2, e3, e4, e5, e6, e7, -⟩ := pack_reads h [(0, 2), (g.toNat, 3), (b.toNat, 5), (a.toNat, 5), (p.toNat, 3), (0, 2), (61, 7), (2, 4)]
    ⟨by omega, by omega, by omega, by omega, by omega, by omega, by omega, by omega, trivial⟩ (by simp only [runs]; omega) rfl (by omega)
  have f_p : fld w.toNat 15 3 = p := fld_eq e4
  have f_a : fld w.toNat 10 5 = a := fld_eq e3
  have f_b : fld w.toNat 5 5 = b := fld_eq e2
  have f_g : fld w.toNat 2 3 = g := fld_eq e1
  unfold decode
  rw [show w.toNat / 134217728 % 16 = 2 from e7]
  change decodeScalarReg _ = _
  unfold decodeScalarReg
  rw [show w.toNat / 1048576 % 128 = 61 from e6]
  refine (if_pos ⟨e5, (by simpa using e0)⟩).trans ?_
  rw [f_p, f_a, f_b, f_g]
  exact if_pos hw

theorem cmpGeuSi (p : BitVec 3) (a : BitVec 5) (i : BitVec 10) : Statement (.cmpGeuSi p a i) := by
  intro c w hw h
  change pack c 466616320 (32768 * p.toNat + 1024 * a.toNat + i.toNat) = some w at h
  have hp := p.isLt
  have ha := a.isLt
  have hi := i.isLt
  obtain ⟨e0, e1, e2, e3, e4, e5, -⟩ := pack_reads h [(i.toNat, 10), (a.toNat, 5), (p.toNat, 3), (0, 2), (61, 7), (3, 4)]
    ⟨by omega, by omega, by omega, by omega, by omega, by omega, trivial⟩ (by simp only [runs]; omega) rfl (by omega)
  have f_p : fld w.toNat 15 3 = p := fld_eq e2
  have f_a : fld w.toNat 10 5 = a := fld_eq e1
  have f_i : fld w.toNat 0 10 = i := fld_eq e0
  unfold decode
  rw [show w.toNat / 134217728 % 16 = 3 from e5]
  change decodeScalarImm _ = _
  unfold decodeScalarImm
  rw [show w.toNat / 1048576 % 128 = 61 from e4]
  refine (if_pos e3).trans ?_
  rw [f_p, f_a, f_i]
  exact if_pos hw

theorem plogAnd (d : BitVec 3) (a : BitVec 3) (b : BitVec 3) (g : BitVec 3) : Statement (.plogAnd d a b g) := by
  intro c w hw h
  change pack c 335544320 (32768 * d.toNat + 1024 * a.toNat + 32 * b.toNat + 4 * g.toNat) = some w at h
  have hd := d.isLt
  have ha := a.isLt
  have hb := b.isLt
  have hg := g.isLt
  obtain ⟨e0, e1, e2, e3, e4, e5, e6, e7, e8, e9, -⟩ := pack_reads h [(0, 2), (g.toNat, 3), (b.toNat, 3), (0, 2), (a.toNat, 3), (0, 2), (d.toNat, 3), (0, 2), (64, 7), (2, 4)]
    ⟨by omega, by omega, by omega, by omega, by omega, by omega, by omega, by omega, by omega, by omega, trivial⟩ (by simp only [runs]; omega) rfl (by omega)
  have f_d : fld w.toNat 15 3 = d := fld_eq e6
  have f_a : fld w.toNat 10 3 = a := fld_eq e4
  have f_b : fld w.toNat 5 3 = b := fld_eq e2
  have f_g : fld w.toNat 2 3 = g := fld_eq e1
  unfold decode
  rw [show w.toNat / 134217728 % 16 = 2 from e9]
  change decodeScalarReg _ = _
  unfold decodeScalarReg
  rw [show w.toNat / 1048576 % 128 = 64 from e8]
  refine (if_pos ⟨e7, e5, e3, (by simpa using e0)⟩).trans ?_
  rw [f_d, f_a, f_b, f_g]
  exact if_pos hw

theorem plogOr (d : BitVec 3) (a : BitVec 3) (b : BitVec 3) (g : BitVec 3) : Statement (.plogOr d a b g) := by
  intro c w hw h
  change pack c 336592896 (32768 * d.toNat + 1024 * a.toNat + 32 * b.toNat + 4 * g.toNat) = some w at h
  have hd := d.isLt
  have ha := a.isLt
  have hb := b.isLt
  have hg := g.isLt
  obtain ⟨e0, e1, e2, e3, e4, e5, e6, e7, e8, e9, -⟩ := pack_reads h [(0, 2), (g.toNat, 3), (b.toNat, 3), (0, 2), (a.toNat, 3), (0, 2), (d.toNat, 3), (0, 2), (65, 7), (2, 4)]
    ⟨by omega, by omega, by omega, by omega, by omega, by omega, by omega, by omega, by omega, by omega, trivial⟩ (by simp only [runs]; omega) rfl (by omega)
  have f_d : fld w.toNat 15 3 = d := fld_eq e6
  have f_a : fld w.toNat 10 3 = a := fld_eq e4
  have f_b : fld w.toNat 5 3 = b := fld_eq e2
  have f_g : fld w.toNat 2 3 = g := fld_eq e1
  unfold decode
  rw [show w.toNat / 134217728 % 16 = 2 from e9]
  change decodeScalarReg _ = _
  unfold decodeScalarReg
  rw [show w.toNat / 1048576 % 128 = 65 from e8]
  refine (if_pos ⟨e7, e5, e3, (by simpa using e0)⟩).trans ?_
  rw [f_d, f_a, f_b, f_g]
  exact if_pos hw

theorem plogXor (d : BitVec 3) (a : BitVec 3) (b : BitVec 3) (g : BitVec 3) : Statement (.plogXor d a b g) := by
  intro c w hw h
  change pack c 337641472 (32768 * d.toNat + 1024 * a.toNat + 32 * b.toNat + 4 * g.toNat) = some w at h
  have hd := d.isLt
  have ha := a.isLt
  have hb := b.isLt
  have hg := g.isLt
  obtain ⟨e0, e1, e2, e3, e4, e5, e6, e7, e8, e9, -⟩ := pack_reads h [(0, 2), (g.toNat, 3), (b.toNat, 3), (0, 2), (a.toNat, 3), (0, 2), (d.toNat, 3), (0, 2), (66, 7), (2, 4)]
    ⟨by omega, by omega, by omega, by omega, by omega, by omega, by omega, by omega, by omega, by omega, trivial⟩ (by simp only [runs]; omega) rfl (by omega)
  have f_d : fld w.toNat 15 3 = d := fld_eq e6
  have f_a : fld w.toNat 10 3 = a := fld_eq e4
  have f_b : fld w.toNat 5 3 = b := fld_eq e2
  have f_g : fld w.toNat 2 3 = g := fld_eq e1
  unfold decode
  rw [show w.toNat / 134217728 % 16 = 2 from e9]
  change decodeScalarReg _ = _
  unfold decodeScalarReg
  rw [show w.toNat / 1048576 % 128 = 66 from e8]
  refine (if_pos ⟨e7, e5, e3, (by simpa using e0)⟩).trans ?_
  rw [f_d, f_a, f_b, f_g]
  exact if_pos hw

theorem plogAndn (d : BitVec 3) (a : BitVec 3) (b : BitVec 3) (g : BitVec 3) : Statement (.plogAndn d a b g) := by
  intro c w hw h
  change pack c 338690048 (32768 * d.toNat + 1024 * a.toNat + 32 * b.toNat + 4 * g.toNat) = some w at h
  have hd := d.isLt
  have ha := a.isLt
  have hb := b.isLt
  have hg := g.isLt
  obtain ⟨e0, e1, e2, e3, e4, e5, e6, e7, e8, e9, -⟩ := pack_reads h [(0, 2), (g.toNat, 3), (b.toNat, 3), (0, 2), (a.toNat, 3), (0, 2), (d.toNat, 3), (0, 2), (67, 7), (2, 4)]
    ⟨by omega, by omega, by omega, by omega, by omega, by omega, by omega, by omega, by omega, by omega, trivial⟩ (by simp only [runs]; omega) rfl (by omega)
  have f_d : fld w.toNat 15 3 = d := fld_eq e6
  have f_a : fld w.toNat 10 3 = a := fld_eq e4
  have f_b : fld w.toNat 5 3 = b := fld_eq e2
  have f_g : fld w.toNat 2 3 = g := fld_eq e1
  unfold decode
  rw [show w.toNat / 134217728 % 16 = 2 from e9]
  change decodeScalarReg _ = _
  unfold decodeScalarReg
  rw [show w.toNat / 1048576 % 128 = 67 from e8]
  refine (if_pos ⟨e7, e5, e3, (by simpa using e0)⟩).trans ?_
  rw [f_d, f_a, f_b, f_g]
  exact if_pos hw

theorem movi (d : BitVec 5) (i : BitVec 10) : Statement (.movi d i) := by
  intro c w hw h
  change pack c 486539264 (32768 * d.toNat + i.toNat) = some w at h
  have hd := d.isLt
  have hi := i.isLt
  obtain ⟨e0, e1, e2, e3, e4, -⟩ := pack_reads h [(i.toNat, 10), (0, 5), (d.toNat, 5), (80, 7), (3, 4)]
    ⟨by omega, by omega, by omega, by omega, by omega, trivial⟩ (by simp only [runs]; omega) rfl (by omega)
  have f_d : fld w.toNat 15 5 = d := fld_eq e2
  have f_i : fld w.toNat 0 10 = i := fld_eq e0
  unfold decode
  rw [show w.toNat / 134217728 % 16 = 3 from e4]
  change decodeScalarImm _ = _
  unfold decodeScalarImm
  rw [show w.toNat / 1048576 % 128 = 80 from e3]
  refine (if_pos e1).trans ?_
  rw [f_d, f_i]
  exact if_pos hw

theorem limm (i : BitVec 27) : Statement (.limm i) := by
  intro c w hw h
  change pack c 536870912 (i.toNat) = some w at h
  have hi := i.isLt
  obtain ⟨e0, e1, -⟩ := pack_reads h [(i.toNat, 27), (4, 4)]
    ⟨by omega, by omega, trivial⟩ (by simp only [runs]; omega) rfl (by omega)
  have f_i : fld w.toNat 0 27 = i := fld_eq e0
  unfold decode
  rw [show w.toNat / 134217728 % 16 = 4 from e1]
  change decodeLimm _ = _
  unfold decodeLimm
  change accept (.limm (fld _ 0 27)) = _
  rw [f_i]
  exact if_pos hw

theorem vadd (x : BitVec 1) (t : BitVec 2) (d : BitVec 5) (a : BitVec 5) (b : BitVec 5) (m : BitVec 3) (z : BitVec 1) : Statement (.vadd x t d a b m z) := by
  intro c w hw h
  change pack c 671088640 (67108864 * x.toNat + 524288 * t.toNat + 16384 * d.toNat + 512 * a.toNat + 16 * b.toNat + 2 * m.toNat + z.toNat) = some w at h
  have hx := x.isLt
  have ht := t.isLt
  have hd := d.isLt
  have ha := a.isLt
  have hb := b.isLt
  have hm := m.isLt
  have hz := z.isLt
  obtain ⟨e0, e1, e2, e3, e4, e5, e6, e7, e8, -⟩ := pack_reads h [(z.toNat, 1), (m.toNat, 3), (b.toNat, 5), (a.toNat, 5), (d.toNat, 5), (t.toNat, 2), (0, 5), (x.toNat, 1), (5, 4)]
    ⟨by omega, by omega, by omega, by omega, by omega, by omega, by omega, by omega, by omega, trivial⟩ (by simp only [runs]; omega) rfl (by omega)
  have f_x : fld w.toNat 26 1 = x := fld_eq e7
  have f_t : fld w.toNat 19 2 = t := fld_eq e5
  have f_d : fld w.toNat 14 5 = d := fld_eq e4
  have f_a : fld w.toNat 9 5 = a := fld_eq e3
  have f_b : fld w.toNat 4 5 = b := fld_eq e2
  have f_m : fld w.toNat 1 3 = m := fld_eq e1
  have f_z : fld w.toNat 0 1 = z := fld_eq e0
  unfold decode
  rw [show w.toNat / 134217728 % 16 = 5 from e8]
  change decodeVectorArith _ = _
  unfold decodeVectorArith
  rw [show w.toNat / 2097152 % 32 = 0 from e6]
  change accept (.vadd (fld _ 26 1) (fld _ 19 2) (fld _ 14 5) (fld _ 9 5) (fld _ 4 5) (fld _ 1 3) (fld _ 0 1)) = _
  rw [f_x, f_t, f_d, f_a, f_b, f_m, f_z]
  exact if_pos hw

theorem vsub (x : BitVec 1) (t : BitVec 2) (d : BitVec 5) (a : BitVec 5) (b : BitVec 5) (m : BitVec 3) (z : BitVec 1) : Statement (.vsub x t d a b m z) := by
  intro c w hw h
  change pack c 673185792 (67108864 * x.toNat + 524288 * t.toNat + 16384 * d.toNat + 512 * a.toNat + 16 * b.toNat + 2 * m.toNat + z.toNat) = some w at h
  have hx := x.isLt
  have ht := t.isLt
  have hd := d.isLt
  have ha := a.isLt
  have hb := b.isLt
  have hm := m.isLt
  have hz := z.isLt
  obtain ⟨e0, e1, e2, e3, e4, e5, e6, e7, e8, -⟩ := pack_reads h [(z.toNat, 1), (m.toNat, 3), (b.toNat, 5), (a.toNat, 5), (d.toNat, 5), (t.toNat, 2), (1, 5), (x.toNat, 1), (5, 4)]
    ⟨by omega, by omega, by omega, by omega, by omega, by omega, by omega, by omega, by omega, trivial⟩ (by simp only [runs]; omega) rfl (by omega)
  have f_x : fld w.toNat 26 1 = x := fld_eq e7
  have f_t : fld w.toNat 19 2 = t := fld_eq e5
  have f_d : fld w.toNat 14 5 = d := fld_eq e4
  have f_a : fld w.toNat 9 5 = a := fld_eq e3
  have f_b : fld w.toNat 4 5 = b := fld_eq e2
  have f_m : fld w.toNat 1 3 = m := fld_eq e1
  have f_z : fld w.toNat 0 1 = z := fld_eq e0
  unfold decode
  rw [show w.toNat / 134217728 % 16 = 5 from e8]
  change decodeVectorArith _ = _
  unfold decodeVectorArith
  rw [show w.toNat / 2097152 % 32 = 1 from e6]
  change accept (.vsub (fld _ 26 1) (fld _ 19 2) (fld _ 14 5) (fld _ 9 5) (fld _ 4 5) (fld _ 1 3) (fld _ 0 1)) = _
  rw [f_x, f_t, f_d, f_a, f_b, f_m, f_z]
  exact if_pos hw

theorem vmul (x : BitVec 1) (t : BitVec 2) (d : BitVec 5) (a : BitVec 5) (b : BitVec 5) (m : BitVec 3) (z : BitVec 1) : Statement (.vmul x t d a b m z) := by
  intro c w hw h
  change pack c 675282944 (67108864 * x.toNat + 524288 * t.toNat + 16384 * d.toNat + 512 * a.toNat + 16 * b.toNat + 2 * m.toNat + z.toNat) = some w at h
  have hx := x.isLt
  have ht := t.isLt
  have hd := d.isLt
  have ha := a.isLt
  have hb := b.isLt
  have hm := m.isLt
  have hz := z.isLt
  obtain ⟨e0, e1, e2, e3, e4, e5, e6, e7, e8, -⟩ := pack_reads h [(z.toNat, 1), (m.toNat, 3), (b.toNat, 5), (a.toNat, 5), (d.toNat, 5), (t.toNat, 2), (2, 5), (x.toNat, 1), (5, 4)]
    ⟨by omega, by omega, by omega, by omega, by omega, by omega, by omega, by omega, by omega, trivial⟩ (by simp only [runs]; omega) rfl (by omega)
  have f_x : fld w.toNat 26 1 = x := fld_eq e7
  have f_t : fld w.toNat 19 2 = t := fld_eq e5
  have f_d : fld w.toNat 14 5 = d := fld_eq e4
  have f_a : fld w.toNat 9 5 = a := fld_eq e3
  have f_b : fld w.toNat 4 5 = b := fld_eq e2
  have f_m : fld w.toNat 1 3 = m := fld_eq e1
  have f_z : fld w.toNat 0 1 = z := fld_eq e0
  unfold decode
  rw [show w.toNat / 134217728 % 16 = 5 from e8]
  change decodeVectorArith _ = _
  unfold decodeVectorArith
  rw [show w.toNat / 2097152 % 32 = 2 from e6]
  change accept (.vmul (fld _ 26 1) (fld _ 19 2) (fld _ 14 5) (fld _ 9 5) (fld _ 4 5) (fld _ 1 3) (fld _ 0 1)) = _
  rw [f_x, f_t, f_d, f_a, f_b, f_m, f_z]
  exact if_pos hw

theorem vfma (x : BitVec 1) (t : BitVec 2) (d : BitVec 5) (a : BitVec 5) (b : BitVec 5) (m : BitVec 3) (z : BitVec 1) : Statement (.vfma x t d a b m z) := by
  intro c w hw h
  change pack c 677380096 (67108864 * x.toNat + 524288 * t.toNat + 16384 * d.toNat + 512 * a.toNat + 16 * b.toNat + 2 * m.toNat + z.toNat) = some w at h
  have hx := x.isLt
  have ht := t.isLt
  have hd := d.isLt
  have ha := a.isLt
  have hb := b.isLt
  have hm := m.isLt
  have hz := z.isLt
  obtain ⟨e0, e1, e2, e3, e4, e5, e6, e7, e8, -⟩ := pack_reads h [(z.toNat, 1), (m.toNat, 3), (b.toNat, 5), (a.toNat, 5), (d.toNat, 5), (t.toNat, 2), (3, 5), (x.toNat, 1), (5, 4)]
    ⟨by omega, by omega, by omega, by omega, by omega, by omega, by omega, by omega, by omega, trivial⟩ (by simp only [runs]; omega) rfl (by omega)
  have f_x : fld w.toNat 26 1 = x := fld_eq e7
  have f_t : fld w.toNat 19 2 = t := fld_eq e5
  have f_d : fld w.toNat 14 5 = d := fld_eq e4
  have f_a : fld w.toNat 9 5 = a := fld_eq e3
  have f_b : fld w.toNat 4 5 = b := fld_eq e2
  have f_m : fld w.toNat 1 3 = m := fld_eq e1
  have f_z : fld w.toNat 0 1 = z := fld_eq e0
  unfold decode
  rw [show w.toNat / 134217728 % 16 = 5 from e8]
  change decodeVectorArith _ = _
  unfold decodeVectorArith
  rw [show w.toNat / 2097152 % 32 = 3 from e6]
  change accept (.vfma (fld _ 26 1) (fld _ 19 2) (fld _ 14 5) (fld _ 9 5) (fld _ 4 5) (fld _ 1 3) (fld _ 0 1)) = _
  rw [f_x, f_t, f_d, f_a, f_b, f_m, f_z]
  exact if_pos hw

theorem vfms (x : BitVec 1) (t : BitVec 2) (d : BitVec 5) (a : BitVec 5) (b : BitVec 5) (m : BitVec 3) (z : BitVec 1) : Statement (.vfms x t d a b m z) := by
  intro c w hw h
  change pack c 679477248 (67108864 * x.toNat + 524288 * t.toNat + 16384 * d.toNat + 512 * a.toNat + 16 * b.toNat + 2 * m.toNat + z.toNat) = some w at h
  have hx := x.isLt
  have ht := t.isLt
  have hd := d.isLt
  have ha := a.isLt
  have hb := b.isLt
  have hm := m.isLt
  have hz := z.isLt
  obtain ⟨e0, e1, e2, e3, e4, e5, e6, e7, e8, -⟩ := pack_reads h [(z.toNat, 1), (m.toNat, 3), (b.toNat, 5), (a.toNat, 5), (d.toNat, 5), (t.toNat, 2), (4, 5), (x.toNat, 1), (5, 4)]
    ⟨by omega, by omega, by omega, by omega, by omega, by omega, by omega, by omega, by omega, trivial⟩ (by simp only [runs]; omega) rfl (by omega)
  have f_x : fld w.toNat 26 1 = x := fld_eq e7
  have f_t : fld w.toNat 19 2 = t := fld_eq e5
  have f_d : fld w.toNat 14 5 = d := fld_eq e4
  have f_a : fld w.toNat 9 5 = a := fld_eq e3
  have f_b : fld w.toNat 4 5 = b := fld_eq e2
  have f_m : fld w.toNat 1 3 = m := fld_eq e1
  have f_z : fld w.toNat 0 1 = z := fld_eq e0
  unfold decode
  rw [show w.toNat / 134217728 % 16 = 5 from e8]
  change decodeVectorArith _ = _
  unfold decodeVectorArith
  rw [show w.toNat / 2097152 % 32 = 4 from e6]
  change accept (.vfms (fld _ 26 1) (fld _ 19 2) (fld _ 14 5) (fld _ 9 5) (fld _ 4 5) (fld _ 1 3) (fld _ 0 1)) = _
  rw [f_x, f_t, f_d, f_a, f_b, f_m, f_z]
  exact if_pos hw

theorem vfnma (x : BitVec 1) (t : BitVec 2) (d : BitVec 5) (a : BitVec 5) (b : BitVec 5) (m : BitVec 3) (z : BitVec 1) : Statement (.vfnma x t d a b m z) := by
  intro c w hw h
  change pack c 681574400 (67108864 * x.toNat + 524288 * t.toNat + 16384 * d.toNat + 512 * a.toNat + 16 * b.toNat + 2 * m.toNat + z.toNat) = some w at h
  have hx := x.isLt
  have ht := t.isLt
  have hd := d.isLt
  have ha := a.isLt
  have hb := b.isLt
  have hm := m.isLt
  have hz := z.isLt
  obtain ⟨e0, e1, e2, e3, e4, e5, e6, e7, e8, -⟩ := pack_reads h [(z.toNat, 1), (m.toNat, 3), (b.toNat, 5), (a.toNat, 5), (d.toNat, 5), (t.toNat, 2), (5, 5), (x.toNat, 1), (5, 4)]
    ⟨by omega, by omega, by omega, by omega, by omega, by omega, by omega, by omega, by omega, trivial⟩ (by simp only [runs]; omega) rfl (by omega)
  have f_x : fld w.toNat 26 1 = x := fld_eq e7
  have f_t : fld w.toNat 19 2 = t := fld_eq e5
  have f_d : fld w.toNat 14 5 = d := fld_eq e4
  have f_a : fld w.toNat 9 5 = a := fld_eq e3
  have f_b : fld w.toNat 4 5 = b := fld_eq e2
  have f_m : fld w.toNat 1 3 = m := fld_eq e1
  have f_z : fld w.toNat 0 1 = z := fld_eq e0
  unfold decode
  rw [show w.toNat / 134217728 % 16 = 5 from e8]
  change decodeVectorArith _ = _
  unfold decodeVectorArith
  rw [show w.toNat / 2097152 % 32 = 5 from e6]
  change accept (.vfnma (fld _ 26 1) (fld _ 19 2) (fld _ 14 5) (fld _ 9 5) (fld _ 4 5) (fld _ 1 3) (fld _ 0 1)) = _
  rw [f_x, f_t, f_d, f_a, f_b, f_m, f_z]
  exact if_pos hw

theorem vmin (x : BitVec 1) (t : BitVec 2) (d : BitVec 5) (a : BitVec 5) (b : BitVec 5) (m : BitVec 3) (z : BitVec 1) : Statement (.vmin x t d a b m z) := by
  intro c w hw h
  change pack c 683671552 (67108864 * x.toNat + 524288 * t.toNat + 16384 * d.toNat + 512 * a.toNat + 16 * b.toNat + 2 * m.toNat + z.toNat) = some w at h
  have hx := x.isLt
  have ht := t.isLt
  have hd := d.isLt
  have ha := a.isLt
  have hb := b.isLt
  have hm := m.isLt
  have hz := z.isLt
  obtain ⟨e0, e1, e2, e3, e4, e5, e6, e7, e8, -⟩ := pack_reads h [(z.toNat, 1), (m.toNat, 3), (b.toNat, 5), (a.toNat, 5), (d.toNat, 5), (t.toNat, 2), (6, 5), (x.toNat, 1), (5, 4)]
    ⟨by omega, by omega, by omega, by omega, by omega, by omega, by omega, by omega, by omega, trivial⟩ (by simp only [runs]; omega) rfl (by omega)
  have f_x : fld w.toNat 26 1 = x := fld_eq e7
  have f_t : fld w.toNat 19 2 = t := fld_eq e5
  have f_d : fld w.toNat 14 5 = d := fld_eq e4
  have f_a : fld w.toNat 9 5 = a := fld_eq e3
  have f_b : fld w.toNat 4 5 = b := fld_eq e2
  have f_m : fld w.toNat 1 3 = m := fld_eq e1
  have f_z : fld w.toNat 0 1 = z := fld_eq e0
  unfold decode
  rw [show w.toNat / 134217728 % 16 = 5 from e8]
  change decodeVectorArith _ = _
  unfold decodeVectorArith
  rw [show w.toNat / 2097152 % 32 = 6 from e6]
  change accept (.vmin (fld _ 26 1) (fld _ 19 2) (fld _ 14 5) (fld _ 9 5) (fld _ 4 5) (fld _ 1 3) (fld _ 0 1)) = _
  rw [f_x, f_t, f_d, f_a, f_b, f_m, f_z]
  exact if_pos hw

theorem vmax (x : BitVec 1) (t : BitVec 2) (d : BitVec 5) (a : BitVec 5) (b : BitVec 5) (m : BitVec 3) (z : BitVec 1) : Statement (.vmax x t d a b m z) := by
  intro c w hw h
  change pack c 685768704 (67108864 * x.toNat + 524288 * t.toNat + 16384 * d.toNat + 512 * a.toNat + 16 * b.toNat + 2 * m.toNat + z.toNat) = some w at h
  have hx := x.isLt
  have ht := t.isLt
  have hd := d.isLt
  have ha := a.isLt
  have hb := b.isLt
  have hm := m.isLt
  have hz := z.isLt
  obtain ⟨e0, e1, e2, e3, e4, e5, e6, e7, e8, -⟩ := pack_reads h [(z.toNat, 1), (m.toNat, 3), (b.toNat, 5), (a.toNat, 5), (d.toNat, 5), (t.toNat, 2), (7, 5), (x.toNat, 1), (5, 4)]
    ⟨by omega, by omega, by omega, by omega, by omega, by omega, by omega, by omega, by omega, trivial⟩ (by simp only [runs]; omega) rfl (by omega)
  have f_x : fld w.toNat 26 1 = x := fld_eq e7
  have f_t : fld w.toNat 19 2 = t := fld_eq e5
  have f_d : fld w.toNat 14 5 = d := fld_eq e4
  have f_a : fld w.toNat 9 5 = a := fld_eq e3
  have f_b : fld w.toNat 4 5 = b := fld_eq e2
  have f_m : fld w.toNat 1 3 = m := fld_eq e1
  have f_z : fld w.toNat 0 1 = z := fld_eq e0
  unfold decode
  rw [show w.toNat / 134217728 % 16 = 5 from e8]
  change decodeVectorArith _ = _
  unfold decodeVectorArith
  rw [show w.toNat / 2097152 % 32 = 7 from e6]
  change accept (.vmax (fld _ 26 1) (fld _ 19 2) (fld _ 14 5) (fld _ 9 5) (fld _ 4 5) (fld _ 1 3) (fld _ 0 1)) = _
  rw [f_x, f_t, f_d, f_a, f_b, f_m, f_z]
  exact if_pos hw

theorem vabs (x : BitVec 1) (t : BitVec 2) (d : BitVec 5) (a : BitVec 5) (m : BitVec 3) (z : BitVec 1) : Statement (.vabs x t d a m z) := by
  intro c w hw h
  change pack c 687865856 (67108864 * x.toNat + 524288 * t.toNat + 16384 * d.toNat + 512 * a.toNat + 2 * m.toNat + z.toNat) = some w at h
  have hx := x.isLt
  have ht := t.isLt
  have hd := d.isLt
  have ha := a.isLt
  have hm := m.isLt
  have hz := z.isLt
  obtain ⟨e0, e1, e2, e3, e4, e5, e6, e7, e8, -⟩ := pack_reads h [(z.toNat, 1), (m.toNat, 3), (0, 5), (a.toNat, 5), (d.toNat, 5), (t.toNat, 2), (8, 5), (x.toNat, 1), (5, 4)]
    ⟨by omega, by omega, by omega, by omega, by omega, by omega, by omega, by omega, by omega, trivial⟩ (by simp only [runs]; omega) rfl (by omega)
  have f_x : fld w.toNat 26 1 = x := fld_eq e7
  have f_t : fld w.toNat 19 2 = t := fld_eq e5
  have f_d : fld w.toNat 14 5 = d := fld_eq e4
  have f_a : fld w.toNat 9 5 = a := fld_eq e3
  have f_m : fld w.toNat 1 3 = m := fld_eq e1
  have f_z : fld w.toNat 0 1 = z := fld_eq e0
  unfold decode
  rw [show w.toNat / 134217728 % 16 = 5 from e8]
  change decodeVectorArith _ = _
  unfold decodeVectorArith
  rw [show w.toNat / 2097152 % 32 = 8 from e6]
  refine (if_pos e2).trans ?_
  rw [f_x, f_t, f_d, f_a, f_m, f_z]
  exact if_pos hw

theorem vneg (x : BitVec 1) (t : BitVec 2) (d : BitVec 5) (a : BitVec 5) (m : BitVec 3) (z : BitVec 1) : Statement (.vneg x t d a m z) := by
  intro c w hw h
  change pack c 689963008 (67108864 * x.toNat + 524288 * t.toNat + 16384 * d.toNat + 512 * a.toNat + 2 * m.toNat + z.toNat) = some w at h
  have hx := x.isLt
  have ht := t.isLt
  have hd := d.isLt
  have ha := a.isLt
  have hm := m.isLt
  have hz := z.isLt
  obtain ⟨e0, e1, e2, e3, e4, e5, e6, e7, e8, -⟩ := pack_reads h [(z.toNat, 1), (m.toNat, 3), (0, 5), (a.toNat, 5), (d.toNat, 5), (t.toNat, 2), (9, 5), (x.toNat, 1), (5, 4)]
    ⟨by omega, by omega, by omega, by omega, by omega, by omega, by omega, by omega, by omega, trivial⟩ (by simp only [runs]; omega) rfl (by omega)
  have f_x : fld w.toNat 26 1 = x := fld_eq e7
  have f_t : fld w.toNat 19 2 = t := fld_eq e5
  have f_d : fld w.toNat 14 5 = d := fld_eq e4
  have f_a : fld w.toNat 9 5 = a := fld_eq e3
  have f_m : fld w.toNat 1 3 = m := fld_eq e1
  have f_z : fld w.toNat 0 1 = z := fld_eq e0
  unfold decode
  rw [show w.toNat / 134217728 % 16 = 5 from e8]
  change decodeVectorArith _ = _
  unfold decodeVectorArith
  rw [show w.toNat / 2097152 % 32 = 9 from e6]
  refine (if_pos e2).trans ?_
  rw [f_x, f_t, f_d, f_a, f_m, f_z]
  exact if_pos hw

theorem vdiv (x : BitVec 1) (t : BitVec 2) (d : BitVec 5) (a : BitVec 5) (b : BitVec 5) (m : BitVec 3) (z : BitVec 1) : Statement (.vdiv x t d a b m z) := by
  intro c w hw h
  change pack c 692060160 (67108864 * x.toNat + 524288 * t.toNat + 16384 * d.toNat + 512 * a.toNat + 16 * b.toNat + 2 * m.toNat + z.toNat) = some w at h
  have hx := x.isLt
  have ht := t.isLt
  have hd := d.isLt
  have ha := a.isLt
  have hb := b.isLt
  have hm := m.isLt
  have hz := z.isLt
  obtain ⟨e0, e1, e2, e3, e4, e5, e6, e7, e8, -⟩ := pack_reads h [(z.toNat, 1), (m.toNat, 3), (b.toNat, 5), (a.toNat, 5), (d.toNat, 5), (t.toNat, 2), (10, 5), (x.toNat, 1), (5, 4)]
    ⟨by omega, by omega, by omega, by omega, by omega, by omega, by omega, by omega, by omega, trivial⟩ (by simp only [runs]; omega) rfl (by omega)
  have f_x : fld w.toNat 26 1 = x := fld_eq e7
  have f_t : fld w.toNat 19 2 = t := fld_eq e5
  have f_d : fld w.toNat 14 5 = d := fld_eq e4
  have f_a : fld w.toNat 9 5 = a := fld_eq e3
  have f_b : fld w.toNat 4 5 = b := fld_eq e2
  have f_m : fld w.toNat 1 3 = m := fld_eq e1
  have f_z : fld w.toNat 0 1 = z := fld_eq e0
  unfold decode
  rw [show w.toNat / 134217728 % 16 = 5 from e8]
  change decodeVectorArith _ = _
  unfold decodeVectorArith
  rw [show w.toNat / 2097152 % 32 = 10 from e6]
  change accept (.vdiv (fld _ 26 1) (fld _ 19 2) (fld _ 14 5) (fld _ 9 5) (fld _ 4 5) (fld _ 1 3) (fld _ 0 1)) = _
  rw [f_x, f_t, f_d, f_a, f_b, f_m, f_z]
  exact if_pos hw

theorem vsqrt (x : BitVec 1) (t : BitVec 2) (d : BitVec 5) (a : BitVec 5) (m : BitVec 3) (z : BitVec 1) : Statement (.vsqrt x t d a m z) := by
  intro c w hw h
  change pack c 694157312 (67108864 * x.toNat + 524288 * t.toNat + 16384 * d.toNat + 512 * a.toNat + 2 * m.toNat + z.toNat) = some w at h
  have hx := x.isLt
  have ht := t.isLt
  have hd := d.isLt
  have ha := a.isLt
  have hm := m.isLt
  have hz := z.isLt
  obtain ⟨e0, e1, e2, e3, e4, e5, e6, e7, e8, -⟩ := pack_reads h [(z.toNat, 1), (m.toNat, 3), (0, 5), (a.toNat, 5), (d.toNat, 5), (t.toNat, 2), (11, 5), (x.toNat, 1), (5, 4)]
    ⟨by omega, by omega, by omega, by omega, by omega, by omega, by omega, by omega, by omega, trivial⟩ (by simp only [runs]; omega) rfl (by omega)
  have f_x : fld w.toNat 26 1 = x := fld_eq e7
  have f_t : fld w.toNat 19 2 = t := fld_eq e5
  have f_d : fld w.toNat 14 5 = d := fld_eq e4
  have f_a : fld w.toNat 9 5 = a := fld_eq e3
  have f_m : fld w.toNat 1 3 = m := fld_eq e1
  have f_z : fld w.toNat 0 1 = z := fld_eq e0
  unfold decode
  rw [show w.toNat / 134217728 % 16 = 5 from e8]
  change decodeVectorArith _ = _
  unfold decodeVectorArith
  rw [show w.toNat / 2097152 % 32 = 11 from e6]
  refine (if_pos e2).trans ?_
  rw [f_x, f_t, f_d, f_a, f_m, f_z]
  exact if_pos hw

theorem vcmpEqFloat (x : BitVec 1) (t : BitVec 2) (k : BitVec 3) (a : BitVec 5) (b : BitVec 5) (m : BitVec 3) (z : BitVec 1) : Statement (.vcmpEqFloat x t k a b m z) := by
  intro c w hw h
  change pack c 696254464 (67108864 * x.toNat + 524288 * t.toNat + 16384 * k.toNat + 512 * a.toNat + 16 * b.toNat + 2 * m.toNat + z.toNat) = some w at h
  have hx := x.isLt
  have ht := t.isLt
  have hk := k.isLt
  have ha := a.isLt
  have hb := b.isLt
  have hm := m.isLt
  have hz := z.isLt
  obtain ⟨e0, e1, e2, e3, e4, e5, e6, e7, e8, e9, -⟩ := pack_reads h [(z.toNat, 1), (m.toNat, 3), (b.toNat, 5), (a.toNat, 5), (k.toNat, 3), (0, 2), (t.toNat, 2), (12, 5), (x.toNat, 1), (5, 4)]
    ⟨by omega, by omega, by omega, by omega, by omega, by omega, by omega, by omega, by omega, by omega, trivial⟩ (by simp only [runs]; omega) rfl (by omega)
  have f_x : fld w.toNat 26 1 = x := fld_eq e8
  have f_t : fld w.toNat 19 2 = t := fld_eq e6
  have f_k : fld w.toNat 14 3 = k := fld_eq e4
  have f_a : fld w.toNat 9 5 = a := fld_eq e3
  have f_b : fld w.toNat 4 5 = b := fld_eq e2
  have f_m : fld w.toNat 1 3 = m := fld_eq e1
  have f_z : fld w.toNat 0 1 = z := fld_eq e0
  unfold decode
  rw [show w.toNat / 134217728 % 16 = 5 from e9]
  change decodeVectorArith _ = _
  unfold decodeVectorArith
  rw [show w.toNat / 2097152 % 32 = 12 from e7]
  refine (if_pos e5).trans ?_
  rw [f_x, f_t, f_k, f_a, f_b, f_m, f_z]
  exact if_pos hw

theorem vcmpLtFloat (x : BitVec 1) (t : BitVec 2) (k : BitVec 3) (a : BitVec 5) (b : BitVec 5) (m : BitVec 3) (z : BitVec 1) : Statement (.vcmpLtFloat x t k a b m z) := by
  intro c w hw h
  change pack c 698351616 (67108864 * x.toNat + 524288 * t.toNat + 16384 * k.toNat + 512 * a.toNat + 16 * b.toNat + 2 * m.toNat + z.toNat) = some w at h
  have hx := x.isLt
  have ht := t.isLt
  have hk := k.isLt
  have ha := a.isLt
  have hb := b.isLt
  have hm := m.isLt
  have hz := z.isLt
  obtain ⟨e0, e1, e2, e3, e4, e5, e6, e7, e8, e9, -⟩ := pack_reads h [(z.toNat, 1), (m.toNat, 3), (b.toNat, 5), (a.toNat, 5), (k.toNat, 3), (0, 2), (t.toNat, 2), (13, 5), (x.toNat, 1), (5, 4)]
    ⟨by omega, by omega, by omega, by omega, by omega, by omega, by omega, by omega, by omega, by omega, trivial⟩ (by simp only [runs]; omega) rfl (by omega)
  have f_x : fld w.toNat 26 1 = x := fld_eq e8
  have f_t : fld w.toNat 19 2 = t := fld_eq e6
  have f_k : fld w.toNat 14 3 = k := fld_eq e4
  have f_a : fld w.toNat 9 5 = a := fld_eq e3
  have f_b : fld w.toNat 4 5 = b := fld_eq e2
  have f_m : fld w.toNat 1 3 = m := fld_eq e1
  have f_z : fld w.toNat 0 1 = z := fld_eq e0
  unfold decode
  rw [show w.toNat / 134217728 % 16 = 5 from e9]
  change decodeVectorArith _ = _
  unfold decodeVectorArith
  rw [show w.toNat / 2097152 % 32 = 13 from e7]
  refine (if_pos e5).trans ?_
  rw [f_x, f_t, f_k, f_a, f_b, f_m, f_z]
  exact if_pos hw

theorem vcmpLeFloat (x : BitVec 1) (t : BitVec 2) (k : BitVec 3) (a : BitVec 5) (b : BitVec 5) (m : BitVec 3) (z : BitVec 1) : Statement (.vcmpLeFloat x t k a b m z) := by
  intro c w hw h
  change pack c 700448768 (67108864 * x.toNat + 524288 * t.toNat + 16384 * k.toNat + 512 * a.toNat + 16 * b.toNat + 2 * m.toNat + z.toNat) = some w at h
  have hx := x.isLt
  have ht := t.isLt
  have hk := k.isLt
  have ha := a.isLt
  have hb := b.isLt
  have hm := m.isLt
  have hz := z.isLt
  obtain ⟨e0, e1, e2, e3, e4, e5, e6, e7, e8, e9, -⟩ := pack_reads h [(z.toNat, 1), (m.toNat, 3), (b.toNat, 5), (a.toNat, 5), (k.toNat, 3), (0, 2), (t.toNat, 2), (14, 5), (x.toNat, 1), (5, 4)]
    ⟨by omega, by omega, by omega, by omega, by omega, by omega, by omega, by omega, by omega, by omega, trivial⟩ (by simp only [runs]; omega) rfl (by omega)
  have f_x : fld w.toNat 26 1 = x := fld_eq e8
  have f_t : fld w.toNat 19 2 = t := fld_eq e6
  have f_k : fld w.toNat 14 3 = k := fld_eq e4
  have f_a : fld w.toNat 9 5 = a := fld_eq e3
  have f_b : fld w.toNat 4 5 = b := fld_eq e2
  have f_m : fld w.toNat 1 3 = m := fld_eq e1
  have f_z : fld w.toNat 0 1 = z := fld_eq e0
  unfold decode
  rw [show w.toNat / 134217728 % 16 = 5 from e9]
  change decodeVectorArith _ = _
  unfold decodeVectorArith
  rw [show w.toNat / 2097152 % 32 = 14 from e7]
  refine (if_pos e5).trans ?_
  rw [f_x, f_t, f_k, f_a, f_b, f_m, f_z]
  exact if_pos hw

theorem vcmpUnFloat (x : BitVec 1) (t : BitVec 2) (k : BitVec 3) (a : BitVec 5) (b : BitVec 5) (m : BitVec 3) (z : BitVec 1) : Statement (.vcmpUnFloat x t k a b m z) := by
  intro c w hw h
  change pack c 702545920 (67108864 * x.toNat + 524288 * t.toNat + 16384 * k.toNat + 512 * a.toNat + 16 * b.toNat + 2 * m.toNat + z.toNat) = some w at h
  have hx := x.isLt
  have ht := t.isLt
  have hk := k.isLt
  have ha := a.isLt
  have hb := b.isLt
  have hm := m.isLt
  have hz := z.isLt
  obtain ⟨e0, e1, e2, e3, e4, e5, e6, e7, e8, e9, -⟩ := pack_reads h [(z.toNat, 1), (m.toNat, 3), (b.toNat, 5), (a.toNat, 5), (k.toNat, 3), (0, 2), (t.toNat, 2), (15, 5), (x.toNat, 1), (5, 4)]
    ⟨by omega, by omega, by omega, by omega, by omega, by omega, by omega, by omega, by omega, by omega, trivial⟩ (by simp only [runs]; omega) rfl (by omega)
  have f_x : fld w.toNat 26 1 = x := fld_eq e8
  have f_t : fld w.toNat 19 2 = t := fld_eq e6
  have f_k : fld w.toNat 14 3 = k := fld_eq e4
  have f_a : fld w.toNat 9 5 = a := fld_eq e3
  have f_b : fld w.toNat 4 5 = b := fld_eq e2
  have f_m : fld w.toNat 1 3 = m := fld_eq e1
  have f_z : fld w.toNat 0 1 = z := fld_eq e0
  unfold decode
  rw [show w.toNat / 134217728 % 16 = 5 from e9]
  change decodeVectorArith _ = _
  unfold decodeVectorArith
  rw [show w.toNat / 2097152 % 32 = 15 from e7]
  refine (if_pos e5).trans ?_
  rw [f_x, f_t, f_k, f_a, f_b, f_m, f_z]
  exact if_pos hw

theorem viadd (x : BitVec 1) (i : BitVec 2) (d : BitVec 5) (a : BitVec 5) (b : BitVec 5) (m : BitVec 3) (z : BitVec 1) : Statement (.viadd x i d a b m z) := by
  intro c w hw h
  change pack c 704643072 (67108864 * x.toNat + 524288 * i.toNat + 16384 * d.toNat + 512 * a.toNat + 16 * b.toNat + 2 * m.toNat + z.toNat) = some w at h
  have hx := x.isLt
  have hi := i.isLt
  have hd := d.isLt
  have ha := a.isLt
  have hb := b.isLt
  have hm := m.isLt
  have hz := z.isLt
  obtain ⟨e0, e1, e2, e3, e4, e5, e6, e7, e8, -⟩ := pack_reads h [(z.toNat, 1), (m.toNat, 3), (b.toNat, 5), (a.toNat, 5), (d.toNat, 5), (i.toNat, 2), (16, 5), (x.toNat, 1), (5, 4)]
    ⟨by omega, by omega, by omega, by omega, by omega, by omega, by omega, by omega, by omega, trivial⟩ (by simp only [runs]; omega) rfl (by omega)
  have f_x : fld w.toNat 26 1 = x := fld_eq e7
  have f_i : fld w.toNat 19 2 = i := fld_eq e5
  have f_d : fld w.toNat 14 5 = d := fld_eq e4
  have f_a : fld w.toNat 9 5 = a := fld_eq e3
  have f_b : fld w.toNat 4 5 = b := fld_eq e2
  have f_m : fld w.toNat 1 3 = m := fld_eq e1
  have f_z : fld w.toNat 0 1 = z := fld_eq e0
  unfold decode
  rw [show w.toNat / 134217728 % 16 = 5 from e8]
  change decodeVectorArith _ = _
  unfold decodeVectorArith
  rw [show w.toNat / 2097152 % 32 = 16 from e6]
  change accept (.viadd (fld _ 26 1) (fld _ 19 2) (fld _ 14 5) (fld _ 9 5) (fld _ 4 5) (fld _ 1 3) (fld _ 0 1)) = _
  rw [f_x, f_i, f_d, f_a, f_b, f_m, f_z]
  exact if_pos hw

theorem visub (x : BitVec 1) (i : BitVec 2) (d : BitVec 5) (a : BitVec 5) (b : BitVec 5) (m : BitVec 3) (z : BitVec 1) : Statement (.visub x i d a b m z) := by
  intro c w hw h
  change pack c 706740224 (67108864 * x.toNat + 524288 * i.toNat + 16384 * d.toNat + 512 * a.toNat + 16 * b.toNat + 2 * m.toNat + z.toNat) = some w at h
  have hx := x.isLt
  have hi := i.isLt
  have hd := d.isLt
  have ha := a.isLt
  have hb := b.isLt
  have hm := m.isLt
  have hz := z.isLt
  obtain ⟨e0, e1, e2, e3, e4, e5, e6, e7, e8, -⟩ := pack_reads h [(z.toNat, 1), (m.toNat, 3), (b.toNat, 5), (a.toNat, 5), (d.toNat, 5), (i.toNat, 2), (17, 5), (x.toNat, 1), (5, 4)]
    ⟨by omega, by omega, by omega, by omega, by omega, by omega, by omega, by omega, by omega, trivial⟩ (by simp only [runs]; omega) rfl (by omega)
  have f_x : fld w.toNat 26 1 = x := fld_eq e7
  have f_i : fld w.toNat 19 2 = i := fld_eq e5
  have f_d : fld w.toNat 14 5 = d := fld_eq e4
  have f_a : fld w.toNat 9 5 = a := fld_eq e3
  have f_b : fld w.toNat 4 5 = b := fld_eq e2
  have f_m : fld w.toNat 1 3 = m := fld_eq e1
  have f_z : fld w.toNat 0 1 = z := fld_eq e0
  unfold decode
  rw [show w.toNat / 134217728 % 16 = 5 from e8]
  change decodeVectorArith _ = _
  unfold decodeVectorArith
  rw [show w.toNat / 2097152 % 32 = 17 from e6]
  change accept (.visub (fld _ 26 1) (fld _ 19 2) (fld _ 14 5) (fld _ 9 5) (fld _ 4 5) (fld _ 1 3) (fld _ 0 1)) = _
  rw [f_x, f_i, f_d, f_a, f_b, f_m, f_z]
  exact if_pos hw

theorem vimul (x : BitVec 1) (i : BitVec 2) (d : BitVec 5) (a : BitVec 5) (b : BitVec 5) (m : BitVec 3) (z : BitVec 1) : Statement (.vimul x i d a b m z) := by
  intro c w hw h
  change pack c 708837376 (67108864 * x.toNat + 524288 * i.toNat + 16384 * d.toNat + 512 * a.toNat + 16 * b.toNat + 2 * m.toNat + z.toNat) = some w at h
  have hx := x.isLt
  have hi := i.isLt
  have hd := d.isLt
  have ha := a.isLt
  have hb := b.isLt
  have hm := m.isLt
  have hz := z.isLt
  obtain ⟨e0, e1, e2, e3, e4, e5, e6, e7, e8, -⟩ := pack_reads h [(z.toNat, 1), (m.toNat, 3), (b.toNat, 5), (a.toNat, 5), (d.toNat, 5), (i.toNat, 2), (18, 5), (x.toNat, 1), (5, 4)]
    ⟨by omega, by omega, by omega, by omega, by omega, by omega, by omega, by omega, by omega, trivial⟩ (by simp only [runs]; omega) rfl (by omega)
  have f_x : fld w.toNat 26 1 = x := fld_eq e7
  have f_i : fld w.toNat 19 2 = i := fld_eq e5
  have f_d : fld w.toNat 14 5 = d := fld_eq e4
  have f_a : fld w.toNat 9 5 = a := fld_eq e3
  have f_b : fld w.toNat 4 5 = b := fld_eq e2
  have f_m : fld w.toNat 1 3 = m := fld_eq e1
  have f_z : fld w.toNat 0 1 = z := fld_eq e0
  unfold decode
  rw [show w.toNat / 134217728 % 16 = 5 from e8]
  change decodeVectorArith _ = _
  unfold decodeVectorArith
  rw [show w.toNat / 2097152 % 32 = 18 from e6]
  change accept (.vimul (fld _ 26 1) (fld _ 19 2) (fld _ 14 5) (fld _ 9 5) (fld _ 4 5) (fld _ 1 3) (fld _ 0 1)) = _
  rw [f_x, f_i, f_d, f_a, f_b, f_m, f_z]
  exact if_pos hw

theorem vimulh (x : BitVec 1) (i : BitVec 2) (d : BitVec 5) (a : BitVec 5) (b : BitVec 5) (m : BitVec 3) (z : BitVec 1) : Statement (.vimulh x i d a b m z) := by
  intro c w hw h
  change pack c 710934528 (67108864 * x.toNat + 524288 * i.toNat + 16384 * d.toNat + 512 * a.toNat + 16 * b.toNat + 2 * m.toNat + z.toNat) = some w at h
  have hx := x.isLt
  have hi := i.isLt
  have hd := d.isLt
  have ha := a.isLt
  have hb := b.isLt
  have hm := m.isLt
  have hz := z.isLt
  obtain ⟨e0, e1, e2, e3, e4, e5, e6, e7, e8, -⟩ := pack_reads h [(z.toNat, 1), (m.toNat, 3), (b.toNat, 5), (a.toNat, 5), (d.toNat, 5), (i.toNat, 2), (19, 5), (x.toNat, 1), (5, 4)]
    ⟨by omega, by omega, by omega, by omega, by omega, by omega, by omega, by omega, by omega, trivial⟩ (by simp only [runs]; omega) rfl (by omega)
  have f_x : fld w.toNat 26 1 = x := fld_eq e7
  have f_i : fld w.toNat 19 2 = i := fld_eq e5
  have f_d : fld w.toNat 14 5 = d := fld_eq e4
  have f_a : fld w.toNat 9 5 = a := fld_eq e3
  have f_b : fld w.toNat 4 5 = b := fld_eq e2
  have f_m : fld w.toNat 1 3 = m := fld_eq e1
  have f_z : fld w.toNat 0 1 = z := fld_eq e0
  unfold decode
  rw [show w.toNat / 134217728 % 16 = 5 from e8]
  change decodeVectorArith _ = _
  unfold decodeVectorArith
  rw [show w.toNat / 2097152 % 32 = 19 from e6]
  change accept (.vimulh (fld _ 26 1) (fld _ 19 2) (fld _ 14 5) (fld _ 9 5) (fld _ 4 5) (fld _ 1 3) (fld _ 0 1)) = _
  rw [f_x, f_i, f_d, f_a, f_b, f_m, f_z]
  exact if_pos hw

theorem vimin (x : BitVec 1) (i : BitVec 2) (d : BitVec 5) (a : BitVec 5) (b : BitVec 5) (m : BitVec 3) (z : BitVec 1) : Statement (.vimin x i d a b m z) := by
  intro c w hw h
  change pack c 713031680 (67108864 * x.toNat + 524288 * i.toNat + 16384 * d.toNat + 512 * a.toNat + 16 * b.toNat + 2 * m.toNat + z.toNat) = some w at h
  have hx := x.isLt
  have hi := i.isLt
  have hd := d.isLt
  have ha := a.isLt
  have hb := b.isLt
  have hm := m.isLt
  have hz := z.isLt
  obtain ⟨e0, e1, e2, e3, e4, e5, e6, e7, e8, -⟩ := pack_reads h [(z.toNat, 1), (m.toNat, 3), (b.toNat, 5), (a.toNat, 5), (d.toNat, 5), (i.toNat, 2), (20, 5), (x.toNat, 1), (5, 4)]
    ⟨by omega, by omega, by omega, by omega, by omega, by omega, by omega, by omega, by omega, trivial⟩ (by simp only [runs]; omega) rfl (by omega)
  have f_x : fld w.toNat 26 1 = x := fld_eq e7
  have f_i : fld w.toNat 19 2 = i := fld_eq e5
  have f_d : fld w.toNat 14 5 = d := fld_eq e4
  have f_a : fld w.toNat 9 5 = a := fld_eq e3
  have f_b : fld w.toNat 4 5 = b := fld_eq e2
  have f_m : fld w.toNat 1 3 = m := fld_eq e1
  have f_z : fld w.toNat 0 1 = z := fld_eq e0
  unfold decode
  rw [show w.toNat / 134217728 % 16 = 5 from e8]
  change decodeVectorArith _ = _
  unfold decodeVectorArith
  rw [show w.toNat / 2097152 % 32 = 20 from e6]
  change accept (.vimin (fld _ 26 1) (fld _ 19 2) (fld _ 14 5) (fld _ 9 5) (fld _ 4 5) (fld _ 1 3) (fld _ 0 1)) = _
  rw [f_x, f_i, f_d, f_a, f_b, f_m, f_z]
  exact if_pos hw

theorem vimax (x : BitVec 1) (i : BitVec 2) (d : BitVec 5) (a : BitVec 5) (b : BitVec 5) (m : BitVec 3) (z : BitVec 1) : Statement (.vimax x i d a b m z) := by
  intro c w hw h
  change pack c 715128832 (67108864 * x.toNat + 524288 * i.toNat + 16384 * d.toNat + 512 * a.toNat + 16 * b.toNat + 2 * m.toNat + z.toNat) = some w at h
  have hx := x.isLt
  have hi := i.isLt
  have hd := d.isLt
  have ha := a.isLt
  have hb := b.isLt
  have hm := m.isLt
  have hz := z.isLt
  obtain ⟨e0, e1, e2, e3, e4, e5, e6, e7, e8, -⟩ := pack_reads h [(z.toNat, 1), (m.toNat, 3), (b.toNat, 5), (a.toNat, 5), (d.toNat, 5), (i.toNat, 2), (21, 5), (x.toNat, 1), (5, 4)]
    ⟨by omega, by omega, by omega, by omega, by omega, by omega, by omega, by omega, by omega, trivial⟩ (by simp only [runs]; omega) rfl (by omega)
  have f_x : fld w.toNat 26 1 = x := fld_eq e7
  have f_i : fld w.toNat 19 2 = i := fld_eq e5
  have f_d : fld w.toNat 14 5 = d := fld_eq e4
  have f_a : fld w.toNat 9 5 = a := fld_eq e3
  have f_b : fld w.toNat 4 5 = b := fld_eq e2
  have f_m : fld w.toNat 1 3 = m := fld_eq e1
  have f_z : fld w.toNat 0 1 = z := fld_eq e0
  unfold decode
  rw [show w.toNat / 134217728 % 16 = 5 from e8]
  change decodeVectorArith _ = _
  unfold decodeVectorArith
  rw [show w.toNat / 2097152 % 32 = 21 from e6]
  change accept (.vimax (fld _ 26 1) (fld _ 19 2) (fld _ 14 5) (fld _ 9 5) (fld _ 4 5) (fld _ 1 3) (fld _ 0 1)) = _
  rw [f_x, f_i, f_d, f_a, f_b, f_m, f_z]
  exact if_pos hw

theorem vand (x : BitVec 1) (d : BitVec 5) (a : BitVec 5) (b : BitVec 5) (m : BitVec 3) (z : BitVec 1) : Statement (.vand x d a b m z) := by
  intro c w hw h
  change pack c 717225984 (67108864 * x.toNat + 16384 * d.toNat + 512 * a.toNat + 16 * b.toNat + 2 * m.toNat + z.toNat) = some w at h
  have hx := x.isLt
  have hd := d.isLt
  have ha := a.isLt
  have hb := b.isLt
  have hm := m.isLt
  have hz := z.isLt
  obtain ⟨e0, e1, e2, e3, e4, e5, e6, e7, e8, -⟩ := pack_reads h [(z.toNat, 1), (m.toNat, 3), (b.toNat, 5), (a.toNat, 5), (d.toNat, 5), (0, 2), (22, 5), (x.toNat, 1), (5, 4)]
    ⟨by omega, by omega, by omega, by omega, by omega, by omega, by omega, by omega, by omega, trivial⟩ (by simp only [runs]; omega) rfl (by omega)
  have f_x : fld w.toNat 26 1 = x := fld_eq e7
  have f_d : fld w.toNat 14 5 = d := fld_eq e4
  have f_a : fld w.toNat 9 5 = a := fld_eq e3
  have f_b : fld w.toNat 4 5 = b := fld_eq e2
  have f_m : fld w.toNat 1 3 = m := fld_eq e1
  have f_z : fld w.toNat 0 1 = z := fld_eq e0
  unfold decode
  rw [show w.toNat / 134217728 % 16 = 5 from e8]
  change decodeVectorArith _ = _
  unfold decodeVectorArith
  rw [show w.toNat / 2097152 % 32 = 22 from e6]
  rw [show w.toNat / 524288 % 4 = 0 from e5]
  change accept (.vand (fld _ 26 1) (fld _ 14 5) (fld _ 9 5) (fld _ 4 5) (fld _ 1 3) (fld _ 0 1)) = _
  rw [f_x, f_d, f_a, f_b, f_m, f_z]
  exact if_pos hw

theorem vor (x : BitVec 1) (d : BitVec 5) (a : BitVec 5) (b : BitVec 5) (m : BitVec 3) (z : BitVec 1) : Statement (.vor x d a b m z) := by
  intro c w hw h
  change pack c 717750272 (67108864 * x.toNat + 16384 * d.toNat + 512 * a.toNat + 16 * b.toNat + 2 * m.toNat + z.toNat) = some w at h
  have hx := x.isLt
  have hd := d.isLt
  have ha := a.isLt
  have hb := b.isLt
  have hm := m.isLt
  have hz := z.isLt
  obtain ⟨e0, e1, e2, e3, e4, e5, e6, e7, e8, -⟩ := pack_reads h [(z.toNat, 1), (m.toNat, 3), (b.toNat, 5), (a.toNat, 5), (d.toNat, 5), (1, 2), (22, 5), (x.toNat, 1), (5, 4)]
    ⟨by omega, by omega, by omega, by omega, by omega, by omega, by omega, by omega, by omega, trivial⟩ (by simp only [runs]; omega) rfl (by omega)
  have f_x : fld w.toNat 26 1 = x := fld_eq e7
  have f_d : fld w.toNat 14 5 = d := fld_eq e4
  have f_a : fld w.toNat 9 5 = a := fld_eq e3
  have f_b : fld w.toNat 4 5 = b := fld_eq e2
  have f_m : fld w.toNat 1 3 = m := fld_eq e1
  have f_z : fld w.toNat 0 1 = z := fld_eq e0
  unfold decode
  rw [show w.toNat / 134217728 % 16 = 5 from e8]
  change decodeVectorArith _ = _
  unfold decodeVectorArith
  rw [show w.toNat / 2097152 % 32 = 22 from e6]
  rw [show w.toNat / 524288 % 4 = 1 from e5]
  change accept (.vor (fld _ 26 1) (fld _ 14 5) (fld _ 9 5) (fld _ 4 5) (fld _ 1 3) (fld _ 0 1)) = _
  rw [f_x, f_d, f_a, f_b, f_m, f_z]
  exact if_pos hw

theorem vxor (x : BitVec 1) (d : BitVec 5) (a : BitVec 5) (b : BitVec 5) (m : BitVec 3) (z : BitVec 1) : Statement (.vxor x d a b m z) := by
  intro c w hw h
  change pack c 718274560 (67108864 * x.toNat + 16384 * d.toNat + 512 * a.toNat + 16 * b.toNat + 2 * m.toNat + z.toNat) = some w at h
  have hx := x.isLt
  have hd := d.isLt
  have ha := a.isLt
  have hb := b.isLt
  have hm := m.isLt
  have hz := z.isLt
  obtain ⟨e0, e1, e2, e3, e4, e5, e6, e7, e8, -⟩ := pack_reads h [(z.toNat, 1), (m.toNat, 3), (b.toNat, 5), (a.toNat, 5), (d.toNat, 5), (2, 2), (22, 5), (x.toNat, 1), (5, 4)]
    ⟨by omega, by omega, by omega, by omega, by omega, by omega, by omega, by omega, by omega, trivial⟩ (by simp only [runs]; omega) rfl (by omega)
  have f_x : fld w.toNat 26 1 = x := fld_eq e7
  have f_d : fld w.toNat 14 5 = d := fld_eq e4
  have f_a : fld w.toNat 9 5 = a := fld_eq e3
  have f_b : fld w.toNat 4 5 = b := fld_eq e2
  have f_m : fld w.toNat 1 3 = m := fld_eq e1
  have f_z : fld w.toNat 0 1 = z := fld_eq e0
  unfold decode
  rw [show w.toNat / 134217728 % 16 = 5 from e8]
  change decodeVectorArith _ = _
  unfold decodeVectorArith
  rw [show w.toNat / 2097152 % 32 = 22 from e6]
  rw [show w.toNat / 524288 % 4 = 2 from e5]
  change accept (.vxor (fld _ 26 1) (fld _ 14 5) (fld _ 9 5) (fld _ 4 5) (fld _ 1 3) (fld _ 0 1)) = _
  rw [f_x, f_d, f_a, f_b, f_m, f_z]
  exact if_pos hw

theorem vandn (x : BitVec 1) (d : BitVec 5) (a : BitVec 5) (b : BitVec 5) (m : BitVec 3) (z : BitVec 1) : Statement (.vandn x d a b m z) := by
  intro c w hw h
  change pack c 718798848 (67108864 * x.toNat + 16384 * d.toNat + 512 * a.toNat + 16 * b.toNat + 2 * m.toNat + z.toNat) = some w at h
  have hx := x.isLt
  have hd := d.isLt
  have ha := a.isLt
  have hb := b.isLt
  have hm := m.isLt
  have hz := z.isLt
  obtain ⟨e0, e1, e2, e3, e4, e5, e6, e7, e8, -⟩ := pack_reads h [(z.toNat, 1), (m.toNat, 3), (b.toNat, 5), (a.toNat, 5), (d.toNat, 5), (3, 2), (22, 5), (x.toNat, 1), (5, 4)]
    ⟨by omega, by omega, by omega, by omega, by omega, by omega, by omega, by omega, by omega, trivial⟩ (by simp only [runs]; omega) rfl (by omega)
  have f_x : fld w.toNat 26 1 = x := fld_eq e7
  have f_d : fld w.toNat 14 5 = d := fld_eq e4
  have f_a : fld w.toNat 9 5 = a := fld_eq e3
  have f_b : fld w.toNat 4 5 = b := fld_eq e2
  have f_m : fld w.toNat 1 3 = m := fld_eq e1
  have f_z : fld w.toNat 0 1 = z := fld_eq e0
  unfold decode
  rw [show w.toNat / 134217728 % 16 = 5 from e8]
  change decodeVectorArith _ = _
  unfold decodeVectorArith
  rw [show w.toNat / 2097152 % 32 = 22 from e6]
  rw [show w.toNat / 524288 % 4 = 3 from e5]
  change accept (.vandn (fld _ 26 1) (fld _ 14 5) (fld _ 9 5) (fld _ 4 5) (fld _ 1 3) (fld _ 0 1)) = _
  rw [f_x, f_d, f_a, f_b, f_m, f_z]
  exact if_pos hw

theorem vshl (x : BitVec 1) (j : BitVec 1) (d : BitVec 5) (a : BitVec 5) (b : BitVec 5) (m : BitVec 3) (z : BitVec 1) : Statement (.vshl x j d a b m z) := by
  intro c w hw h
  change pack c 719323136 (67108864 * x.toNat + 524288 * j.toNat + 16384 * d.toNat + 512 * a.toNat + 16 * b.toNat + 2 * m.toNat + z.toNat) = some w at h
  have hx := x.isLt
  have hj := j.isLt
  have hd := d.isLt
  have ha := a.isLt
  have hb := b.isLt
  have hm := m.isLt
  have hz := z.isLt
  obtain ⟨e0, e1, e2, e3, e4, e5, e6, e7, e8, e9, -⟩ := pack_reads h [(z.toNat, 1), (m.toNat, 3), (b.toNat, 5), (a.toNat, 5), (d.toNat, 5), (j.toNat, 1), (0, 1), (23, 5), (x.toNat, 1), (5, 4)]
    ⟨by omega, by omega, by omega, by omega, by omega, by omega, by omega, by omega, by omega, by omega, trivial⟩ (by simp only [runs]; omega) rfl (by omega)
  have f_x : fld w.toNat 26 1 = x := fld_eq e8
  have f_j : fld w.toNat 19 1 = j := fld_eq e5
  have f_d : fld w.toNat 14 5 = d := fld_eq e4
  have f_a : fld w.toNat 9 5 = a := fld_eq e3
  have f_b : fld w.toNat 4 5 = b := fld_eq e2
  have f_m : fld w.toNat 1 3 = m := fld_eq e1
  have f_z : fld w.toNat 0 1 = z := fld_eq e0
  unfold decode
  rw [show w.toNat / 134217728 % 16 = 5 from e9]
  change decodeVectorArith _ = _
  unfold decodeVectorArith
  rw [show w.toNat / 2097152 % 32 = 23 from e7]
  rw [show w.toNat / 1048576 % 2 = 0 from e6]
  change accept (.vshl (fld _ 26 1) (fld _ 19 1) (fld _ 14 5) (fld _ 9 5) (fld _ 4 5) (fld _ 1 3) (fld _ 0 1)) = _
  rw [f_x, f_j, f_d, f_a, f_b, f_m, f_z]
  exact if_pos hw

theorem vshr (x : BitVec 1) (j : BitVec 1) (d : BitVec 5) (a : BitVec 5) (b : BitVec 5) (m : BitVec 3) (z : BitVec 1) : Statement (.vshr x j d a b m z) := by
  intro c w hw h
  change pack c 720371712 (67108864 * x.toNat + 524288 * j.toNat + 16384 * d.toNat + 512 * a.toNat + 16 * b.toNat + 2 * m.toNat + z.toNat) = some w at h
  have hx := x.isLt
  have hj := j.isLt
  have hd := d.isLt
  have ha := a.isLt
  have hb := b.isLt
  have hm := m.isLt
  have hz := z.isLt
  obtain ⟨e0, e1, e2, e3, e4, e5, e6, e7, e8, e9, -⟩ := pack_reads h [(z.toNat, 1), (m.toNat, 3), (b.toNat, 5), (a.toNat, 5), (d.toNat, 5), (j.toNat, 1), (1, 1), (23, 5), (x.toNat, 1), (5, 4)]
    ⟨by omega, by omega, by omega, by omega, by omega, by omega, by omega, by omega, by omega, by omega, trivial⟩ (by simp only [runs]; omega) rfl (by omega)
  have f_x : fld w.toNat 26 1 = x := fld_eq e8
  have f_j : fld w.toNat 19 1 = j := fld_eq e5
  have f_d : fld w.toNat 14 5 = d := fld_eq e4
  have f_a : fld w.toNat 9 5 = a := fld_eq e3
  have f_b : fld w.toNat 4 5 = b := fld_eq e2
  have f_m : fld w.toNat 1 3 = m := fld_eq e1
  have f_z : fld w.toNat 0 1 = z := fld_eq e0
  unfold decode
  rw [show w.toNat / 134217728 % 16 = 5 from e9]
  change decodeVectorArith _ = _
  unfold decodeVectorArith
  rw [show w.toNat / 2097152 % 32 = 23 from e7]
  rw [show w.toNat / 1048576 % 2 = 1 from e6]
  change accept (.vshr (fld _ 26 1) (fld _ 19 1) (fld _ 14 5) (fld _ 9 5) (fld _ 4 5) (fld _ 1 3) (fld _ 0 1)) = _
  rw [f_x, f_j, f_d, f_a, f_b, f_m, f_z]
  exact if_pos hw

theorem vsar (x : BitVec 1) (j : BitVec 1) (d : BitVec 5) (a : BitVec 5) (b : BitVec 5) (m : BitVec 3) (z : BitVec 1) : Statement (.vsar x j d a b m z) := by
  intro c w hw h
  change pack c 721420288 (67108864 * x.toNat + 524288 * j.toNat + 16384 * d.toNat + 512 * a.toNat + 16 * b.toNat + 2 * m.toNat + z.toNat) = some w at h
  have hx := x.isLt
  have hj := j.isLt
  have hd := d.isLt
  have ha := a.isLt
  have hb := b.isLt
  have hm := m.isLt
  have hz := z.isLt
  obtain ⟨e0, e1, e2, e3, e4, e5, e6, e7, e8, e9, -⟩ := pack_reads h [(z.toNat, 1), (m.toNat, 3), (b.toNat, 5), (a.toNat, 5), (d.toNat, 5), (j.toNat, 1), (0, 1), (24, 5), (x.toNat, 1), (5, 4)]
    ⟨by omega, by omega, by omega, by omega, by omega, by omega, by omega, by omega, by omega, by omega, trivial⟩ (by simp only [runs]; omega) rfl (by omega)
  have f_x : fld w.toNat 26 1 = x := fld_eq e8
  have f_j : fld w.toNat 19 1 = j := fld_eq e5
  have f_d : fld w.toNat 14 5 = d := fld_eq e4
  have f_a : fld w.toNat 9 5 = a := fld_eq e3
  have f_b : fld w.toNat 4 5 = b := fld_eq e2
  have f_m : fld w.toNat 1 3 = m := fld_eq e1
  have f_z : fld w.toNat 0 1 = z := fld_eq e0
  unfold decode
  rw [show w.toNat / 134217728 % 16 = 5 from e9]
  change decodeVectorArith _ = _
  unfold decodeVectorArith
  rw [show w.toNat / 2097152 % 32 = 24 from e7]
  rw [show w.toNat / 1048576 % 2 = 0 from e6]
  change accept (.vsar (fld _ 26 1) (fld _ 19 1) (fld _ 14 5) (fld _ 9 5) (fld _ 4 5) (fld _ 1 3) (fld _ 0 1)) = _
  rw [f_x, f_j, f_d, f_a, f_b, f_m, f_z]
  exact if_pos hw

theorem vfxmulFix64 (x : BitVec 1) (d : BitVec 5) (a : BitVec 5) (b : BitVec 5) (m : BitVec 3) (z : BitVec 1) : Statement (.vfxmulFix64 x d a b m z) := by
  intro c w hw h
  change pack c 722468864 (67108864 * x.toNat + 16384 * d.toNat + 512 * a.toNat + 16 * b.toNat + 2 * m.toNat + z.toNat) = some w at h
  have hx := x.isLt
  have hd := d.isLt
  have ha := a.isLt
  have hb := b.isLt
  have hm := m.isLt
  have hz := z.isLt
  obtain ⟨e0, e1, e2, e3, e4, e5, e6, e7, e8, e9, -⟩ := pack_reads h [(z.toNat, 1), (m.toNat, 3), (b.toNat, 5), (a.toNat, 5), (d.toNat, 5), (0, 1), (1, 1), (24, 5), (x.toNat, 1), (5, 4)]
    ⟨by omega, by omega, by omega, by omega, by omega, by omega, by omega, by omega, by omega, by omega, trivial⟩ (by simp only [runs]; omega) rfl (by omega)
  have f_x : fld w.toNat 26 1 = x := fld_eq e8
  have f_d : fld w.toNat 14 5 = d := fld_eq e4
  have f_a : fld w.toNat 9 5 = a := fld_eq e3
  have f_b : fld w.toNat 4 5 = b := fld_eq e2
  have f_m : fld w.toNat 1 3 = m := fld_eq e1
  have f_z : fld w.toNat 0 1 = z := fld_eq e0
  unfold decode
  rw [show w.toNat / 134217728 % 16 = 5 from e9]
  change decodeVectorArith _ = _
  unfold decodeVectorArith
  rw [show w.toNat / 2097152 % 32 = 24 from e7]
  rw [show w.toNat / 1048576 % 2 = 1 from e6]
  rw [show w.toNat / 524288 % 2 = 0 from e5]
  change accept (.vfxmulFix64 (fld _ 26 1) (fld _ 14 5) (fld _ 9 5) (fld _ 4 5) (fld _ 1 3) (fld _ 0 1)) = _
  rw [f_x, f_d, f_a, f_b, f_m, f_z]
  exact if_pos hw

theorem vfxaddFix64 (x : BitVec 1) (d : BitVec 5) (a : BitVec 5) (b : BitVec 5) (m : BitVec 3) (z : BitVec 1) : Statement (.vfxaddFix64 x d a b m z) := by
  intro c w hw h
  change pack c 722993152 (67108864 * x.toNat + 16384 * d.toNat + 512 * a.toNat + 16 * b.toNat + 2 * m.toNat + z.toNat) = some w at h
  have hx := x.isLt
  have hd := d.isLt
  have ha := a.isLt
  have hb := b.isLt
  have hm := m.isLt
  have hz := z.isLt
  obtain ⟨e0, e1, e2, e3, e4, e5, e6, e7, e8, e9, -⟩ := pack_reads h [(z.toNat, 1), (m.toNat, 3), (b.toNat, 5), (a.toNat, 5), (d.toNat, 5), (1, 1), (1, 1), (24, 5), (x.toNat, 1), (5, 4)]
    ⟨by omega, by omega, by omega, by omega, by omega, by omega, by omega, by omega, by omega, by omega, trivial⟩ (by simp only [runs]; omega) rfl (by omega)
  have f_x : fld w.toNat 26 1 = x := fld_eq e8
  have f_d : fld w.toNat 14 5 = d := fld_eq e4
  have f_a : fld w.toNat 9 5 = a := fld_eq e3
  have f_b : fld w.toNat 4 5 = b := fld_eq e2
  have f_m : fld w.toNat 1 3 = m := fld_eq e1
  have f_z : fld w.toNat 0 1 = z := fld_eq e0
  unfold decode
  rw [show w.toNat / 134217728 % 16 = 5 from e9]
  change decodeVectorArith _ = _
  unfold decodeVectorArith
  rw [show w.toNat / 2097152 % 32 = 24 from e7]
  rw [show w.toNat / 1048576 % 2 = 1 from e6]
  rw [show w.toNat / 524288 % 2 = 1 from e5]
  change accept (.vfxaddFix64 (fld _ 26 1) (fld _ 14 5) (fld _ 9 5) (fld _ 4 5) (fld _ 1 3) (fld _ 0 1)) = _
  rw [f_x, f_d, f_a, f_b, f_m, f_z]
  exact if_pos hw

theorem vdot16Bf16 (x : BitVec 1) (d : BitVec 5) (a : BitVec 5) (b : BitVec 5) (m : BitVec 3) (z : BitVec 1) : Statement (.vdot16Bf16 x d a b m z) := by
  intro c w hw h
  change pack c 723517440 (67108864 * x.toNat + 16384 * d.toNat + 512 * a.toNat + 16 * b.toNat + 2 * m.toNat + z.toNat) = some w at h
  have hx := x.isLt
  have hd := d.isLt
  have ha := a.isLt
  have hb := b.isLt
  have hm := m.isLt
  have hz := z.isLt
  obtain ⟨e0, e1, e2, e3, e4, e5, e6, e7, e8, -⟩ := pack_reads h [(z.toNat, 1), (m.toNat, 3), (b.toNat, 5), (a.toNat, 5), (d.toNat, 5), (0, 2), (25, 5), (x.toNat, 1), (5, 4)]
    ⟨by omega, by omega, by omega, by omega, by omega, by omega, by omega, by omega, by omega, trivial⟩ (by simp only [runs]; omega) rfl (by omega)
  have f_x : fld w.toNat 26 1 = x := fld_eq e7
  have f_d : fld w.toNat 14 5 = d := fld_eq e4
  have f_a : fld w.toNat 9 5 = a := fld_eq e3
  have f_b : fld w.toNat 4 5 = b := fld_eq e2
  have f_m : fld w.toNat 1 3 = m := fld_eq e1
  have f_z : fld w.toNat 0 1 = z := fld_eq e0
  unfold decode
  rw [show w.toNat / 134217728 % 16 = 5 from e8]
  change decodeVectorArith _ = _
  unfold decodeVectorArith
  rw [show w.toNat / 2097152 % 32 = 25 from e6]
  rw [show w.toNat / 524288 % 4 = 0 from e5]
  change accept (.vdot16Bf16 (fld _ 26 1) (fld _ 14 5) (fld _ 9 5) (fld _ 4 5) (fld _ 1 3) (fld _ 0 1)) = _
  rw [f_x, f_d, f_a, f_b, f_m, f_z]
  exact if_pos hw

theorem vdot16F16 (x : BitVec 1) (d : BitVec 5) (a : BitVec 5) (b : BitVec 5) (m : BitVec 3) (z : BitVec 1) : Statement (.vdot16F16 x d a b m z) := by
  intro c w hw h
  change pack c 724041728 (67108864 * x.toNat + 16384 * d.toNat + 512 * a.toNat + 16 * b.toNat + 2 * m.toNat + z.toNat) = some w at h
  have hx := x.isLt
  have hd := d.isLt
  have ha := a.isLt
  have hb := b.isLt
  have hm := m.isLt
  have hz := z.isLt
  obtain ⟨e0, e1, e2, e3, e4, e5, e6, e7, e8, -⟩ := pack_reads h [(z.toNat, 1), (m.toNat, 3), (b.toNat, 5), (a.toNat, 5), (d.toNat, 5), (1, 2), (25, 5), (x.toNat, 1), (5, 4)]
    ⟨by omega, by omega, by omega, by omega, by omega, by omega, by omega, by omega, by omega, trivial⟩ (by simp only [runs]; omega) rfl (by omega)
  have f_x : fld w.toNat 26 1 = x := fld_eq e7
  have f_d : fld w.toNat 14 5 = d := fld_eq e4
  have f_a : fld w.toNat 9 5 = a := fld_eq e3
  have f_b : fld w.toNat 4 5 = b := fld_eq e2
  have f_m : fld w.toNat 1 3 = m := fld_eq e1
  have f_z : fld w.toNat 0 1 = z := fld_eq e0
  unfold decode
  rw [show w.toNat / 134217728 % 16 = 5 from e8]
  change decodeVectorArith _ = _
  unfold decodeVectorArith
  rw [show w.toNat / 2097152 % 32 = 25 from e6]
  rw [show w.toNat / 524288 % 4 = 1 from e5]
  change accept (.vdot16F16 (fld _ 26 1) (fld _ 14 5) (fld _ 9 5) (fld _ 4 5) (fld _ 1 3) (fld _ 0 1)) = _
  rw [f_x, f_d, f_a, f_b, f_m, f_z]
  exact if_pos hw

theorem vdot16E4m3 (x : BitVec 1) (d : BitVec 5) (a : BitVec 5) (b : BitVec 5) (m : BitVec 3) (z : BitVec 1) : Statement (.vdot16E4m3 x d a b m z) := by
  intro c w hw h
  change pack c 724566016 (67108864 * x.toNat + 16384 * d.toNat + 512 * a.toNat + 16 * b.toNat + 2 * m.toNat + z.toNat) = some w at h
  have hx := x.isLt
  have hd := d.isLt
  have ha := a.isLt
  have hb := b.isLt
  have hm := m.isLt
  have hz := z.isLt
  obtain ⟨e0, e1, e2, e3, e4, e5, e6, e7, e8, -⟩ := pack_reads h [(z.toNat, 1), (m.toNat, 3), (b.toNat, 5), (a.toNat, 5), (d.toNat, 5), (2, 2), (25, 5), (x.toNat, 1), (5, 4)]
    ⟨by omega, by omega, by omega, by omega, by omega, by omega, by omega, by omega, by omega, trivial⟩ (by simp only [runs]; omega) rfl (by omega)
  have f_x : fld w.toNat 26 1 = x := fld_eq e7
  have f_d : fld w.toNat 14 5 = d := fld_eq e4
  have f_a : fld w.toNat 9 5 = a := fld_eq e3
  have f_b : fld w.toNat 4 5 = b := fld_eq e2
  have f_m : fld w.toNat 1 3 = m := fld_eq e1
  have f_z : fld w.toNat 0 1 = z := fld_eq e0
  unfold decode
  rw [show w.toNat / 134217728 % 16 = 5 from e8]
  change decodeVectorArith _ = _
  unfold decodeVectorArith
  rw [show w.toNat / 2097152 % 32 = 25 from e6]
  rw [show w.toNat / 524288 % 4 = 2 from e5]
  change accept (.vdot16E4m3 (fld _ 26 1) (fld _ 14 5) (fld _ 9 5) (fld _ 4 5) (fld _ 1 3) (fld _ 0 1)) = _
  rw [f_x, f_d, f_a, f_b, f_m, f_z]
  exact if_pos hw

theorem vdot16E5m2 (x : BitVec 1) (d : BitVec 5) (a : BitVec 5) (b : BitVec 5) (m : BitVec 3) (z : BitVec 1) : Statement (.vdot16E5m2 x d a b m z) := by
  intro c w hw h
  change pack c 725090304 (67108864 * x.toNat + 16384 * d.toNat + 512 * a.toNat + 16 * b.toNat + 2 * m.toNat + z.toNat) = some w at h
  have hx := x.isLt
  have hd := d.isLt
  have ha := a.isLt
  have hb := b.isLt
  have hm := m.isLt
  have hz := z.isLt
  obtain ⟨e0, e1, e2, e3, e4, e5, e6, e7, e8, -⟩ := pack_reads h [(z.toNat, 1), (m.toNat, 3), (b.toNat, 5), (a.toNat, 5), (d.toNat, 5), (3, 2), (25, 5), (x.toNat, 1), (5, 4)]
    ⟨by omega, by omega, by omega, by omega, by omega, by omega, by omega, by omega, by omega, trivial⟩ (by simp only [runs]; omega) rfl (by omega)
  have f_x : fld w.toNat 26 1 = x := fld_eq e7
  have f_d : fld w.toNat 14 5 = d := fld_eq e4
  have f_a : fld w.toNat 9 5 = a := fld_eq e3
  have f_b : fld w.toNat 4 5 = b := fld_eq e2
  have f_m : fld w.toNat 1 3 = m := fld_eq e1
  have f_z : fld w.toNat 0 1 = z := fld_eq e0
  unfold decode
  rw [show w.toNat / 134217728 % 16 = 5 from e8]
  change decodeVectorArith _ = _
  unfold decodeVectorArith
  rw [show w.toNat / 2097152 % 32 = 25 from e6]
  rw [show w.toNat / 524288 % 4 = 3 from e5]
  change accept (.vdot16E5m2 (fld _ 26 1) (fld _ 14 5) (fld _ 9 5) (fld _ 4 5) (fld _ 1 3) (fld _ 0 1)) = _
  rw [f_x, f_d, f_a, f_b, f_m, f_z]
  exact if_pos hw

theorem vdot16I8 (x : BitVec 1) (d : BitVec 5) (a : BitVec 5) (b : BitVec 5) (m : BitVec 3) (z : BitVec 1) : Statement (.vdot16I8 x d a b m z) := by
  intro c w hw h
  change pack c 725614592 (67108864 * x.toNat + 16384 * d.toNat + 512 * a.toNat + 16 * b.toNat + 2 * m.toNat + z.toNat) = some w at h
  have hx := x.isLt
  have hd := d.isLt
  have ha := a.isLt
  have hb := b.isLt
  have hm := m.isLt
  have hz := z.isLt
  obtain ⟨e0, e1, e2, e3, e4, e5, e6, e7, e8, -⟩ := pack_reads h [(z.toNat, 1), (m.toNat, 3), (b.toNat, 5), (a.toNat, 5), (d.toNat, 5), (0, 2), (26, 5), (x.toNat, 1), (5, 4)]
    ⟨by omega, by omega, by omega, by omega, by omega, by omega, by omega, by omega, by omega, trivial⟩ (by simp only [runs]; omega) rfl (by omega)
  have f_x : fld w.toNat 26 1 = x := fld_eq e7
  have f_d : fld w.toNat 14 5 = d := fld_eq e4
  have f_a : fld w.toNat 9 5 = a := fld_eq e3
  have f_b : fld w.toNat 4 5 = b := fld_eq e2
  have f_m : fld w.toNat 1 3 = m := fld_eq e1
  have f_z : fld w.toNat 0 1 = z := fld_eq e0
  unfold decode
  rw [show w.toNat / 134217728 % 16 = 5 from e8]
  change decodeVectorArith _ = _
  unfold decodeVectorArith
  rw [show w.toNat / 2097152 % 32 = 26 from e6]
  rw [show w.toNat / 524288 % 4 = 0 from e5]
  change accept (.vdot16I8 (fld _ 26 1) (fld _ 14 5) (fld _ 9 5) (fld _ 4 5) (fld _ 1 3) (fld _ 0 1)) = _
  rw [f_x, f_d, f_a, f_b, f_m, f_z]
  exact if_pos hw

theorem vdot16Log6 (x : BitVec 1) (d : BitVec 5) (a : BitVec 5) (b : BitVec 5) (m : BitVec 3) (z : BitVec 1) : Statement (.vdot16Log6 x d a b m z) := by
  intro c w hw h
  change pack c 726138880 (67108864 * x.toNat + 16384 * d.toNat + 512 * a.toNat + 16 * b.toNat + 2 * m.toNat + z.toNat) = some w at h
  have hx := x.isLt
  have hd := d.isLt
  have ha := a.isLt
  have hb := b.isLt
  have hm := m.isLt
  have hz := z.isLt
  obtain ⟨e0, e1, e2, e3, e4, e5, e6, e7, e8, -⟩ := pack_reads h [(z.toNat, 1), (m.toNat, 3), (b.toNat, 5), (a.toNat, 5), (d.toNat, 5), (1, 2), (26, 5), (x.toNat, 1), (5, 4)]
    ⟨by omega, by omega, by omega, by omega, by omega, by omega, by omega, by omega, by omega, trivial⟩ (by simp only [runs]; omega) rfl (by omega)
  have f_x : fld w.toNat 26 1 = x := fld_eq e7
  have f_d : fld w.toNat 14 5 = d := fld_eq e4
  have f_a : fld w.toNat 9 5 = a := fld_eq e3
  have f_b : fld w.toNat 4 5 = b := fld_eq e2
  have f_m : fld w.toNat 1 3 = m := fld_eq e1
  have f_z : fld w.toNat 0 1 = z := fld_eq e0
  unfold decode
  rw [show w.toNat / 134217728 % 16 = 5 from e8]
  change decodeVectorArith _ = _
  unfold decodeVectorArith
  rw [show w.toNat / 2097152 % 32 = 26 from e6]
  rw [show w.toNat / 524288 % 4 = 1 from e5]
  change accept (.vdot16Log6 (fld _ 26 1) (fld _ 14 5) (fld _ 9 5) (fld _ 4 5) (fld _ 1 3) (fld _ 0 1)) = _
  rw [f_x, f_d, f_a, f_b, f_m, f_z]
  exact if_pos hw

theorem vdot16E2m1 (x : BitVec 1) (d : BitVec 5) (a : BitVec 5) (b : BitVec 5) (m : BitVec 3) (z : BitVec 1) : Statement (.vdot16E2m1 x d a b m z) := by
  intro c w hw h
  change pack c 726663168 (67108864 * x.toNat + 16384 * d.toNat + 512 * a.toNat + 16 * b.toNat + 2 * m.toNat + z.toNat) = some w at h
  have hx := x.isLt
  have hd := d.isLt
  have ha := a.isLt
  have hb := b.isLt
  have hm := m.isLt
  have hz := z.isLt
  obtain ⟨e0, e1, e2, e3, e4, e5, e6, e7, e8, -⟩ := pack_reads h [(z.toNat, 1), (m.toNat, 3), (b.toNat, 5), (a.toNat, 5), (d.toNat, 5), (2, 2), (26, 5), (x.toNat, 1), (5, 4)]
    ⟨by omega, by omega, by omega, by omega, by omega, by omega, by omega, by omega, by omega, trivial⟩ (by simp only [runs]; omega) rfl (by omega)
  have f_x : fld w.toNat 26 1 = x := fld_eq e7
  have f_d : fld w.toNat 14 5 = d := fld_eq e4
  have f_a : fld w.toNat 9 5 = a := fld_eq e3
  have f_b : fld w.toNat 4 5 = b := fld_eq e2
  have f_m : fld w.toNat 1 3 = m := fld_eq e1
  have f_z : fld w.toNat 0 1 = z := fld_eq e0
  unfold decode
  rw [show w.toNat / 134217728 % 16 = 5 from e8]
  change decodeVectorArith _ = _
  unfold decodeVectorArith
  rw [show w.toNat / 2097152 % 32 = 26 from e6]
  rw [show w.toNat / 524288 % 4 = 2 from e5]
  change accept (.vdot16E2m1 (fld _ 26 1) (fld _ 14 5) (fld _ 9 5) (fld _ 4 5) (fld _ 1 3) (fld _ 0 1)) = _
  rw [f_x, f_d, f_a, f_b, f_m, f_z]
  exact if_pos hw

theorem vcmpEqInt (x : BitVec 1) (j : BitVec 1) (k : BitVec 3) (a : BitVec 5) (b : BitVec 5) (m : BitVec 3) (z : BitVec 1) : Statement (.vcmpEqInt x j k a b m z) := by
  intro c w hw h
  change pack c 729808896 (67108864 * x.toNat + 524288 * j.toNat + 16384 * k.toNat + 512 * a.toNat + 16 * b.toNat + 2 * m.toNat + z.toNat) = some w at h
  have hx := x.isLt
  have hj := j.isLt
  have hk := k.isLt
  have ha := a.isLt
  have hb := b.isLt
  have hm := m.isLt
  have hz := z.isLt
  obtain ⟨e0, e1, e2, e3, e4, e5, e6, e7, e8, e9, e10, -⟩ := pack_reads h [(z.toNat, 1), (m.toNat, 3), (b.toNat, 5), (a.toNat, 5), (k.toNat, 3), (0, 2), (j.toNat, 1), (0, 1), (28, 5), (x.toNat, 1), (5, 4)]
    ⟨by omega, by omega, by omega, by omega, by omega, by omega, by omega, by omega, by omega, by omega, by omega, trivial⟩ (by simp only [runs]; omega) rfl (by omega)
  have f_x : fld w.toNat 26 1 = x := fld_eq e9
  have f_j : fld w.toNat 19 1 = j := fld_eq e6
  have f_k : fld w.toNat 14 3 = k := fld_eq e4
  have f_a : fld w.toNat 9 5 = a := fld_eq e3
  have f_b : fld w.toNat 4 5 = b := fld_eq e2
  have f_m : fld w.toNat 1 3 = m := fld_eq e1
  have f_z : fld w.toNat 0 1 = z := fld_eq e0
  unfold decode
  rw [show w.toNat / 134217728 % 16 = 5 from e10]
  change decodeVectorArith _ = _
  unfold decodeVectorArith
  rw [show w.toNat / 2097152 % 32 = 28 from e8]
  rw [show w.toNat / 1048576 % 2 = 0 from e7]
  refine (if_pos e5).trans ?_
  rw [f_x, f_j, f_k, f_a, f_b, f_m, f_z]
  exact if_pos hw

theorem vcmpLtInt (x : BitVec 1) (j : BitVec 1) (k : BitVec 3) (a : BitVec 5) (b : BitVec 5) (m : BitVec 3) (z : BitVec 1) : Statement (.vcmpLtInt x j k a b m z) := by
  intro c w hw h
  change pack c 730857472 (67108864 * x.toNat + 524288 * j.toNat + 16384 * k.toNat + 512 * a.toNat + 16 * b.toNat + 2 * m.toNat + z.toNat) = some w at h
  have hx := x.isLt
  have hj := j.isLt
  have hk := k.isLt
  have ha := a.isLt
  have hb := b.isLt
  have hm := m.isLt
  have hz := z.isLt
  obtain ⟨e0, e1, e2, e3, e4, e5, e6, e7, e8, e9, e10, -⟩ := pack_reads h [(z.toNat, 1), (m.toNat, 3), (b.toNat, 5), (a.toNat, 5), (k.toNat, 3), (0, 2), (j.toNat, 1), (1, 1), (28, 5), (x.toNat, 1), (5, 4)]
    ⟨by omega, by omega, by omega, by omega, by omega, by omega, by omega, by omega, by omega, by omega, by omega, trivial⟩ (by simp only [runs]; omega) rfl (by omega)
  have f_x : fld w.toNat 26 1 = x := fld_eq e9
  have f_j : fld w.toNat 19 1 = j := fld_eq e6
  have f_k : fld w.toNat 14 3 = k := fld_eq e4
  have f_a : fld w.toNat 9 5 = a := fld_eq e3
  have f_b : fld w.toNat 4 5 = b := fld_eq e2
  have f_m : fld w.toNat 1 3 = m := fld_eq e1
  have f_z : fld w.toNat 0 1 = z := fld_eq e0
  unfold decode
  rw [show w.toNat / 134217728 % 16 = 5 from e10]
  change decodeVectorArith _ = _
  unfold decodeVectorArith
  rw [show w.toNat / 2097152 % 32 = 28 from e8]
  rw [show w.toNat / 1048576 % 2 = 1 from e7]
  refine (if_pos e5).trans ?_
  rw [f_x, f_j, f_k, f_a, f_b, f_m, f_z]
  exact if_pos hw

theorem vcmpLtuInt (x : BitVec 1) (j : BitVec 1) (k : BitVec 3) (a : BitVec 5) (b : BitVec 5) (m : BitVec 3) (z : BitVec 1) : Statement (.vcmpLtuInt x j k a b m z) := by
  intro c w hw h
  change pack c 731906048 (67108864 * x.toNat + 524288 * j.toNat + 16384 * k.toNat + 512 * a.toNat + 16 * b.toNat + 2 * m.toNat + z.toNat) = some w at h
  have hx := x.isLt
  have hj := j.isLt
  have hk := k.isLt
  have ha := a.isLt
  have hb := b.isLt
  have hm := m.isLt
  have hz := z.isLt
  obtain ⟨e0, e1, e2, e3, e4, e5, e6, e7, e8, e9, e10, -⟩ := pack_reads h [(z.toNat, 1), (m.toNat, 3), (b.toNat, 5), (a.toNat, 5), (k.toNat, 3), (0, 2), (j.toNat, 1), (0, 1), (29, 5), (x.toNat, 1), (5, 4)]
    ⟨by omega, by omega, by omega, by omega, by omega, by omega, by omega, by omega, by omega, by omega, by omega, trivial⟩ (by simp only [runs]; omega) rfl (by omega)
  have f_x : fld w.toNat 26 1 = x := fld_eq e9
  have f_j : fld w.toNat 19 1 = j := fld_eq e6
  have f_k : fld w.toNat 14 3 = k := fld_eq e4
  have f_a : fld w.toNat 9 5 = a := fld_eq e3
  have f_b : fld w.toNat 4 5 = b := fld_eq e2
  have f_m : fld w.toNat 1 3 = m := fld_eq e1
  have f_z : fld w.toNat 0 1 = z := fld_eq e0
  unfold decode
  rw [show w.toNat / 134217728 % 16 = 5 from e10]
  change decodeVectorArith _ = _
  unfold decodeVectorArith
  rw [show w.toNat / 2097152 % 32 = 29 from e8]
  rw [show w.toNat / 1048576 % 2 = 0 from e7]
  refine (if_pos e5).trans ?_
  rw [f_x, f_j, f_k, f_a, f_b, f_m, f_z]
  exact if_pos hw

theorem vcmpLeInt (x : BitVec 1) (j : BitVec 1) (k : BitVec 3) (a : BitVec 5) (b : BitVec 5) (m : BitVec 3) (z : BitVec 1) : Statement (.vcmpLeInt x j k a b m z) := by
  intro c w hw h
  change pack c 732954624 (67108864 * x.toNat + 524288 * j.toNat + 16384 * k.toNat + 512 * a.toNat + 16 * b.toNat + 2 * m.toNat + z.toNat) = some w at h
  have hx := x.isLt
  have hj := j.isLt
  have hk := k.isLt
  have ha := a.isLt
  have hb := b.isLt
  have hm := m.isLt
  have hz := z.isLt
  obtain ⟨e0, e1, e2, e3, e4, e5, e6, e7, e8, e9, e10, -⟩ := pack_reads h [(z.toNat, 1), (m.toNat, 3), (b.toNat, 5), (a.toNat, 5), (k.toNat, 3), (0, 2), (j.toNat, 1), (1, 1), (29, 5), (x.toNat, 1), (5, 4)]
    ⟨by omega, by omega, by omega, by omega, by omega, by omega, by omega, by omega, by omega, by omega, by omega, trivial⟩ (by simp only [runs]; omega) rfl (by omega)
  have f_x : fld w.toNat 26 1 = x := fld_eq e9
  have f_j : fld w.toNat 19 1 = j := fld_eq e6
  have f_k : fld w.toNat 14 3 = k := fld_eq e4
  have f_a : fld w.toNat 9 5 = a := fld_eq e3
  have f_b : fld w.toNat 4 5 = b := fld_eq e2
  have f_m : fld w.toNat 1 3 = m := fld_eq e1
  have f_z : fld w.toNat 0 1 = z := fld_eq e0
  unfold decode
  rw [show w.toNat / 134217728 % 16 = 5 from e10]
  change decodeVectorArith _ = _
  unfold decodeVectorArith
  rw [show w.toNat / 2097152 % 32 = 29 from e8]
  rw [show w.toNat / 1048576 % 2 = 1 from e7]
  refine (if_pos e5).trans ?_
  rw [f_x, f_j, f_k, f_a, f_b, f_m, f_z]
  exact if_pos hw

theorem vcvt (x : BitVec 1) (f : BitVec 4) (d : BitVec 5) (a : BitVec 5) (s : BitVec 4) (m : BitVec 3) (z : BitVec 1) : Statement (.vcvt x f d a s m z) := by
  intro c w hw h
  change pack c 805306368 (67108864 * x.toNat + 524288 * f.toNat + 16384 * d.toNat + 512 * a.toNat + 32 * s.toNat + 2 * m.toNat + z.toNat) = some w at h
  have hx := x.isLt
  have hf := f.isLt
  have hd := d.isLt
  have ha := a.isLt
  have hs := s.isLt
  have hm := m.isLt
  have hz := z.isLt
  obtain ⟨e0, e1, e2, e3, e4, e5, e6, e7, e8, e9, -⟩ := pack_reads h [(z.toNat, 1), (m.toNat, 3), (0, 1), (s.toNat, 4), (a.toNat, 5), (d.toNat, 5), (f.toNat, 4), (0, 3), (x.toNat, 1), (6, 4)]
    ⟨by omega, by omega, by omega, by omega, by omega, by omega, by omega, by omega, by omega, by omega, trivial⟩ (by simp only [runs]; omega) rfl (by omega)
  have f_x : fld w.toNat 26 1 = x := fld_eq e8
  have f_f : fld w.toNat 19 4 = f := fld_eq e6
  have f_d : fld w.toNat 14 5 = d := fld_eq e5
  have f_a : fld w.toNat 9 5 = a := fld_eq e4
  have f_s : fld w.toNat 5 4 = s := fld_eq e3
  have f_m : fld w.toNat 1 3 = m := fld_eq e1
  have f_z : fld w.toNat 0 1 = z := fld_eq e0
  unfold decode
  rw [show w.toNat / 134217728 % 16 = 6 from e9]
  change decodeVectorMove _ = _
  unfold decodeVectorMove
  rw [show w.toNat / 8388608 % 8 = 0 from e7]
  refine (if_pos e2).trans ?_
  rw [f_x, f_f, f_d, f_a, f_s, f_m, f_z]
  exact if_pos hw

theorem vmxq (x : BitVec 1) (d : BitVec 5) (a : BitVec 5) (b : BitVec 5) (e : BitVec 3) : Statement (.vmxq x d a b e) := by
  intro c w hw h
  change pack c 813694976 (67108864 * x.toNat + 16384 * d.toNat + 512 * a.toNat + 16 * b.toNat + 2 * e.toNat) = some w at h
  have hx := x.isLt
  have hd := d.isLt
  have ha := a.isLt
  have hb := b.isLt
  have he := e.isLt
  obtain ⟨e0, e1, e2, e3, e4, e5, e6, e7, e8, -⟩ := pack_reads h [(0, 1), (e.toNat, 3), (b.toNat, 5), (a.toNat, 5), (d.toNat, 5), (0, 4), (1, 3), (x.toNat, 1), (6, 4)]
    ⟨by omega, by omega, by omega, by omega, by omega, by omega, by omega, by omega, by omega, trivial⟩ (by simp only [runs]; omega) rfl (by omega)
  have f_x : fld w.toNat 26 1 = x := fld_eq e7
  have f_d : fld w.toNat 14 5 = d := fld_eq e4
  have f_a : fld w.toNat 9 5 = a := fld_eq e3
  have f_b : fld w.toNat 4 5 = b := fld_eq e2
  have f_e : fld w.toNat 1 3 = e := fld_eq e1
  unfold decode
  rw [show w.toNat / 134217728 % 16 = 6 from e8]
  change decodeVectorMove _ = _
  unfold decodeVectorMove
  rw [show w.toNat / 8388608 % 8 = 1 from e6]
  rw [show w.toNat / 524288 % 16 = 0 from e5]
  refine (if_pos (by simpa using e0)).trans ?_
  rw [f_x, f_d, f_a, f_b, f_e]
  exact if_pos hw

theorem vmxd (x : BitVec 1) (d : BitVec 5) (a : BitVec 5) (b : BitVec 5) (e : BitVec 3) : Statement (.vmxd x d a b e) := by
  intro c w hw h
  change pack c 814219264 (67108864 * x.toNat + 16384 * d.toNat + 512 * a.toNat + 16 * b.toNat + 2 * e.toNat) = some w at h
  have hx := x.isLt
  have hd := d.isLt
  have ha := a.isLt
  have hb := b.isLt
  have he := e.isLt
  obtain ⟨e0, e1, e2, e3, e4, e5, e6, e7, e8, -⟩ := pack_reads h [(0, 1), (e.toNat, 3), (b.toNat, 5), (a.toNat, 5), (d.toNat, 5), (1, 4), (1, 3), (x.toNat, 1), (6, 4)]
    ⟨by omega, by omega, by omega, by omega, by omega, by omega, by omega, by omega, by omega, trivial⟩ (by simp only [runs]; omega) rfl (by omega)
  have f_x : fld w.toNat 26 1 = x := fld_eq e7
  have f_d : fld w.toNat 14 5 = d := fld_eq e4
  have f_a : fld w.toNat 9 5 = a := fld_eq e3
  have f_b : fld w.toNat 4 5 = b := fld_eq e2
  have f_e : fld w.toNat 1 3 = e := fld_eq e1
  unfold decode
  rw [show w.toNat / 134217728 % 16 = 6 from e8]
  change decodeVectorMove _ = _
  unfold decodeVectorMove
  rw [show w.toNat / 8388608 % 8 = 1 from e6]
  rw [show w.toNat / 524288 % 16 = 1 from e5]
  refine (if_pos (by simpa using e0)).trans ?_
  rw [f_x, f_d, f_a, f_b, f_e]
  exact if_pos hw

theorem vrcpeF32 (x : BitVec 1) (d : BitVec 5) (a : BitVec 5) (m : BitVec 3) (z : BitVec 1) : Statement (.vrcpeF32 x d a m z) := by
  intro c w hw h
  change pack c 817889280 (67108864 * x.toNat + 16384 * d.toNat + 512 * a.toNat + 2 * m.toNat + z.toNat) = some w at h
  have hx := x.isLt
  have hd := d.isLt
  have ha := a.isLt
  have hm := m.isLt
  have hz := z.isLt
  obtain ⟨e0, e1, e2, e3, e4, e5, e6, e7, e8, -⟩ := pack_reads h [(z.toNat, 1), (m.toNat, 3), (0, 5), (a.toNat, 5), (d.toNat, 5), (8, 4), (1, 3), (x.toNat, 1), (6, 4)]
    ⟨by omega, by omega, by omega, by omega, by omega, by omega, by omega, by omega, by omega, trivial⟩ (by simp only [runs]; omega) rfl (by omega)
  have f_x : fld w.toNat 26 1 = x := fld_eq e7
  have f_d : fld w.toNat 14 5 = d := fld_eq e4
  have f_a : fld w.toNat 9 5 = a := fld_eq e3
  have f_m : fld w.toNat 1 3 = m := fld_eq e1
  have f_z : fld w.toNat 0 1 = z := fld_eq e0
  unfold decode
  rw [show w.toNat / 134217728 % 16 = 6 from e8]
  change decodeVectorMove _ = _
  unfold decodeVectorMove
  rw [show w.toNat / 8388608 % 8 = 1 from e6]
  rw [show w.toNat / 524288 % 16 = 8 from e5]
  refine (if_pos e2).trans ?_
  rw [f_x, f_d, f_a, f_m, f_z]
  exact if_pos hw

theorem vrsqeF32 (x : BitVec 1) (d : BitVec 5) (a : BitVec 5) (m : BitVec 3) (z : BitVec 1) : Statement (.vrsqeF32 x d a m z) := by
  intro c w hw h
  change pack c 818413568 (67108864 * x.toNat + 16384 * d.toNat + 512 * a.toNat + 2 * m.toNat + z.toNat) = some w at h
  have hx := x.isLt
  have hd := d.isLt
  have ha := a.isLt
  have hm := m.isLt
  have hz := z.isLt
  obtain ⟨e0, e1, e2, e3, e4, e5, e6, e7, e8, -⟩ := pack_reads h [(z.toNat, 1), (m.toNat, 3), (0, 5), (a.toNat, 5), (d.toNat, 5), (9, 4), (1, 3), (x.toNat, 1), (6, 4)]
    ⟨by omega, by omega, by omega, by omega, by omega, by omega, by omega, by omega, by omega, trivial⟩ (by simp only [runs]; omega) rfl (by omega)
  have f_x : fld w.toNat 26 1 = x := fld_eq e7
  have f_d : fld w.toNat 14 5 = d := fld_eq e4
  have f_a : fld w.toNat 9 5 = a := fld_eq e3
  have f_m : fld w.toNat 1 3 = m := fld_eq e1
  have f_z : fld w.toNat 0 1 = z := fld_eq e0
  unfold decode
  rw [show w.toNat / 134217728 % 16 = 6 from e8]
  change decodeVectorMove _ = _
  unfold decodeVectorMove
  rw [show w.toNat / 8388608 % 8 = 1 from e6]
  rw [show w.toNat / 524288 % 16 = 9 from e5]
  refine (if_pos e2).trans ?_
  rw [f_x, f_d, f_a, f_m, f_z]
  exact if_pos hw

theorem vfexpF32 (x : BitVec 1) (d : BitVec 5) (a : BitVec 5) (m : BitVec 3) (z : BitVec 1) : Statement (.vfexpF32 x d a m z) := by
  intro c w hw h
  change pack c 818937856 (67108864 * x.toNat + 16384 * d.toNat + 512 * a.toNat + 2 * m.toNat + z.toNat) = some w at h
  have hx := x.isLt
  have hd := d.isLt
  have ha := a.isLt
  have hm := m.isLt
  have hz := z.isLt
  obtain ⟨e0, e1, e2, e3, e4, e5, e6, e7, e8, -⟩ := pack_reads h [(z.toNat, 1), (m.toNat, 3), (0, 5), (a.toNat, 5), (d.toNat, 5), (10, 4), (1, 3), (x.toNat, 1), (6, 4)]
    ⟨by omega, by omega, by omega, by omega, by omega, by omega, by omega, by omega, by omega, trivial⟩ (by simp only [runs]; omega) rfl (by omega)
  have f_x : fld w.toNat 26 1 = x := fld_eq e7
  have f_d : fld w.toNat 14 5 = d := fld_eq e4
  have f_a : fld w.toNat 9 5 = a := fld_eq e3
  have f_m : fld w.toNat 1 3 = m := fld_eq e1
  have f_z : fld w.toNat 0 1 = z := fld_eq e0
  unfold decode
  rw [show w.toNat / 134217728 % 16 = 6 from e8]
  change decodeVectorMove _ = _
  unfold decodeVectorMove
  rw [show w.toNat / 8388608 % 8 = 1 from e6]
  rw [show w.toNat / 524288 % 16 = 10 from e5]
  refine (if_pos e2).trans ?_
  rw [f_x, f_d, f_a, f_m, f_z]
  exact if_pos hw

theorem vscalebF32 (x : BitVec 1) (d : BitVec 5) (a : BitVec 5) (b : BitVec 5) (m : BitVec 3) (z : BitVec 1) : Statement (.vscalebF32 x d a b m z) := by
  intro c w hw h
  change pack c 819462144 (67108864 * x.toNat + 16384 * d.toNat + 512 * a.toNat + 16 * b.toNat + 2 * m.toNat + z.toNat) = some w at h
  have hx := x.isLt
  have hd := d.isLt
  have ha := a.isLt
  have hb := b.isLt
  have hm := m.isLt
  have hz := z.isLt
  obtain ⟨e0, e1, e2, e3, e4, e5, e6, e7, e8, -⟩ := pack_reads h [(z.toNat, 1), (m.toNat, 3), (b.toNat, 5), (a.toNat, 5), (d.toNat, 5), (11, 4), (1, 3), (x.toNat, 1), (6, 4)]
    ⟨by omega, by omega, by omega, by omega, by omega, by omega, by omega, by omega, by omega, trivial⟩ (by simp only [runs]; omega) rfl (by omega)
  have f_x : fld w.toNat 26 1 = x := fld_eq e7
  have f_d : fld w.toNat 14 5 = d := fld_eq e4
  have f_a : fld w.toNat 9 5 = a := fld_eq e3
  have f_b : fld w.toNat 4 5 = b := fld_eq e2
  have f_m : fld w.toNat 1 3 = m := fld_eq e1
  have f_z : fld w.toNat 0 1 = z := fld_eq e0
  unfold decode
  rw [show w.toNat / 134217728 % 16 = 6 from e8]
  change decodeVectorMove _ = _
  unfold decodeVectorMove
  rw [show w.toNat / 8388608 % 8 = 1 from e6]
  rw [show w.toNat / 524288 % 16 = 11 from e5]
  change accept (.vscalebF32 (fld _ 26 1) (fld _ 14 5) (fld _ 9 5) (fld _ 4 5) (fld _ 1 3) (fld _ 0 1)) = _
  rw [f_x, f_d, f_a, f_b, f_m, f_z]
  exact if_pos hw

theorem vgetexpF32 (x : BitVec 1) (d : BitVec 5) (a : BitVec 5) (m : BitVec 3) (z : BitVec 1) : Statement (.vgetexpF32 x d a m z) := by
  intro c w hw h
  change pack c 819986432 (67108864 * x.toNat + 16384 * d.toNat + 512 * a.toNat + 2 * m.toNat + z.toNat) = some w at h
  have hx := x.isLt
  have hd := d.isLt
  have ha := a.isLt
  have hm := m.isLt
  have hz := z.isLt
  obtain ⟨e0, e1, e2, e3, e4, e5, e6, e7, e8, -⟩ := pack_reads h [(z.toNat, 1), (m.toNat, 3), (0, 5), (a.toNat, 5), (d.toNat, 5), (12, 4), (1, 3), (x.toNat, 1), (6, 4)]
    ⟨by omega, by omega, by omega, by omega, by omega, by omega, by omega, by omega, by omega, trivial⟩ (by simp only [runs]; omega) rfl (by omega)
  have f_x : fld w.toNat 26 1 = x := fld_eq e7
  have f_d : fld w.toNat 14 5 = d := fld_eq e4
  have f_a : fld w.toNat 9 5 = a := fld_eq e3
  have f_m : fld w.toNat 1 3 = m := fld_eq e1
  have f_z : fld w.toNat 0 1 = z := fld_eq e0
  unfold decode
  rw [show w.toNat / 134217728 % 16 = 6 from e8]
  change decodeVectorMove _ = _
  unfold decodeVectorMove
  rw [show w.toNat / 8388608 % 8 = 1 from e6]
  rw [show w.toNat / 524288 % 16 = 12 from e5]
  refine (if_pos e2).trans ?_
  rw [f_x, f_d, f_a, f_m, f_z]
  exact if_pos hw

theorem vrndiF32 (x : BitVec 1) (d : BitVec 5) (a : BitVec 5) (m : BitVec 3) (z : BitVec 1) : Statement (.vrndiF32 x d a m z) := by
  intro c w hw h
  change pack c 820510720 (67108864 * x.toNat + 16384 * d.toNat + 512 * a.toNat + 2 * m.toNat + z.toNat) = some w at h
  have hx := x.isLt
  have hd := d.isLt
  have ha := a.isLt
  have hm := m.isLt
  have hz := z.isLt
  obtain ⟨e0, e1, e2, e3, e4, e5, e6, e7, e8, -⟩ := pack_reads h [(z.toNat, 1), (m.toNat, 3), (0, 5), (a.toNat, 5), (d.toNat, 5), (13, 4), (1, 3), (x.toNat, 1), (6, 4)]
    ⟨by omega, by omega, by omega, by omega, by omega, by omega, by omega, by omega, by omega, trivial⟩ (by simp only [runs]; omega) rfl (by omega)
  have f_x : fld w.toNat 26 1 = x := fld_eq e7
  have f_d : fld w.toNat 14 5 = d := fld_eq e4
  have f_a : fld w.toNat 9 5 = a := fld_eq e3
  have f_m : fld w.toNat 1 3 = m := fld_eq e1
  have f_z : fld w.toNat 0 1 = z := fld_eq e0
  unfold decode
  rw [show w.toNat / 134217728 % 16 = 6 from e8]
  change decodeVectorMove _ = _
  unfold decodeVectorMove
  rw [show w.toNat / 8388608 % 8 = 1 from e6]
  rw [show w.toNat / 524288 % 16 = 13 from e5]
  rw [show w.toNat / 16 % 32 = 0 from e2]
  change accept (.vrndiF32 (fld _ 26 1) (fld _ 14 5) (fld _ 9 5) (fld _ 1 3) (fld _ 0 1)) = _
  rw [f_x, f_d, f_a, f_m, f_z]
  exact if_pos hw

theorem vrndiIF32 (x : BitVec 1) (d : BitVec 5) (a : BitVec 5) (m : BitVec 3) (z : BitVec 1) : Statement (.vrndiIF32 x d a m z) := by
  intro c w hw h
  change pack c 820510736 (67108864 * x.toNat + 16384 * d.toNat + 512 * a.toNat + 2 * m.toNat + z.toNat) = some w at h
  have hx := x.isLt
  have hd := d.isLt
  have ha := a.isLt
  have hm := m.isLt
  have hz := z.isLt
  obtain ⟨e0, e1, e2, e3, e4, e5, e6, e7, e8, -⟩ := pack_reads h [(z.toNat, 1), (m.toNat, 3), (1, 5), (a.toNat, 5), (d.toNat, 5), (13, 4), (1, 3), (x.toNat, 1), (6, 4)]
    ⟨by omega, by omega, by omega, by omega, by omega, by omega, by omega, by omega, by omega, trivial⟩ (by simp only [runs]; omega) rfl (by omega)
  have f_x : fld w.toNat 26 1 = x := fld_eq e7
  have f_d : fld w.toNat 14 5 = d := fld_eq e4
  have f_a : fld w.toNat 9 5 = a := fld_eq e3
  have f_m : fld w.toNat 1 3 = m := fld_eq e1
  have f_z : fld w.toNat 0 1 = z := fld_eq e0
  unfold decode
  rw [show w.toNat / 134217728 % 16 = 6 from e8]
  change decodeVectorMove _ = _
  unfold decodeVectorMove
  rw [show w.toNat / 8388608 % 8 = 1 from e6]
  rw [show w.toNat / 524288 % 16 = 13 from e5]
  rw [show w.toNat / 16 % 32 = 1 from e2]
  change accept (.vrndiIF32 (fld _ 26 1) (fld _ 14 5) (fld _ 9 5) (fld _ 1 3) (fld _ 0 1)) = _
  rw [f_x, f_d, f_a, f_m, f_z]
  exact if_pos hw

theorem vclassF32 (x : BitVec 1) (d : BitVec 5) (a : BitVec 5) (m : BitVec 3) (z : BitVec 1) : Statement (.vclassF32 x d a m z) := by
  intro c w hw h
  change pack c 821035008 (67108864 * x.toNat + 16384 * d.toNat + 512 * a.toNat + 2 * m.toNat + z.toNat) = some w at h
  have hx := x.isLt
  have hd := d.isLt
  have ha := a.isLt
  have hm := m.isLt
  have hz := z.isLt
  obtain ⟨e0, e1, e2, e3, e4, e5, e6, e7, e8, -⟩ := pack_reads h [(z.toNat, 1), (m.toNat, 3), (0, 5), (a.toNat, 5), (d.toNat, 5), (14, 4), (1, 3), (x.toNat, 1), (6, 4)]
    ⟨by omega, by omega, by omega, by omega, by omega, by omega, by omega, by omega, by omega, trivial⟩ (by simp only [runs]; omega) rfl (by omega)
  have f_x : fld w.toNat 26 1 = x := fld_eq e7
  have f_d : fld w.toNat 14 5 = d := fld_eq e4
  have f_a : fld w.toNat 9 5 = a := fld_eq e3
  have f_m : fld w.toNat 1 3 = m := fld_eq e1
  have f_z : fld w.toNat 0 1 = z := fld_eq e0
  unfold decode
  rw [show w.toNat / 134217728 % 16 = 6 from e8]
  change decodeVectorMove _ = _
  unfold decodeVectorMove
  rw [show w.toNat / 8388608 % 8 = 1 from e6]
  rw [show w.toNat / 524288 % 16 = 14 from e5]
  refine (if_pos e2).trans ?_
  rw [f_x, f_d, f_a, f_m, f_z]
  exact if_pos hw

theorem vrcpeF64 (x : BitVec 1) (d : BitVec 5) (a : BitVec 5) (m : BitVec 3) (z : BitVec 1) : Statement (.vrcpeF64 x d a m z) := by
  intro c w hw h
  change pack c 822083584 (67108864 * x.toNat + 16384 * d.toNat + 512 * a.toNat + 2 * m.toNat + z.toNat) = some w at h
  have hx := x.isLt
  have hd := d.isLt
  have ha := a.isLt
  have hm := m.isLt
  have hz := z.isLt
  obtain ⟨e0, e1, e2, e3, e4, e5, e6, e7, e8, -⟩ := pack_reads h [(z.toNat, 1), (m.toNat, 3), (0, 5), (a.toNat, 5), (d.toNat, 5), (0, 4), (2, 3), (x.toNat, 1), (6, 4)]
    ⟨by omega, by omega, by omega, by omega, by omega, by omega, by omega, by omega, by omega, trivial⟩ (by simp only [runs]; omega) rfl (by omega)
  have f_x : fld w.toNat 26 1 = x := fld_eq e7
  have f_d : fld w.toNat 14 5 = d := fld_eq e4
  have f_a : fld w.toNat 9 5 = a := fld_eq e3
  have f_m : fld w.toNat 1 3 = m := fld_eq e1
  have f_z : fld w.toNat 0 1 = z := fld_eq e0
  unfold decode
  rw [show w.toNat / 134217728 % 16 = 6 from e8]
  change decodeVectorMove _ = _
  unfold decodeVectorMove
  rw [show w.toNat / 8388608 % 8 = 2 from e6]
  rw [show w.toNat / 524288 % 16 = 0 from e5]
  refine (if_pos e2).trans ?_
  rw [f_x, f_d, f_a, f_m, f_z]
  exact if_pos hw

theorem vrsqeF64 (x : BitVec 1) (d : BitVec 5) (a : BitVec 5) (m : BitVec 3) (z : BitVec 1) : Statement (.vrsqeF64 x d a m z) := by
  intro c w hw h
  change pack c 822607872 (67108864 * x.toNat + 16384 * d.toNat + 512 * a.toNat + 2 * m.toNat + z.toNat) = some w at h
  have hx := x.isLt
  have hd := d.isLt
  have ha := a.isLt
  have hm := m.isLt
  have hz := z.isLt
  obtain ⟨e0, e1, e2, e3, e4, e5, e6, e7, e8, -⟩ := pack_reads h [(z.toNat, 1), (m.toNat, 3), (0, 5), (a.toNat, 5), (d.toNat, 5), (1, 4), (2, 3), (x.toNat, 1), (6, 4)]
    ⟨by omega, by omega, by omega, by omega, by omega, by omega, by omega, by omega, by omega, trivial⟩ (by simp only [runs]; omega) rfl (by omega)
  have f_x : fld w.toNat 26 1 = x := fld_eq e7
  have f_d : fld w.toNat 14 5 = d := fld_eq e4
  have f_a : fld w.toNat 9 5 = a := fld_eq e3
  have f_m : fld w.toNat 1 3 = m := fld_eq e1
  have f_z : fld w.toNat 0 1 = z := fld_eq e0
  unfold decode
  rw [show w.toNat / 134217728 % 16 = 6 from e8]
  change decodeVectorMove _ = _
  unfold decodeVectorMove
  rw [show w.toNat / 8388608 % 8 = 2 from e6]
  rw [show w.toNat / 524288 % 16 = 1 from e5]
  refine (if_pos e2).trans ?_
  rw [f_x, f_d, f_a, f_m, f_z]
  exact if_pos hw

theorem vfexpF64 (x : BitVec 1) (d : BitVec 5) (a : BitVec 5) (m : BitVec 3) (z : BitVec 1) : Statement (.vfexpF64 x d a m z) := by
  intro c w hw h
  change pack c 823132160 (67108864 * x.toNat + 16384 * d.toNat + 512 * a.toNat + 2 * m.toNat + z.toNat) = some w at h
  have hx := x.isLt
  have hd := d.isLt
  have ha := a.isLt
  have hm := m.isLt
  have hz := z.isLt
  obtain ⟨e0, e1, e2, e3, e4, e5, e6, e7, e8, -⟩ := pack_reads h [(z.toNat, 1), (m.toNat, 3), (0, 5), (a.toNat, 5), (d.toNat, 5), (2, 4), (2, 3), (x.toNat, 1), (6, 4)]
    ⟨by omega, by omega, by omega, by omega, by omega, by omega, by omega, by omega, by omega, trivial⟩ (by simp only [runs]; omega) rfl (by omega)
  have f_x : fld w.toNat 26 1 = x := fld_eq e7
  have f_d : fld w.toNat 14 5 = d := fld_eq e4
  have f_a : fld w.toNat 9 5 = a := fld_eq e3
  have f_m : fld w.toNat 1 3 = m := fld_eq e1
  have f_z : fld w.toNat 0 1 = z := fld_eq e0
  unfold decode
  rw [show w.toNat / 134217728 % 16 = 6 from e8]
  change decodeVectorMove _ = _
  unfold decodeVectorMove
  rw [show w.toNat / 8388608 % 8 = 2 from e6]
  rw [show w.toNat / 524288 % 16 = 2 from e5]
  refine (if_pos e2).trans ?_
  rw [f_x, f_d, f_a, f_m, f_z]
  exact if_pos hw

theorem vscalebF64 (x : BitVec 1) (d : BitVec 5) (a : BitVec 5) (b : BitVec 5) (m : BitVec 3) (z : BitVec 1) : Statement (.vscalebF64 x d a b m z) := by
  intro c w hw h
  change pack c 823656448 (67108864 * x.toNat + 16384 * d.toNat + 512 * a.toNat + 16 * b.toNat + 2 * m.toNat + z.toNat) = some w at h
  have hx := x.isLt
  have hd := d.isLt
  have ha := a.isLt
  have hb := b.isLt
  have hm := m.isLt
  have hz := z.isLt
  obtain ⟨e0, e1, e2, e3, e4, e5, e6, e7, e8, -⟩ := pack_reads h [(z.toNat, 1), (m.toNat, 3), (b.toNat, 5), (a.toNat, 5), (d.toNat, 5), (3, 4), (2, 3), (x.toNat, 1), (6, 4)]
    ⟨by omega, by omega, by omega, by omega, by omega, by omega, by omega, by omega, by omega, trivial⟩ (by simp only [runs]; omega) rfl (by omega)
  have f_x : fld w.toNat 26 1 = x := fld_eq e7
  have f_d : fld w.toNat 14 5 = d := fld_eq e4
  have f_a : fld w.toNat 9 5 = a := fld_eq e3
  have f_b : fld w.toNat 4 5 = b := fld_eq e2
  have f_m : fld w.toNat 1 3 = m := fld_eq e1
  have f_z : fld w.toNat 0 1 = z := fld_eq e0
  unfold decode
  rw [show w.toNat / 134217728 % 16 = 6 from e8]
  change decodeVectorMove _ = _
  unfold decodeVectorMove
  rw [show w.toNat / 8388608 % 8 = 2 from e6]
  rw [show w.toNat / 524288 % 16 = 3 from e5]
  change accept (.vscalebF64 (fld _ 26 1) (fld _ 14 5) (fld _ 9 5) (fld _ 4 5) (fld _ 1 3) (fld _ 0 1)) = _
  rw [f_x, f_d, f_a, f_b, f_m, f_z]
  exact if_pos hw

theorem vgetexpF64 (x : BitVec 1) (d : BitVec 5) (a : BitVec 5) (m : BitVec 3) (z : BitVec 1) : Statement (.vgetexpF64 x d a m z) := by
  intro c w hw h
  change pack c 824180736 (67108864 * x.toNat + 16384 * d.toNat + 512 * a.toNat + 2 * m.toNat + z.toNat) = some w at h
  have hx := x.isLt
  have hd := d.isLt
  have ha := a.isLt
  have hm := m.isLt
  have hz := z.isLt
  obtain ⟨e0, e1, e2, e3, e4, e5, e6, e7, e8, -⟩ := pack_reads h [(z.toNat, 1), (m.toNat, 3), (0, 5), (a.toNat, 5), (d.toNat, 5), (4, 4), (2, 3), (x.toNat, 1), (6, 4)]
    ⟨by omega, by omega, by omega, by omega, by omega, by omega, by omega, by omega, by omega, trivial⟩ (by simp only [runs]; omega) rfl (by omega)
  have f_x : fld w.toNat 26 1 = x := fld_eq e7
  have f_d : fld w.toNat 14 5 = d := fld_eq e4
  have f_a : fld w.toNat 9 5 = a := fld_eq e3
  have f_m : fld w.toNat 1 3 = m := fld_eq e1
  have f_z : fld w.toNat 0 1 = z := fld_eq e0
  unfold decode
  rw [show w.toNat / 134217728 % 16 = 6 from e8]
  change decodeVectorMove _ = _
  unfold decodeVectorMove
  rw [show w.toNat / 8388608 % 8 = 2 from e6]
  rw [show w.toNat / 524288 % 16 = 4 from e5]
  refine (if_pos e2).trans ?_
  rw [f_x, f_d, f_a, f_m, f_z]
  exact if_pos hw

theorem vrndiF64 (x : BitVec 1) (d : BitVec 5) (a : BitVec 5) (m : BitVec 3) (z : BitVec 1) : Statement (.vrndiF64 x d a m z) := by
  intro c w hw h
  change pack c 824705024 (67108864 * x.toNat + 16384 * d.toNat + 512 * a.toNat + 2 * m.toNat + z.toNat) = some w at h
  have hx := x.isLt
  have hd := d.isLt
  have ha := a.isLt
  have hm := m.isLt
  have hz := z.isLt
  obtain ⟨e0, e1, e2, e3, e4, e5, e6, e7, e8, -⟩ := pack_reads h [(z.toNat, 1), (m.toNat, 3), (0, 5), (a.toNat, 5), (d.toNat, 5), (5, 4), (2, 3), (x.toNat, 1), (6, 4)]
    ⟨by omega, by omega, by omega, by omega, by omega, by omega, by omega, by omega, by omega, trivial⟩ (by simp only [runs]; omega) rfl (by omega)
  have f_x : fld w.toNat 26 1 = x := fld_eq e7
  have f_d : fld w.toNat 14 5 = d := fld_eq e4
  have f_a : fld w.toNat 9 5 = a := fld_eq e3
  have f_m : fld w.toNat 1 3 = m := fld_eq e1
  have f_z : fld w.toNat 0 1 = z := fld_eq e0
  unfold decode
  rw [show w.toNat / 134217728 % 16 = 6 from e8]
  change decodeVectorMove _ = _
  unfold decodeVectorMove
  rw [show w.toNat / 8388608 % 8 = 2 from e6]
  rw [show w.toNat / 524288 % 16 = 5 from e5]
  rw [show w.toNat / 16 % 32 = 0 from e2]
  change accept (.vrndiF64 (fld _ 26 1) (fld _ 14 5) (fld _ 9 5) (fld _ 1 3) (fld _ 0 1)) = _
  rw [f_x, f_d, f_a, f_m, f_z]
  exact if_pos hw

theorem vrndiIF64 (x : BitVec 1) (d : BitVec 5) (a : BitVec 5) (m : BitVec 3) (z : BitVec 1) : Statement (.vrndiIF64 x d a m z) := by
  intro c w hw h
  change pack c 824705040 (67108864 * x.toNat + 16384 * d.toNat + 512 * a.toNat + 2 * m.toNat + z.toNat) = some w at h
  have hx := x.isLt
  have hd := d.isLt
  have ha := a.isLt
  have hm := m.isLt
  have hz := z.isLt
  obtain ⟨e0, e1, e2, e3, e4, e5, e6, e7, e8, -⟩ := pack_reads h [(z.toNat, 1), (m.toNat, 3), (1, 5), (a.toNat, 5), (d.toNat, 5), (5, 4), (2, 3), (x.toNat, 1), (6, 4)]
    ⟨by omega, by omega, by omega, by omega, by omega, by omega, by omega, by omega, by omega, trivial⟩ (by simp only [runs]; omega) rfl (by omega)
  have f_x : fld w.toNat 26 1 = x := fld_eq e7
  have f_d : fld w.toNat 14 5 = d := fld_eq e4
  have f_a : fld w.toNat 9 5 = a := fld_eq e3
  have f_m : fld w.toNat 1 3 = m := fld_eq e1
  have f_z : fld w.toNat 0 1 = z := fld_eq e0
  unfold decode
  rw [show w.toNat / 134217728 % 16 = 6 from e8]
  change decodeVectorMove _ = _
  unfold decodeVectorMove
  rw [show w.toNat / 8388608 % 8 = 2 from e6]
  rw [show w.toNat / 524288 % 16 = 5 from e5]
  rw [show w.toNat / 16 % 32 = 1 from e2]
  change accept (.vrndiIF64 (fld _ 26 1) (fld _ 14 5) (fld _ 9 5) (fld _ 1 3) (fld _ 0 1)) = _
  rw [f_x, f_d, f_a, f_m, f_z]
  exact if_pos hw

theorem vclassF64 (x : BitVec 1) (d : BitVec 5) (a : BitVec 5) (m : BitVec 3) (z : BitVec 1) : Statement (.vclassF64 x d a m z) := by
  intro c w hw h
  change pack c 825229312 (67108864 * x.toNat + 16384 * d.toNat + 512 * a.toNat + 2 * m.toNat + z.toNat) = some w at h
  have hx := x.isLt
  have hd := d.isLt
  have ha := a.isLt
  have hm := m.isLt
  have hz := z.isLt
  obtain ⟨e0, e1, e2, e3, e4, e5, e6, e7, e8, -⟩ := pack_reads h [(z.toNat, 1), (m.toNat, 3), (0, 5), (a.toNat, 5), (d.toNat, 5), (6, 4), (2, 3), (x.toNat, 1), (6, 4)]
    ⟨by omega, by omega, by omega, by omega, by omega, by omega, by omega, by omega, by omega, trivial⟩ (by simp only [runs]; omega) rfl (by omega)
  have f_x : fld w.toNat 26 1 = x := fld_eq e7
  have f_d : fld w.toNat 14 5 = d := fld_eq e4
  have f_a : fld w.toNat 9 5 = a := fld_eq e3
  have f_m : fld w.toNat 1 3 = m := fld_eq e1
  have f_z : fld w.toNat 0 1 = z := fld_eq e0
  unfold decode
  rw [show w.toNat / 134217728 % 16 = 6 from e8]
  change decodeVectorMove _ = _
  unfold decodeVectorMove
  rw [show w.toNat / 8388608 % 8 = 2 from e6]
  rw [show w.toNat / 524288 % 16 = 6 from e5]
  refine (if_pos e2).trans ?_
  rw [f_x, f_d, f_a, f_m, f_z]
  exact if_pos hw

theorem vsel (x : BitVec 1) (d : BitVec 5) (a : BitVec 5) (b : BitVec 5) (k : BitVec 3) : Statement (.vsel x d a b k) := by
  intro c w hw h
  change pack c 826277888 (67108864 * x.toNat + 16384 * d.toNat + 512 * a.toNat + 16 * b.toNat + 2 * k.toNat) = some w at h
  have hx := x.isLt
  have hd := d.isLt
  have ha := a.isLt
  have hb := b.isLt
  have hk := k.isLt
  obtain ⟨e0, e1, e2, e3, e4, e5, e6, e7, e8, -⟩ := pack_reads h [(0, 1), (k.toNat, 3), (b.toNat, 5), (a.toNat, 5), (d.toNat, 5), (8, 4), (2, 3), (x.toNat, 1), (6, 4)]
    ⟨by omega, by omega, by omega, by omega, by omega, by omega, by omega, by omega, by omega, trivial⟩ (by simp only [runs]; omega) rfl (by omega)
  have f_x : fld w.toNat 26 1 = x := fld_eq e7
  have f_d : fld w.toNat 14 5 = d := fld_eq e4
  have f_a : fld w.toNat 9 5 = a := fld_eq e3
  have f_b : fld w.toNat 4 5 = b := fld_eq e2
  have f_k : fld w.toNat 1 3 = k := fld_eq e1
  unfold decode
  rw [show w.toNat / 134217728 % 16 = 6 from e8]
  change decodeVectorMove _ = _
  unfold decodeVectorMove
  rw [show w.toNat / 8388608 % 8 = 2 from e6]
  rw [show w.toNat / 524288 % 16 = 8 from e5]
  refine (if_pos (by simpa using e0)).trans ?_
  rw [f_x, f_d, f_a, f_b, f_k]
  exact if_pos hw

theorem vmov (x : BitVec 1) (d : BitVec 5) (a : BitVec 5) (m : BitVec 3) (z : BitVec 1) : Statement (.vmov x d a m z) := by
  intro c w hw h
  change pack c 826802176 (67108864 * x.toNat + 16384 * d.toNat + 512 * a.toNat + 2 * m.toNat + z.toNat) = some w at h
  have hx := x.isLt
  have hd := d.isLt
  have ha := a.isLt
  have hm := m.isLt
  have hz := z.isLt
  obtain ⟨e0, e1, e2, e3, e4, e5, e6, e7, e8, -⟩ := pack_reads h [(z.toNat, 1), (m.toNat, 3), (0, 5), (a.toNat, 5), (d.toNat, 5), (9, 4), (2, 3), (x.toNat, 1), (6, 4)]
    ⟨by omega, by omega, by omega, by omega, by omega, by omega, by omega, by omega, by omega, trivial⟩ (by simp only [runs]; omega) rfl (by omega)
  have f_x : fld w.toNat 26 1 = x := fld_eq e7
  have f_d : fld w.toNat 14 5 = d := fld_eq e4
  have f_a : fld w.toNat 9 5 = a := fld_eq e3
  have f_m : fld w.toNat 1 3 = m := fld_eq e1
  have f_z : fld w.toNat 0 1 = z := fld_eq e0
  unfold decode
  rw [show w.toNat / 134217728 % 16 = 6 from e8]
  change decodeVectorMove _ = _
  unfold decodeVectorMove
  rw [show w.toNat / 8388608 % 8 = 2 from e6]
  rw [show w.toNat / 524288 % 16 = 9 from e5]
  refine (if_pos e2).trans ?_
  rw [f_x, f_d, f_a, f_m, f_z]
  exact if_pos hw

theorem vxmov (x : BitVec 1) (d : BitVec 5) (a : BitVec 5) (m : BitVec 3) (z : BitVec 1) : Statement (.vxmov x d a m z) := by
  intro c w hw h
  change pack c 827326464 (67108864 * x.toNat + 16384 * d.toNat + 512 * a.toNat + 2 * m.toNat + z.toNat) = some w at h
  have hx := x.isLt
  have hd := d.isLt
  have ha := a.isLt
  have hm := m.isLt
  have hz := z.isLt
  obtain ⟨e0, e1, e2, e3, e4, e5, e6, e7, e8, -⟩ := pack_reads h [(z.toNat, 1), (m.toNat, 3), (0, 5), (a.toNat, 5), (d.toNat, 5), (10, 4), (2, 3), (x.toNat, 1), (6, 4)]
    ⟨by omega, by omega, by omega, by omega, by omega, by omega, by omega, by omega, by omega, trivial⟩ (by simp only [runs]; omega) rfl (by omega)
  have f_x : fld w.toNat 26 1 = x := fld_eq e7
  have f_d : fld w.toNat 14 5 = d := fld_eq e4
  have f_a : fld w.toNat 9 5 = a := fld_eq e3
  have f_m : fld w.toNat 1 3 = m := fld_eq e1
  have f_z : fld w.toNat 0 1 = z := fld_eq e0
  unfold decode
  rw [show w.toNat / 134217728 % 16 = 6 from e8]
  change decodeVectorMove _ = _
  unfold decodeVectorMove
  rw [show w.toNat / 8388608 % 8 = 2 from e6]
  rw [show w.toNat / 524288 % 16 = 10 from e5]
  refine (if_pos e2).trans ?_
  rw [f_x, f_d, f_a, f_m, f_z]
  exact if_pos hw

theorem vbcast (x : BitVec 1) (d : BitVec 5) (s : BitVec 5) (ww : BitVec 2) (m : BitVec 3) (z : BitVec 1) : Statement (.vbcast x d s ww m z) := by
  intro c w hw h
  change pack c 827850752 (67108864 * x.toNat + 16384 * d.toNat + 512 * s.toNat + 16 * ww.toNat + 2 * m.toNat + z.toNat) = some w at h
  have hx := x.isLt
  have hd := d.isLt
  have hs := s.isLt
  have hww := ww.isLt
  have hm := m.isLt
  have hz := z.isLt
  obtain ⟨e0, e1, e2, e3, e4, e5, e6, e7, e8, e9, -⟩ := pack_reads h [(z.toNat, 1), (m.toNat, 3), (ww.toNat, 2), (0, 3), (s.toNat, 5), (d.toNat, 5), (11, 4), (2, 3), (x.toNat, 1), (6, 4)]
    ⟨by omega, by omega, by omega, by omega, by omega, by omega, by omega, by omega, by omega, by omega, trivial⟩ (by simp only [runs]; omega) rfl (by omega)
  have f_x : fld w.toNat 26 1 = x := fld_eq e8
  have f_d : fld w.toNat 14 5 = d := fld_eq e5
  have f_s : fld w.toNat 9 5 = s := fld_eq e4
  have f_ww : fld w.toNat 4 2 = ww := fld_eq e2
  have f_m : fld w.toNat 1 3 = m := fld_eq e1
  have f_z : fld w.toNat 0 1 = z := fld_eq e0
  unfold decode
  rw [show w.toNat / 134217728 % 16 = 6 from e9]
  change decodeVectorMove _ = _
  unfold decodeVectorMove
  rw [show w.toNat / 8388608 % 8 = 2 from e7]
  rw [show w.toNat / 524288 % 16 = 11 from e6]
  refine (if_pos e3).trans ?_
  rw [f_x, f_d, f_s, f_ww, f_m, f_z]
  exact if_pos hw

theorem vext (x : BitVec 1) (d : BitVec 5) (a : BitVec 5) (nn : BitVec 5) (hh : BitVec 1) (ww : BitVec 2) (e : BitVec 1) : Statement (.vext x d a nn hh ww e) := by
  intro c w hw h
  change pack c 828375040 (67108864 * x.toNat + 16384 * d.toNat + 512 * a.toNat + 16 * nn.toNat + 8 * hh.toNat + 2 * ww.toNat + e.toNat) = some w at h
  have hx := x.isLt
  have hd := d.isLt
  have ha := a.isLt
  have hnn := nn.isLt
  have hhh := hh.isLt
  have hww := ww.isLt
  have he := e.isLt
  obtain ⟨e0, e1, e2, e3, e4, e5, e6, e7, e8, e9, -⟩ := pack_reads h [(e.toNat, 1), (ww.toNat, 2), (hh.toNat, 1), (nn.toNat, 5), (a.toNat, 5), (d.toNat, 5), (12, 4), (2, 3), (x.toNat, 1), (6, 4)]
    ⟨by omega, by omega, by omega, by omega, by omega, by omega, by omega, by omega, by omega, by omega, trivial⟩ (by simp only [runs]; omega) rfl (by omega)
  have f_x : fld w.toNat 26 1 = x := fld_eq e8
  have f_d : fld w.toNat 14 5 = d := fld_eq e5
  have f_a : fld w.toNat 9 5 = a := fld_eq e4
  have f_nn : fld w.toNat 4 5 = nn := fld_eq e3
  have f_hh : fld w.toNat 3 1 = hh := fld_eq e2
  have f_ww : fld w.toNat 1 2 = ww := fld_eq e1
  have f_e : fld w.toNat 0 1 = e := fld_eq e0
  unfold decode
  rw [show w.toNat / 134217728 % 16 = 6 from e9]
  change decodeVectorMove _ = _
  unfold decodeVectorMove
  rw [show w.toNat / 8388608 % 8 = 2 from e7]
  rw [show w.toNat / 524288 % 16 = 12 from e6]
  change accept (.vext (fld _ 26 1) (fld _ 14 5) (fld _ 9 5) (fld _ 4 5) (fld _ 3 1) (fld _ 1 2) (fld _ 0 1)) = _
  rw [f_x, f_d, f_a, f_nn, f_hh, f_ww, f_e]
  exact if_pos hw

theorem vins (x : BitVec 1) (d : BitVec 5) (s : BitVec 5) (nn : BitVec 5) (hh : BitVec 1) (ww : BitVec 2) : Statement (.vins x d s nn hh ww) := by
  intro c w hw h
  change pack c 828899328 (67108864 * x.toNat + 16384 * d.toNat + 512 * s.toNat + 16 * nn.toNat + 8 * hh.toNat + 2 * ww.toNat) = some w at h
  have hx := x.isLt
  have hd := d.isLt
  have hs := s.isLt
  have hnn := nn.isLt
  have hhh := hh.isLt
  have hww := ww.isLt
  obtain ⟨e0, e1, e2, e3, e4, e5, e6, e7, e8, e9, -⟩ := pack_reads h [(0, 1), (ww.toNat, 2), (hh.toNat, 1), (nn.toNat, 5), (s.toNat, 5), (d.toNat, 5), (13, 4), (2, 3), (x.toNat, 1), (6, 4)]
    ⟨by omega, by omega, by omega, by omega, by omega, by omega, by omega, by omega, by omega, by omega, trivial⟩ (by simp only [runs]; omega) rfl (by omega)
  have f_x : fld w.toNat 26 1 = x := fld_eq e8
  have f_d : fld w.toNat 14 5 = d := fld_eq e5
  have f_s : fld w.toNat 9 5 = s := fld_eq e4
  have f_nn : fld w.toNat 4 5 = nn := fld_eq e3
  have f_hh : fld w.toNat 3 1 = hh := fld_eq e2
  have f_ww : fld w.toNat 1 2 = ww := fld_eq e1
  unfold decode
  rw [show w.toNat / 134217728 % 16 = 6 from e9]
  change decodeVectorMove _ = _
  unfold decodeVectorMove
  rw [show w.toNat / 8388608 % 8 = 2 from e7]
  rw [show w.toNat / 524288 % 16 = 13 from e6]
  refine (if_pos (by simpa using e0)).trans ?_
  rw [f_x, f_d, f_s, f_nn, f_hh, f_ww]
  exact if_pos hw

theorem vperm (x : BitVec 1) (d : BitVec 5) (a : BitVec 5) (b : BitVec 5) (m : BitVec 3) (z : BitVec 1) : Statement (.vperm x d a b m z) := by
  intro c w hw h
  change pack c 829423616 (67108864 * x.toNat + 16384 * d.toNat + 512 * a.toNat + 16 * b.toNat + 2 * m.toNat + z.toNat) = some w at h
  have hx := x.isLt
  have hd := d.isLt
  have ha := a.isLt
  have hb := b.isLt
  have hm := m.isLt
  have hz := z.isLt
  obtain ⟨e0, e1, e2, e3, e4, e5, e6, e7, e8, -⟩ := pack_reads h [(z.toNat, 1), (m.toNat, 3), (b.toNat, 5), (a.toNat, 5), (d.toNat, 5), (14, 4), (2, 3), (x.toNat, 1), (6, 4)]
    ⟨by omega, by omega, by omega, by omega, by omega, by omega, by omega, by omega, by omega, trivial⟩ (by simp only [runs]; omega) rfl (by omega)
  have f_x : fld w.toNat 26 1 = x := fld_eq e7
  have f_d : fld w.toNat 14 5 = d := fld_eq e4
  have f_a : fld w.toNat 9 5 = a := fld_eq e3
  have f_b : fld w.toNat 4 5 = b := fld_eq e2
  have f_m : fld w.toNat 1 3 = m := fld_eq e1
  have f_z : fld w.toNat 0 1 = z := fld_eq e0
  unfold decode
  rw [show w.toNat / 134217728 % 16 = 6 from e8]
  change decodeVectorMove _ = _
  unfold decodeVectorMove
  rw [show w.toNat / 8388608 % 8 = 2 from e6]
  rw [show w.toNat / 524288 % 16 = 14 from e5]
  change accept (.vperm (fld _ 26 1) (fld _ 14 5) (fld _ 9 5) (fld _ 4 5) (fld _ 1 3) (fld _ 0 1)) = _
  rw [f_x, f_d, f_a, f_b, f_m, f_z]
  exact if_pos hw

theorem vshuf (x : BitVec 1) (d : BitVec 5) (a : BitVec 5) (b : BitVec 5) (m : BitVec 3) (z : BitVec 1) : Statement (.vshuf x d a b m z) := by
  intro c w hw h
  change pack c 829947904 (67108864 * x.toNat + 16384 * d.toNat + 512 * a.toNat + 16 * b.toNat + 2 * m.toNat + z.toNat) = some w at h
  have hx := x.isLt
  have hd := d.isLt
  have ha := a.isLt
  have hb := b.isLt
  have hm := m.isLt
  have hz := z.isLt
  obtain ⟨e0, e1, e2, e3, e4, e5, e6, e7, e8, -⟩ := pack_reads h [(z.toNat, 1), (m.toNat, 3), (b.toNat, 5), (a.toNat, 5), (d.toNat, 5), (15, 4), (2, 3), (x.toNat, 1), (6, 4)]
    ⟨by omega, by omega, by omega, by omega, by omega, by omega, by omega, by omega, by omega, trivial⟩ (by simp only [runs]; omega) rfl (by omega)
  have f_x : fld w.toNat 26 1 = x := fld_eq e7
  have f_d : fld w.toNat 14 5 = d := fld_eq e4
  have f_a : fld w.toNat 9 5 = a := fld_eq e3
  have f_b : fld w.toNat 4 5 = b := fld_eq e2
  have f_m : fld w.toNat 1 3 = m := fld_eq e1
  have f_z : fld w.toNat 0 1 = z := fld_eq e0
  unfold decode
  rw [show w.toNat / 134217728 % 16 = 6 from e8]
  change decodeVectorMove _ = _
  unfold decodeVectorMove
  rw [show w.toNat / 8388608 % 8 = 2 from e6]
  rw [show w.toNat / 524288 % 16 = 15 from e5]
  change accept (.vshuf (fld _ 26 1) (fld _ 14 5) (fld _ 9 5) (fld _ 4 5) (fld _ 1 3) (fld _ 0 1)) = _
  rw [f_x, f_d, f_a, f_b, f_m, f_z]
  exact if_pos hw

theorem vredAddF32 (x : BitVec 1) (d : BitVec 5) (a : BitVec 5) (b : BitVec 5) (m : BitVec 3) : Statement (.vredAddF32 x d a b m) := by
  intro c w hw h
  change pack c 830472192 (67108864 * x.toNat + 16384 * d.toNat + 512 * a.toNat + 16 * b.toNat + 2 * m.toNat) = some w at h
  have hx := x.isLt
  have hd := d.isLt
  have ha := a.isLt
  have hb := b.isLt
  have hm := m.isLt
  obtain ⟨e0, e1, e2, e3, e4, e5, e6, e7, e8, -⟩ := pack_reads h [(0, 1), (m.toNat, 3), (b.toNat, 5), (a.toNat, 5), (d.toNat, 5), (0, 4), (3, 3), (x.toNat, 1), (6, 4)]
    ⟨by omega, by omega, by omega, by omega, by omega, by omega, by omega, by omega, by omega, trivial⟩ (by simp only [runs]; omega) rfl (by omega)
  have f_x : fld w.toNat 26 1 = x := fld_eq e7
  have f_d : fld w.toNat 14 5 = d := fld_eq e4
  have f_a : fld w.toNat 9 5 = a := fld_eq e3
  have f_b : fld w.toNat 4 5 = b := fld_eq e2
  have f_m : fld w.toNat 1 3 = m := fld_eq e1
  unfold decode
  rw [show w.toNat / 134217728 % 16 = 6 from e8]
  change decodeVectorMove _ = _
  unfold decodeVectorMove
  rw [show w.toNat / 8388608 % 8 = 3 from e6]
  rw [show w.toNat / 524288 % 16 = 0 from e5]
  refine (if_pos (by simpa using e0)).trans ?_
  rw [f_x, f_d, f_a, f_b, f_m]
  exact if_pos hw

theorem vredAddF64 (x : BitVec 1) (d : BitVec 5) (a : BitVec 5) (b : BitVec 5) (m : BitVec 3) : Statement (.vredAddF64 x d a b m) := by
  intro c w hw h
  change pack c 830996480 (67108864 * x.toNat + 16384 * d.toNat + 512 * a.toNat + 16 * b.toNat + 2 * m.toNat) = some w at h
  have hx := x.isLt
  have hd := d.isLt
  have ha := a.isLt
  have hb := b.isLt
  have hm := m.isLt
  obtain ⟨e0, e1, e2, e3, e4, e5, e6, e7, e8, -⟩ := pack_reads h [(0, 1), (m.toNat, 3), (b.toNat, 5), (a.toNat, 5), (d.toNat, 5), (1, 4), (3, 3), (x.toNat, 1), (6, 4)]
    ⟨by omega, by omega, by omega, by omega, by omega, by omega, by omega, by omega, by omega, trivial⟩ (by simp only [runs]; omega) rfl (by omega)
  have f_x : fld w.toNat 26 1 = x := fld_eq e7
  have f_d : fld w.toNat 14 5 = d := fld_eq e4
  have f_a : fld w.toNat 9 5 = a := fld_eq e3
  have f_b : fld w.toNat 4 5 = b := fld_eq e2
  have f_m : fld w.toNat 1 3 = m := fld_eq e1
  unfold decode
  rw [show w.toNat / 134217728 % 16 = 6 from e8]
  change decodeVectorMove _ = _
  unfold decodeVectorMove
  rw [show w.toNat / 8388608 % 8 = 3 from e6]
  rw [show w.toNat / 524288 % 16 = 1 from e5]
  refine (if_pos (by simpa using e0)).trans ?_
  rw [f_x, f_d, f_a, f_b, f_m]
  exact if_pos hw

theorem vredMinF32 (x : BitVec 1) (d : BitVec 5) (a : BitVec 5) (b : BitVec 5) (m : BitVec 3) : Statement (.vredMinF32 x d a b m) := by
  intro c w hw h
  change pack c 831520768 (67108864 * x.toNat + 16384 * d.toNat + 512 * a.toNat + 16 * b.toNat + 2 * m.toNat) = some w at h
  have hx := x.isLt
  have hd := d.isLt
  have ha := a.isLt
  have hb := b.isLt
  have hm := m.isLt
  obtain ⟨e0, e1, e2, e3, e4, e5, e6, e7, e8, -⟩ := pack_reads h [(0, 1), (m.toNat, 3), (b.toNat, 5), (a.toNat, 5), (d.toNat, 5), (2, 4), (3, 3), (x.toNat, 1), (6, 4)]
    ⟨by omega, by omega, by omega, by omega, by omega, by omega, by omega, by omega, by omega, trivial⟩ (by simp only [runs]; omega) rfl (by omega)
  have f_x : fld w.toNat 26 1 = x := fld_eq e7
  have f_d : fld w.toNat 14 5 = d := fld_eq e4
  have f_a : fld w.toNat 9 5 = a := fld_eq e3
  have f_b : fld w.toNat 4 5 = b := fld_eq e2
  have f_m : fld w.toNat 1 3 = m := fld_eq e1
  unfold decode
  rw [show w.toNat / 134217728 % 16 = 6 from e8]
  change decodeVectorMove _ = _
  unfold decodeVectorMove
  rw [show w.toNat / 8388608 % 8 = 3 from e6]
  rw [show w.toNat / 524288 % 16 = 2 from e5]
  refine (if_pos (by simpa using e0)).trans ?_
  rw [f_x, f_d, f_a, f_b, f_m]
  exact if_pos hw

theorem vredMaxF32 (x : BitVec 1) (d : BitVec 5) (a : BitVec 5) (b : BitVec 5) (m : BitVec 3) : Statement (.vredMaxF32 x d a b m) := by
  intro c w hw h
  change pack c 832045056 (67108864 * x.toNat + 16384 * d.toNat + 512 * a.toNat + 16 * b.toNat + 2 * m.toNat) = some w at h
  have hx := x.isLt
  have hd := d.isLt
  have ha := a.isLt
  have hb := b.isLt
  have hm := m.isLt
  obtain ⟨e0, e1, e2, e3, e4, e5, e6, e7, e8, -⟩ := pack_reads h [(0, 1), (m.toNat, 3), (b.toNat, 5), (a.toNat, 5), (d.toNat, 5), (3, 4), (3, 3), (x.toNat, 1), (6, 4)]
    ⟨by omega, by omega, by omega, by omega, by omega, by omega, by omega, by omega, by omega, trivial⟩ (by simp only [runs]; omega) rfl (by omega)
  have f_x : fld w.toNat 26 1 = x := fld_eq e7
  have f_d : fld w.toNat 14 5 = d := fld_eq e4
  have f_a : fld w.toNat 9 5 = a := fld_eq e3
  have f_b : fld w.toNat 4 5 = b := fld_eq e2
  have f_m : fld w.toNat 1 3 = m := fld_eq e1
  unfold decode
  rw [show w.toNat / 134217728 % 16 = 6 from e8]
  change decodeVectorMove _ = _
  unfold decodeVectorMove
  rw [show w.toNat / 8388608 % 8 = 3 from e6]
  rw [show w.toNat / 524288 % 16 = 3 from e5]
  refine (if_pos (by simpa using e0)).trans ?_
  rw [f_x, f_d, f_a, f_b, f_m]
  exact if_pos hw

theorem vredAddI32 (x : BitVec 1) (d : BitVec 5) (a : BitVec 5) (b : BitVec 5) (m : BitVec 3) : Statement (.vredAddI32 x d a b m) := by
  intro c w hw h
  change pack c 832569344 (67108864 * x.toNat + 16384 * d.toNat + 512 * a.toNat + 16 * b.toNat + 2 * m.toNat) = some w at h
  have hx := x.isLt
  have hd := d.isLt
  have ha := a.isLt
  have hb := b.isLt
  have hm := m.isLt
  obtain ⟨e0, e1, e2, e3, e4, e5, e6, e7, e8, -⟩ := pack_reads h [(0, 1), (m.toNat, 3), (b.toNat, 5), (a.toNat, 5), (d.toNat, 5), (4, 4), (3, 3), (x.toNat, 1), (6, 4)]
    ⟨by omega, by omega, by omega, by omega, by omega, by omega, by omega, by omega, by omega, trivial⟩ (by simp only [runs]; omega) rfl (by omega)
  have f_x : fld w.toNat 26 1 = x := fld_eq e7
  have f_d : fld w.toNat 14 5 = d := fld_eq e4
  have f_a : fld w.toNat 9 5 = a := fld_eq e3
  have f_b : fld w.toNat 4 5 = b := fld_eq e2
  have f_m : fld w.toNat 1 3 = m := fld_eq e1
  unfold decode
  rw [show w.toNat / 134217728 % 16 = 6 from e8]
  change decodeVectorMove _ = _
  unfold decodeVectorMove
  rw [show w.toNat / 8388608 % 8 = 3 from e6]
  rw [show w.toNat / 524288 % 16 = 4 from e5]
  refine (if_pos (by simpa using e0)).trans ?_
  rw [f_x, f_d, f_a, f_b, f_m]
  exact if_pos hw

theorem vredAddI64 (x : BitVec 1) (d : BitVec 5) (a : BitVec 5) (b : BitVec 5) (m : BitVec 3) : Statement (.vredAddI64 x d a b m) := by
  intro c w hw h
  change pack c 833093632 (67108864 * x.toNat + 16384 * d.toNat + 512 * a.toNat + 16 * b.toNat + 2 * m.toNat) = some w at h
  have hx := x.isLt
  have hd := d.isLt
  have ha := a.isLt
  have hb := b.isLt
  have hm := m.isLt
  obtain ⟨e0, e1, e2, e3, e4, e5, e6, e7, e8, -⟩ := pack_reads h [(0, 1), (m.toNat, 3), (b.toNat, 5), (a.toNat, 5), (d.toNat, 5), (5, 4), (3, 3), (x.toNat, 1), (6, 4)]
    ⟨by omega, by omega, by omega, by omega, by omega, by omega, by omega, by omega, by omega, trivial⟩ (by simp only [runs]; omega) rfl (by omega)
  have f_x : fld w.toNat 26 1 = x := fld_eq e7
  have f_d : fld w.toNat 14 5 = d := fld_eq e4
  have f_a : fld w.toNat 9 5 = a := fld_eq e3
  have f_b : fld w.toNat 4 5 = b := fld_eq e2
  have f_m : fld w.toNat 1 3 = m := fld_eq e1
  unfold decode
  rw [show w.toNat / 134217728 % 16 = 6 from e8]
  change decodeVectorMove _ = _
  unfold decodeVectorMove
  rw [show w.toNat / 8388608 % 8 = 3 from e6]
  rw [show w.toNat / 524288 % 16 = 5 from e5]
  refine (if_pos (by simpa using e0)).trans ?_
  rw [f_x, f_d, f_a, f_b, f_m]
  exact if_pos hw

theorem vredMinI32 (x : BitVec 1) (d : BitVec 5) (a : BitVec 5) (b : BitVec 5) (m : BitVec 3) : Statement (.vredMinI32 x d a b m) := by
  intro c w hw h
  change pack c 833617920 (67108864 * x.toNat + 16384 * d.toNat + 512 * a.toNat + 16 * b.toNat + 2 * m.toNat) = some w at h
  have hx := x.isLt
  have hd := d.isLt
  have ha := a.isLt
  have hb := b.isLt
  have hm := m.isLt
  obtain ⟨e0, e1, e2, e3, e4, e5, e6, e7, e8, -⟩ := pack_reads h [(0, 1), (m.toNat, 3), (b.toNat, 5), (a.toNat, 5), (d.toNat, 5), (6, 4), (3, 3), (x.toNat, 1), (6, 4)]
    ⟨by omega, by omega, by omega, by omega, by omega, by omega, by omega, by omega, by omega, trivial⟩ (by simp only [runs]; omega) rfl (by omega)
  have f_x : fld w.toNat 26 1 = x := fld_eq e7
  have f_d : fld w.toNat 14 5 = d := fld_eq e4
  have f_a : fld w.toNat 9 5 = a := fld_eq e3
  have f_b : fld w.toNat 4 5 = b := fld_eq e2
  have f_m : fld w.toNat 1 3 = m := fld_eq e1
  unfold decode
  rw [show w.toNat / 134217728 % 16 = 6 from e8]
  change decodeVectorMove _ = _
  unfold decodeVectorMove
  rw [show w.toNat / 8388608 % 8 = 3 from e6]
  rw [show w.toNat / 524288 % 16 = 6 from e5]
  refine (if_pos (by simpa using e0)).trans ?_
  rw [f_x, f_d, f_a, f_b, f_m]
  exact if_pos hw

theorem vredMaxI32 (x : BitVec 1) (d : BitVec 5) (a : BitVec 5) (b : BitVec 5) (m : BitVec 3) : Statement (.vredMaxI32 x d a b m) := by
  intro c w hw h
  change pack c 834142208 (67108864 * x.toNat + 16384 * d.toNat + 512 * a.toNat + 16 * b.toNat + 2 * m.toNat) = some w at h
  have hx := x.isLt
  have hd := d.isLt
  have ha := a.isLt
  have hb := b.isLt
  have hm := m.isLt
  obtain ⟨e0, e1, e2, e3, e4, e5, e6, e7, e8, -⟩ := pack_reads h [(0, 1), (m.toNat, 3), (b.toNat, 5), (a.toNat, 5), (d.toNat, 5), (7, 4), (3, 3), (x.toNat, 1), (6, 4)]
    ⟨by omega, by omega, by omega, by omega, by omega, by omega, by omega, by omega, by omega, trivial⟩ (by simp only [runs]; omega) rfl (by omega)
  have f_x : fld w.toNat 26 1 = x := fld_eq e7
  have f_d : fld w.toNat 14 5 = d := fld_eq e4
  have f_a : fld w.toNat 9 5 = a := fld_eq e3
  have f_b : fld w.toNat 4 5 = b := fld_eq e2
  have f_m : fld w.toNat 1 3 = m := fld_eq e1
  unfold decode
  rw [show w.toNat / 134217728 % 16 = 6 from e8]
  change decodeVectorMove _ = _
  unfold decodeVectorMove
  rw [show w.toNat / 8388608 % 8 = 3 from e6]
  rw [show w.toNat / 524288 % 16 = 7 from e5]
  refine (if_pos (by simpa using e0)).trans ?_
  rw [f_x, f_d, f_a, f_b, f_m]
  exact if_pos hw

theorem kand (x : BitVec 1) (d : BitVec 3) (a : BitVec 3) (b : BitVec 3) : Statement (.kand x d a b) := by
  intro c w hw h
  change pack c 834666496 (67108864 * x.toNat + 16384 * d.toNat + 512 * a.toNat + 16 * b.toNat) = some w at h
  have hx := x.isLt
  have hd := d.isLt
  have ha := a.isLt
  have hb := b.isLt
  obtain ⟨e0, e1, e2, e3, e4, e5, e6, e7, e8, e9, e10, -⟩ := pack_reads h [(0, 4), (b.toNat, 3), (0, 2), (a.toNat, 3), (0, 2), (d.toNat, 3), (0, 2), (8, 4), (3, 3), (x.toNat, 1), (6, 4)]
    ⟨by omega, by omega, by omega, by omega, by omega, by omega, by omega, by omega, by omega, by omega, by omega, trivial⟩ (by simp only [runs]; omega) rfl (by omega)
  have f_x : fld w.toNat 26 1 = x := fld_eq e9
  have f_d : fld w.toNat 14 3 = d := fld_eq e5
  have f_a : fld w.toNat 9 3 = a := fld_eq e3
  have f_b : fld w.toNat 4 3 = b := fld_eq e1
  unfold decode
  rw [show w.toNat / 134217728 % 16 = 6 from e10]
  change decodeVectorMove _ = _
  unfold decodeVectorMove
  rw [show w.toNat / 8388608 % 8 = 3 from e8]
  rw [show w.toNat / 524288 % 16 = 8 from e7]
  refine (if_pos ⟨e6, e4, e2, (by simpa using e0)⟩).trans ?_
  rw [f_x, f_d, f_a, f_b]
  exact if_pos hw

theorem kor (x : BitVec 1) (d : BitVec 3) (a : BitVec 3) (b : BitVec 3) : Statement (.kor x d a b) := by
  intro c w hw h
  change pack c 835190784 (67108864 * x.toNat + 16384 * d.toNat + 512 * a.toNat + 16 * b.toNat) = some w at h
  have hx := x.isLt
  have hd := d.isLt
  have ha := a.isLt
  have hb := b.isLt
  obtain ⟨e0, e1, e2, e3, e4, e5, e6, e7, e8, e9, e10, -⟩ := pack_reads h [(0, 4), (b.toNat, 3), (0, 2), (a.toNat, 3), (0, 2), (d.toNat, 3), (0, 2), (9, 4), (3, 3), (x.toNat, 1), (6, 4)]
    ⟨by omega, by omega, by omega, by omega, by omega, by omega, by omega, by omega, by omega, by omega, by omega, trivial⟩ (by simp only [runs]; omega) rfl (by omega)
  have f_x : fld w.toNat 26 1 = x := fld_eq e9
  have f_d : fld w.toNat 14 3 = d := fld_eq e5
  have f_a : fld w.toNat 9 3 = a := fld_eq e3
  have f_b : fld w.toNat 4 3 = b := fld_eq e1
  unfold decode
  rw [show w.toNat / 134217728 % 16 = 6 from e10]
  change decodeVectorMove _ = _
  unfold decodeVectorMove
  rw [show w.toNat / 8388608 % 8 = 3 from e8]
  rw [show w.toNat / 524288 % 16 = 9 from e7]
  refine (if_pos ⟨e6, e4, e2, (by simpa using e0)⟩).trans ?_
  rw [f_x, f_d, f_a, f_b]
  exact if_pos hw

theorem kxor (x : BitVec 1) (d : BitVec 3) (a : BitVec 3) (b : BitVec 3) : Statement (.kxor x d a b) := by
  intro c w hw h
  change pack c 835715072 (67108864 * x.toNat + 16384 * d.toNat + 512 * a.toNat + 16 * b.toNat) = some w at h
  have hx := x.isLt
  have hd := d.isLt
  have ha := a.isLt
  have hb := b.isLt
  obtain ⟨e0, e1, e2, e3, e4, e5, e6, e7, e8, e9, e10, -⟩ := pack_reads h [(0, 4), (b.toNat, 3), (0, 2), (a.toNat, 3), (0, 2), (d.toNat, 3), (0, 2), (10, 4), (3, 3), (x.toNat, 1), (6, 4)]
    ⟨by omega, by omega, by omega, by omega, by omega, by omega, by omega, by omega, by omega, by omega, by omega, trivial⟩ (by simp only [runs]; omega) rfl (by omega)
  have f_x : fld w.toNat 26 1 = x := fld_eq e9
  have f_d : fld w.toNat 14 3 = d := fld_eq e5
  have f_a : fld w.toNat 9 3 = a := fld_eq e3
  have f_b : fld w.toNat 4 3 = b := fld_eq e1
  unfold decode
  rw [show w.toNat / 134217728 % 16 = 6 from e10]
  change decodeVectorMove _ = _
  unfold decodeVectorMove
  rw [show w.toNat / 8388608 % 8 = 3 from e8]
  rw [show w.toNat / 524288 % 16 = 10 from e7]
  refine (if_pos ⟨e6, e4, e2, (by simpa using e0)⟩).trans ?_
  rw [f_x, f_d, f_a, f_b]
  exact if_pos hw

theorem knot (x : BitVec 1) (d : BitVec 3) (a : BitVec 3) : Statement (.knot x d a) := by
  intro c w hw h
  change pack c 836239360 (67108864 * x.toNat + 16384 * d.toNat + 512 * a.toNat) = some w at h
  have hx := x.isLt
  have hd := d.isLt
  have ha := a.isLt
  obtain ⟨e0, e1, e2, e3, e4, e5, e6, e7, e8, -⟩ := pack_reads h [(0, 9), (a.toNat, 3), (0, 2), (d.toNat, 3), (0, 2), (11, 4), (3, 3), (x.toNat, 1), (6, 4)]
    ⟨by omega, by omega, by omega, by omega, by omega, by omega, by omega, by omega, by omega, trivial⟩ (by simp only [runs]; omega) rfl (by omega)
  have f_x : fld w.toNat 26 1 = x := fld_eq e7
  have f_d : fld w.toNat 14 3 = d := fld_eq e3
  have f_a : fld w.toNat 9 3 = a := fld_eq e1
  unfold decode
  rw [show w.toNat / 134217728 % 16 = 6 from e8]
  change decodeVectorMove _ = _
  unfold decodeVectorMove
  rw [show w.toNat / 8388608 % 8 = 3 from e6]
  rw [show w.toNat / 524288 % 16 = 11 from e5]
  refine (if_pos ⟨e4, e2, (by simpa using e0)⟩).trans ?_
  rw [f_x, f_d, f_a]
  exact if_pos hw

theorem kmov (x : BitVec 1) (d : BitVec 3) (a : BitVec 3) : Statement (.kmov x d a) := by
  intro c w hw h
  change pack c 836763648 (67108864 * x.toNat + 16384 * d.toNat + 512 * a.toNat) = some w at h
  have hx := x.isLt
  have hd := d.isLt
  have ha := a.isLt
  obtain ⟨e0, e1, e2, e3, e4, e5, e6, e7, e8, -⟩ := pack_reads h [(0, 9), (a.toNat, 3), (0, 2), (d.toNat, 3), (0, 2), (12, 4), (3, 3), (x.toNat, 1), (6, 4)]
    ⟨by omega, by omega, by omega, by omega, by omega, by omega, by omega, by omega, by omega, trivial⟩ (by simp only [runs]; omega) rfl (by omega)
  have f_x : fld w.toNat 26 1 = x := fld_eq e7
  have f_d : fld w.toNat 14 3 = d := fld_eq e3
  have f_a : fld w.toNat 9 3 = a := fld_eq e1
  unfold decode
  rw [show w.toNat / 134217728 % 16 = 6 from e8]
  change decodeVectorMove _ = _
  unfold decodeVectorMove
  rw [show w.toNat / 8388608 % 8 = 3 from e6]
  rw [show w.toNat / 524288 % 16 = 12 from e5]
  rw [show w.toNat % 512 = 0 from (by simpa using e0)]
  refine (if_pos ⟨e4, e2⟩).trans ?_
  rw [f_x, f_d, f_a]
  exact if_pos hw

theorem kmovFromS (x : BitVec 1) (d : BitVec 3) (a : BitVec 5) : Statement (.kmovFromS x d a) := by
  intro c w hw h
  change pack c 836763664 (67108864 * x.toNat + 16384 * d.toNat + 512 * a.toNat) = some w at h
  have hx := x.isLt
  have hd := d.isLt
  have ha := a.isLt
  obtain ⟨e0, e1, e2, e3, e4, e5, e6, e7, -⟩ := pack_reads h [(16, 9), (a.toNat, 5), (d.toNat, 3), (0, 2), (12, 4), (3, 3), (x.toNat, 1), (6, 4)]
    ⟨by omega, by omega, by omega, by omega, by omega, by omega, by omega, by omega, trivial⟩ (by simp only [runs]; omega) rfl (by omega)
  have f_x : fld w.toNat 26 1 = x := fld_eq e6
  have f_d : fld w.toNat 14 3 = d := fld_eq e2
  have f_a : fld w.toNat 9 5 = a := fld_eq e1
  unfold decode
  rw [show w.toNat / 134217728 % 16 = 6 from e7]
  change decodeVectorMove _ = _
  unfold decodeVectorMove
  rw [show w.toNat / 8388608 % 8 = 3 from e5]
  rw [show w.toNat / 524288 % 16 = 12 from e4]
  rw [show w.toNat % 512 = 16 from (by simpa using e0)]
  refine (if_pos e3).trans ?_
  rw [f_x, f_d, f_a]
  exact if_pos hw

theorem kmovToS (x : BitVec 1) (d : BitVec 5) (a : BitVec 3) : Statement (.kmovToS x d a) := by
  intro c w hw h
  change pack c 836763680 (67108864 * x.toNat + 16384 * d.toNat + 512 * a.toNat) = some w at h
  have hx := x.isLt
  have hd := d.isLt
  have ha := a.isLt
  obtain ⟨e0, e1, e2, e3, e4, e5, e6, e7, -⟩ := pack_reads h [(32, 9), (a.toNat, 3), (0, 2), (d.toNat, 5), (12, 4), (3, 3), (x.toNat, 1), (6, 4)]
    ⟨by omega, by omega, by omega, by omega, by omega, by omega, by omega, by omega, trivial⟩ (by simp only [runs]; omega) rfl (by omega)
  have f_x : fld w.toNat 26 1 = x := fld_eq e6
  have f_d : fld w.toNat 14 5 = d := fld_eq e3
  have f_a : fld w.toNat 9 3 = a := fld_eq e1
  unfold decode
  rw [show w.toNat / 134217728 % 16 = 6 from e7]
  change decodeVectorMove _ = _
  unfold decodeVectorMove
  rw [show w.toNat / 8388608 % 8 = 3 from e5]
  rw [show w.toNat / 524288 % 16 = 12 from e4]
  rw [show w.toNat % 512 = 32 from (by simpa using e0)]
  refine (if_pos e2).trans ?_
  rw [f_x, f_d, f_a]
  exact if_pos hw

theorem kpop (x : BitVec 1) (d : BitVec 5) (a : BitVec 3) : Statement (.kpop x d a) := by
  intro c w hw h
  change pack c 837287936 (67108864 * x.toNat + 16384 * d.toNat + 512 * a.toNat) = some w at h
  have hx := x.isLt
  have hd := d.isLt
  have ha := a.isLt
  obtain ⟨e0, e1, e2, e3, e4, e5, e6, e7, -⟩ := pack_reads h [(0, 9), (a.toNat, 3), (0, 2), (d.toNat, 5), (13, 4), (3, 3), (x.toNat, 1), (6, 4)]
    ⟨by omega, by omega, by omega, by omega, by omega, by omega, by omega, by omega, trivial⟩ (by simp only [runs]; omega) rfl (by omega)
  have f_x : fld w.toNat 26 1 = x := fld_eq e6
  have f_d : fld w.toNat 14 5 = d := fld_eq e3
  have f_a : fld w.toNat 9 3 = a := fld_eq e1
  unfold decode
  rw [show w.toNat / 134217728 % 16 = 6 from e7]
  change decodeVectorMove _ = _
  unfold decodeVectorMove
  rw [show w.toNat / 8388608 % 8 = 3 from e5]
  rw [show w.toNat / 524288 % 16 = 13 from e4]
  refine (if_pos ⟨e2, (by simpa using e0)⟩).trans ?_
  rw [f_x, f_d, f_a]
  exact if_pos hw

theorem kuni (x : BitVec 1) (d : BitVec 3) (a : BitVec 3) (l : BitVec 2) : Statement (.kuni x d a l) := by
  intro c w hw h
  change pack c 837812224 (67108864 * x.toNat + 16384 * d.toNat + 512 * a.toNat + 16 * l.toNat) = some w at h
  have hx := x.isLt
  have hd := d.isLt
  have ha := a.isLt
  have hl := l.isLt
  obtain ⟨e0, e1, e2, e3, e4, e5, e6, e7, e8, e9, e10, -⟩ := pack_reads h [(0, 4), (l.toNat, 2), (0, 3), (a.toNat, 3), (0, 2), (d.toNat, 3), (0, 2), (14, 4), (3, 3), (x.toNat, 1), (6, 4)]
    ⟨by omega, by omega, by omega, by omega, by omega, by omega, by omega, by omega, by omega, by omega, by omega, trivial⟩ (by simp only [runs]; omega) rfl (by omega)
  have f_x : fld w.toNat 26 1 = x := fld_eq e9
  have f_d : fld w.toNat 14 3 = d := fld_eq e5
  have f_a : fld w.toNat 9 3 = a := fld_eq e3
  have f_l : fld w.toNat 4 2 = l := fld_eq e1
  unfold decode
  rw [show w.toNat / 134217728 % 16 = 6 from e10]
  change decodeVectorMove _ = _
  unfold decodeVectorMove
  rw [show w.toNat / 8388608 % 8 = 3 from e8]
  rw [show w.toNat / 524288 % 16 = 14 from e7]
  refine (if_pos ⟨e6, e4, e2, (by simpa using e0)⟩).trans ?_
  rw [f_x, f_d, f_a, f_l]
  exact if_pos hw

theorem tmma (s : BitVec 3) (acc : BitVec 2) (a : BitVec 5) (b : BitVec 5) (r : BitVec 1) : Statement (.tmma s acc a b r) := by
  intro c w hw h
  change pack c 939524096 (524288 * s.toNat + 131072 * acc.toNat + 1024 * a.toNat + 32 * b.toNat + 2 * r.toNat) = some w at h
  have hs := s.isLt
  have hacc := acc.isLt
  have ha := a.isLt
  have hb := b.isLt
  have hr := r.isLt
  obtain ⟨e0, e1, e2, e3, e4, e5, e6, e7, e8, e9, -⟩ := pack_reads h [(0, 1), (r.toNat, 1), (0, 3), (b.toNat, 5), (a.toNat, 5), (0, 2), (acc.toNat, 2), (s.toNat, 3), (0, 5), (7, 4)]
    ⟨by omega, by omega, by omega, by omega, by omega, by omega, by omega, by omega, by omega, by omega, trivial⟩ (by simp only [runs]; omega) rfl (by omega)
  have f_s : fld w.toNat 19 3 = s := fld_eq e7
  have f_acc : fld w.toNat 17 2 = acc := fld_eq e6
  have f_a : fld w.toNat 10 5 = a := fld_eq e4
  have f_b : fld w.toNat 5 5 = b := fld_eq e3
  have f_r : fld w.toNat 1 1 = r := fld_eq e1
  unfold decode
  rw [show w.toNat / 134217728 % 16 = 7 from e9]
  change decodeMatrix _ = _
  unfold decodeMatrix
  rw [show w.toNat / 4194304 % 32 = 0 from e8]
  rw [show w.toNat % 2 = 0 from (by simpa using e0)]
  refine (if_pos ⟨e5, e2⟩).trans ?_
  rw [f_s, f_acc, f_a, f_b, f_r]
  exact if_pos hw

theorem tmmaLatch (s : BitVec 3) (acc : BitVec 2) (l : BitVec 2) (b : BitVec 5) (r : BitVec 1) : Statement (.tmmaLatch s acc l b r) := by
  intro c w hw h
  change pack c 939524097 (524288 * s.toNat + 131072 * acc.toNat + 32768 * l.toNat + 32 * b.toNat + 2 * r.toNat) = some w at h
  have hs := s.isLt
  have hacc := acc.isLt
  have hl := l.isLt
  have hb := b.isLt
  have hr := r.isLt
  obtain ⟨e0, e1, e2, e3, e4, e5, e6, e7, e8, e9, -⟩ := pack_reads h [(1, 1), (r.toNat, 1), (0, 3), (b.toNat, 5), (0, 5), (l.toNat, 2), (acc.toNat, 2), (s.toNat, 3), (0, 5), (7, 4)]
    ⟨by omega, by omega, by omega, by omega, by omega, by omega, by omega, by omega, by omega, by omega, trivial⟩ (by simp only [runs]; omega) rfl (by omega)
  have f_s : fld w.toNat 19 3 = s := fld_eq e7
  have f_acc : fld w.toNat 17 2 = acc := fld_eq e6
  have f_l : fld w.toNat 15 2 = l := fld_eq e5
  have f_b : fld w.toNat 5 5 = b := fld_eq e3
  have f_r : fld w.toNat 1 1 = r := fld_eq e1
  unfold decode
  rw [show w.toNat / 134217728 % 16 = 7 from e9]
  change decodeMatrix _ = _
  unfold decodeMatrix
  rw [show w.toNat / 4194304 % 32 = 0 from e8]
  rw [show w.toNat % 2 = 1 from (by simpa using e0)]
  refine (if_pos ⟨e4, e2⟩).trans ?_
  rw [f_s, f_acc, f_l, f_b, f_r]
  exact if_pos hw

theorem tlatch (s : BitVec 3) (l : BitVec 2) (a : BitVec 5) : Statement (.tlatch s l a) := by
  intro c w hw h
  change pack c 943718400 (524288 * s.toNat + 32768 * l.toNat + 1024 * a.toNat) = some w at h
  have hs := s.isLt
  have hl := l.isLt
  have ha := a.isLt
  obtain ⟨e0, e1, e2, e3, e4, e5, e6, -⟩ := pack_reads h [(0, 10), (a.toNat, 5), (l.toNat, 2), (0, 2), (s.toNat, 3), (1, 5), (7, 4)]
    ⟨by omega, by omega, by omega, by omega, by omega, by omega, by omega, trivial⟩ (by simp only [runs]; omega) rfl (by omega)
  have f_s : fld w.toNat 19 3 = s := fld_eq e4
  have f_l : fld w.toNat 15 2 = l := fld_eq e2
  have f_a : fld w.toNat 10 5 = a := fld_eq e1
  unfold decode
  rw [show w.toNat / 134217728 % 16 = 7 from e6]
  change decodeMatrix _ = _
  unfold decodeMatrix
  rw [show w.toNat / 4194304 % 32 = 1 from e5]
  refine (if_pos ⟨e3, (by simpa using e0)⟩).trans ?_
  rw [f_s, f_l, f_a]
  exact if_pos hw

theorem tgo (s : BitVec 3) (acc : BitVec 2) (a : BitVec 5) (b : BitVec 5) (p : BitVec 5) : Statement (.tgo s acc a b p) := by
  intro c w hw h
  change pack c 947912704 (524288 * s.toNat + 131072 * acc.toNat + 1024 * a.toNat + 32 * b.toNat + p.toNat) = some w at h
  have hs := s.isLt
  have hacc := acc.isLt
  have ha := a.isLt
  have hb := b.isLt
  have hp := p.isLt
  obtain ⟨e0, e1, e2, e3, e4, e5, e6, e7, -⟩ := pack_reads h [(p.toNat, 5), (b.toNat, 5), (a.toNat, 5), (0, 2), (acc.toNat, 2), (s.toNat, 3), (2, 5), (7, 4)]
    ⟨by omega, by omega, by omega, by omega, by omega, by omega, by omega, by omega, trivial⟩ (by simp only [runs]; omega) rfl (by omega)
  have f_s : fld w.toNat 19 3 = s := fld_eq e5
  have f_acc : fld w.toNat 17 2 = acc := fld_eq e4
  have f_a : fld w.toNat 10 5 = a := fld_eq e2
  have f_b : fld w.toNat 5 5 = b := fld_eq e1
  have f_p : fld w.toNat 0 5 = p := fld_eq e0
  unfold decode
  rw [show w.toNat / 134217728 % 16 = 7 from e7]
  change decodeMatrix _ = _
  unfold decodeMatrix
  rw [show w.toNat / 4194304 % 32 = 2 from e6]
  refine (if_pos e3).trans ?_
  rw [f_s, f_acc, f_a, f_b, f_p]
  exact if_pos hw

theorem tdrain (acc : BitVec 2) (a : BitVec 5) : Statement (.tdrain acc a) := by
  intro c w hw h
  change pack c 952107008 (131072 * acc.toNat + 1024 * a.toNat) = some w at h
  have hacc := acc.isLt
  have ha := a.isLt
  obtain ⟨e0, e1, e2, e3, e4, e5, e6, -⟩ := pack_reads h [(0, 10), (a.toNat, 5), (0, 2), (acc.toNat, 2), (0, 3), (3, 5), (7, 4)]
    ⟨by omega, by omega, by omega, by omega, by omega, by omega, by omega, trivial⟩ (by simp only [runs]; omega) rfl (by omega)
  have f_acc : fld w.toNat 17 2 = acc := fld_eq e3
  have f_a : fld w.toNat 10 5 = a := fld_eq e1
  unfold decode
  rw [show w.toNat / 134217728 % 16 = 7 from e6]
  change decodeMatrix _ = _
  unfold decodeMatrix
  rw [show w.toNat / 4194304 % 32 = 3 from e5]
  refine (if_pos ⟨e4, e2, (by simpa using e0)⟩).trans ?_
  rw [f_acc, f_a]
  exact if_pos hw

theorem twait (d : BitVec 5) (l : BitVec 5) : Statement (.twait d l) := by
  intro c w hw h
  change pack c 956301312 (1024 * d.toNat + l.toNat) = some w at h
  have hd := d.isLt
  have hl := l.isLt
  obtain ⟨e0, e1, e2, e3, e4, e5, -⟩ := pack_reads h [(l.toNat, 5), (0, 5), (d.toNat, 5), (0, 7), (4, 5), (7, 4)]
    ⟨by omega, by omega, by omega, by omega, by omega, by omega, trivial⟩ (by simp only [runs]; omega) rfl (by omega)
  have f_d : fld w.toNat 10 5 = d := fld_eq e2
  have f_l : fld w.toNat 0 5 = l := fld_eq e0
  unfold decode
  rw [show w.toNat / 134217728 % 16 = 7 from e5]
  change decodeMatrix _ = _
  unfold decodeMatrix
  rw [show w.toNat / 4194304 % 32 = 4 from e4]
  refine (if_pos ⟨e3, e1⟩).trans ?_
  rw [f_d, f_l]
  exact if_pos hw

theorem tstat (d : BitVec 5) (l : BitVec 5) : Statement (.tstat d l) := by
  intro c w hw h
  change pack c 960495616 (1024 * d.toNat + l.toNat) = some w at h
  have hd := d.isLt
  have hl := l.isLt
  obtain ⟨e0, e1, e2, e3, e4, e5, -⟩ := pack_reads h [(l.toNat, 5), (0, 5), (d.toNat, 5), (0, 7), (5, 5), (7, 4)]
    ⟨by omega, by omega, by omega, by omega, by omega, by omega, trivial⟩ (by simp only [runs]; omega) rfl (by omega)
  have f_d : fld w.toNat 10 5 = d := fld_eq e2
  have f_l : fld w.toNat 0 5 = l := fld_eq e0
  unfold decode
  rw [show w.toNat / 134217728 % 16 = 7 from e5]
  change decodeMatrix _ = _
  unfold decodeMatrix
  rw [show w.toNat / 4194304 % 32 = 5 from e4]
  refine (if_pos ⟨e3, e1⟩).trans ?_
  rw [f_d, f_l]
  exact if_pos hw

theorem tclr (acc : BitVec 2) : Statement (.tclr acc) := by
  intro c w hw h
  change pack c 964689920 (131072 * acc.toNat) = some w at h
  have hacc := acc.isLt
  obtain ⟨e0, e1, e2, e3, e4, -⟩ := pack_reads h [(0, 17), (acc.toNat, 2), (0, 3), (6, 5), (7, 4)]
    ⟨by omega, by omega, by omega, by omega, by omega, trivial⟩ (by simp only [runs]; omega) rfl (by omega)
  have f_acc : fld w.toNat 17 2 = acc := fld_eq e1
  unfold decode
  rw [show w.toNat / 134217728 % 16 = 7 from e4]
  change decodeMatrix _ = _
  unfold decodeMatrix
  rw [show w.toNat / 4194304 % 32 = 6 from e3]
  refine (if_pos ⟨e2, (by simpa using e0)⟩).trans ?_
  rw [f_acc]
  exact if_pos hw

theorem trow (a : BitVec 5) : Statement (.trow a) := by
  intro c w hw h
  change pack c 968884224 (1024 * a.toNat) = some w at h
  have ha := a.isLt
  obtain ⟨e0, e1, e2, e3, e4, -⟩ := pack_reads h [(0, 10), (a.toNat, 5), (0, 7), (7, 5), (7, 4)]
    ⟨by omega, by omega, by omega, by omega, by omega, trivial⟩ (by simp only [runs]; omega) rfl (by omega)
  have f_a : fld w.toNat 10 5 = a := fld_eq e1
  unfold decode
  rw [show w.toNat / 134217728 % 16 = 7 from e4]
  change decodeMatrix _ = _
  unfold decodeMatrix
  rw [show w.toNat / 4194304 % 32 = 7 from e3]
  refine (if_pos ⟨e2, (by simpa using e0)⟩).trans ?_
  rw [f_a]
  exact if_pos hw

theorem ldB (d : BitVec 5) (a : BitVec 5) (l : BitVec 5) (f : BitVec 6) : Statement (.ldB d a l f) := by
  intro c w hw h
  change pack c 1073741824 (65536 * d.toNat + 2048 * a.toNat + 64 * l.toNat + f.toNat) = some w at h
  have hd := d.isLt
  have ha := a.isLt
  have hl := l.isLt
  have hf := f.isLt
  obtain ⟨e0, e1, e2, e3, e4, e5, e6, -⟩ := pack_reads h [(f.toNat, 6), (l.toNat, 5), (a.toNat, 5), (d.toNat, 5), (0, 2), (0, 4), (8, 4)]
    ⟨by omega, by omega, by omega, by omega, by omega, by omega, by omega, trivial⟩ (by simp only [runs]; omega) rfl (by omega)
  have f_d : fld w.toNat 16 5 = d := fld_eq e3
  have f_a : fld w.toNat 11 5 = a := fld_eq e2
  have f_l : fld w.toNat 6 5 = l := fld_eq e1
  have f_f : fld w.toNat 0 6 = f := fld_eq e0
  unfold decode
  rw [show w.toNat / 134217728 % 16 = 8 from e6]
  change decodeCore _ = _
  unfold decodeCore
  rw [show w.toNat / 8388608 % 16 = 0 from e5]
  rw [show w.toNat / 2097152 % 4 = 0 from e4]
  change accept (.ldB (fld _ 16 5) (fld _ 11 5) (fld _ 6 5) (fld _ 0 6)) = _
  rw [f_d, f_a, f_l, f_f]
  exact if_pos hw

theorem ldBu (d : BitVec 5) (a : BitVec 5) (l : BitVec 5) (f : BitVec 6) : Statement (.ldBu d a l f) := by
  intro c w hw h
  change pack c 1075838976 (65536 * d.toNat + 2048 * a.toNat + 64 * l.toNat + f.toNat) = some w at h
  have hd := d.isLt
  have ha := a.isLt
  have hl := l.isLt
  have hf := f.isLt
  obtain ⟨e0, e1, e2, e3, e4, e5, e6, -⟩ := pack_reads h [(f.toNat, 6), (l.toNat, 5), (a.toNat, 5), (d.toNat, 5), (1, 2), (0, 4), (8, 4)]
    ⟨by omega, by omega, by omega, by omega, by omega, by omega, by omega, trivial⟩ (by simp only [runs]; omega) rfl (by omega)
  have f_d : fld w.toNat 16 5 = d := fld_eq e3
  have f_a : fld w.toNat 11 5 = a := fld_eq e2
  have f_l : fld w.toNat 6 5 = l := fld_eq e1
  have f_f : fld w.toNat 0 6 = f := fld_eq e0
  unfold decode
  rw [show w.toNat / 134217728 % 16 = 8 from e6]
  change decodeCore _ = _
  unfold decodeCore
  rw [show w.toNat / 8388608 % 16 = 0 from e5]
  rw [show w.toNat / 2097152 % 4 = 1 from e4]
  change accept (.ldBu (fld _ 16 5) (fld _ 11 5) (fld _ 6 5) (fld _ 0 6)) = _
  rw [f_d, f_a, f_l, f_f]
  exact if_pos hw

theorem ldH (d : BitVec 5) (a : BitVec 5) (l : BitVec 5) (f : BitVec 6) : Statement (.ldH d a l f) := by
  intro c w hw h
  change pack c 1077936128 (65536 * d.toNat + 2048 * a.toNat + 64 * l.toNat + f.toNat) = some w at h
  have hd := d.isLt
  have ha := a.isLt
  have hl := l.isLt
  have hf := f.isLt
  obtain ⟨e0, e1, e2, e3, e4, e5, e6, -⟩ := pack_reads h [(f.toNat, 6), (l.toNat, 5), (a.toNat, 5), (d.toNat, 5), (2, 2), (0, 4), (8, 4)]
    ⟨by omega, by omega, by omega, by omega, by omega, by omega, by omega, trivial⟩ (by simp only [runs]; omega) rfl (by omega)
  have f_d : fld w.toNat 16 5 = d := fld_eq e3
  have f_a : fld w.toNat 11 5 = a := fld_eq e2
  have f_l : fld w.toNat 6 5 = l := fld_eq e1
  have f_f : fld w.toNat 0 6 = f := fld_eq e0
  unfold decode
  rw [show w.toNat / 134217728 % 16 = 8 from e6]
  change decodeCore _ = _
  unfold decodeCore
  rw [show w.toNat / 8388608 % 16 = 0 from e5]
  rw [show w.toNat / 2097152 % 4 = 2 from e4]
  change accept (.ldH (fld _ 16 5) (fld _ 11 5) (fld _ 6 5) (fld _ 0 6)) = _
  rw [f_d, f_a, f_l, f_f]
  exact if_pos hw

theorem ldHu (d : BitVec 5) (a : BitVec 5) (l : BitVec 5) (f : BitVec 6) : Statement (.ldHu d a l f) := by
  intro c w hw h
  change pack c 1080033280 (65536 * d.toNat + 2048 * a.toNat + 64 * l.toNat + f.toNat) = some w at h
  have hd := d.isLt
  have ha := a.isLt
  have hl := l.isLt
  have hf := f.isLt
  obtain ⟨e0, e1, e2, e3, e4, e5, e6, -⟩ := pack_reads h [(f.toNat, 6), (l.toNat, 5), (a.toNat, 5), (d.toNat, 5), (3, 2), (0, 4), (8, 4)]
    ⟨by omega, by omega, by omega, by omega, by omega, by omega, by omega, trivial⟩ (by simp only [runs]; omega) rfl (by omega)
  have f_d : fld w.toNat 16 5 = d := fld_eq e3
  have f_a : fld w.toNat 11 5 = a := fld_eq e2
  have f_l : fld w.toNat 6 5 = l := fld_eq e1
  have f_f : fld w.toNat 0 6 = f := fld_eq e0
  unfold decode
  rw [show w.toNat / 134217728 % 16 = 8 from e6]
  change decodeCore _ = _
  unfold decodeCore
  rw [show w.toNat / 8388608 % 16 = 0 from e5]
  rw [show w.toNat / 2097152 % 4 = 3 from e4]
  change accept (.ldHu (fld _ 16 5) (fld _ 11 5) (fld _ 6 5) (fld _ 0 6)) = _
  rw [f_d, f_a, f_l, f_f]
  exact if_pos hw

theorem ldW (d : BitVec 5) (a : BitVec 5) (l : BitVec 5) (f : BitVec 6) : Statement (.ldW d a l f) := by
  intro c w hw h
  change pack c 1082130432 (65536 * d.toNat + 2048 * a.toNat + 64 * l.toNat + f.toNat) = some w at h
  have hd := d.isLt
  have ha := a.isLt
  have hl := l.isLt
  have hf := f.isLt
  obtain ⟨e0, e1, e2, e3, e4, e5, e6, -⟩ := pack_reads h [(f.toNat, 6), (l.toNat, 5), (a.toNat, 5), (d.toNat, 5), (0, 2), (1, 4), (8, 4)]
    ⟨by omega, by omega, by omega, by omega, by omega, by omega, by omega, trivial⟩ (by simp only [runs]; omega) rfl (by omega)
  have f_d : fld w.toNat 16 5 = d := fld_eq e3
  have f_a : fld w.toNat 11 5 = a := fld_eq e2
  have f_l : fld w.toNat 6 5 = l := fld_eq e1
  have f_f : fld w.toNat 0 6 = f := fld_eq e0
  unfold decode
  rw [show w.toNat / 134217728 % 16 = 8 from e6]
  change decodeCore _ = _
  unfold decodeCore
  rw [show w.toNat / 8388608 % 16 = 1 from e5]
  rw [show w.toNat / 2097152 % 4 = 0 from e4]
  change accept (.ldW (fld _ 16 5) (fld _ 11 5) (fld _ 6 5) (fld _ 0 6)) = _
  rw [f_d, f_a, f_l, f_f]
  exact if_pos hw

theorem ldWu (d : BitVec 5) (a : BitVec 5) (l : BitVec 5) (f : BitVec 6) : Statement (.ldWu d a l f) := by
  intro c w hw h
  change pack c 1084227584 (65536 * d.toNat + 2048 * a.toNat + 64 * l.toNat + f.toNat) = some w at h
  have hd := d.isLt
  have ha := a.isLt
  have hl := l.isLt
  have hf := f.isLt
  obtain ⟨e0, e1, e2, e3, e4, e5, e6, -⟩ := pack_reads h [(f.toNat, 6), (l.toNat, 5), (a.toNat, 5), (d.toNat, 5), (1, 2), (1, 4), (8, 4)]
    ⟨by omega, by omega, by omega, by omega, by omega, by omega, by omega, trivial⟩ (by simp only [runs]; omega) rfl (by omega)
  have f_d : fld w.toNat 16 5 = d := fld_eq e3
  have f_a : fld w.toNat 11 5 = a := fld_eq e2
  have f_l : fld w.toNat 6 5 = l := fld_eq e1
  have f_f : fld w.toNat 0 6 = f := fld_eq e0
  unfold decode
  rw [show w.toNat / 134217728 % 16 = 8 from e6]
  change decodeCore _ = _
  unfold decodeCore
  rw [show w.toNat / 8388608 % 16 = 1 from e5]
  rw [show w.toNat / 2097152 % 4 = 1 from e4]
  change accept (.ldWu (fld _ 16 5) (fld _ 11 5) (fld _ 6 5) (fld _ 0 6)) = _
  rw [f_d, f_a, f_l, f_f]
  exact if_pos hw

theorem ldD (d : BitVec 5) (a : BitVec 5) (l : BitVec 5) (f : BitVec 6) : Statement (.ldD d a l f) := by
  intro c w hw h
  change pack c 1086324736 (65536 * d.toNat + 2048 * a.toNat + 64 * l.toNat + f.toNat) = some w at h
  have hd := d.isLt
  have ha := a.isLt
  have hl := l.isLt
  have hf := f.isLt
  obtain ⟨e0, e1, e2, e3, e4, e5, e6, -⟩ := pack_reads h [(f.toNat, 6), (l.toNat, 5), (a.toNat, 5), (d.toNat, 5), (2, 2), (1, 4), (8, 4)]
    ⟨by omega, by omega, by omega, by omega, by omega, by omega, by omega, trivial⟩ (by simp only [runs]; omega) rfl (by omega)
  have f_d : fld w.toNat 16 5 = d := fld_eq e3
  have f_a : fld w.toNat 11 5 = a := fld_eq e2
  have f_l : fld w.toNat 6 5 = l := fld_eq e1
  have f_f : fld w.toNat 0 6 = f := fld_eq e0
  unfold decode
  rw [show w.toNat / 134217728 % 16 = 8 from e6]
  change decodeCore _ = _
  unfold decodeCore
  rw [show w.toNat / 8388608 % 16 = 1 from e5]
  rw [show w.toNat / 2097152 % 4 = 2 from e4]
  change accept (.ldD (fld _ 16 5) (fld _ 11 5) (fld _ 6 5) (fld _ 0 6)) = _
  rw [f_d, f_a, f_l, f_f]
  exact if_pos hw

theorem stB (d : BitVec 5) (a : BitVec 5) (f : BitVec 6) : Statement (.stB d a f) := by
  intro c w hw h
  change pack c 1090519040 (65536 * d.toNat + 2048 * a.toNat + f.toNat) = some w at h
  have hd := d.isLt
  have ha := a.isLt
  have hf := f.isLt
  obtain ⟨e0, e1, e2, e3, e4, e5, e6, -⟩ := pack_reads h [(f.toNat, 6), (0, 5), (a.toNat, 5), (d.toNat, 5), (0, 2), (2, 4), (8, 4)]
    ⟨by omega, by omega, by omega, by omega, by omega, by omega, by omega, trivial⟩ (by simp only [runs]; omega) rfl (by omega)
  have f_d : fld w.toNat 16 5 = d := fld_eq e3
  have f_a : fld w.toNat 11 5 = a := fld_eq e2
  have f_f : fld w.toNat 0 6 = f := fld_eq e0
  unfold decode
  rw [show w.toNat / 134217728 % 16 = 8 from e6]
  change decodeCore _ = _
  unfold decodeCore
  rw [show w.toNat / 8388608 % 16 = 2 from e5]
  rw [show w.toNat / 2097152 % 4 = 0 from e4]
  refine (if_pos e1).trans ?_
  rw [f_d, f_a, f_f]
  exact if_pos hw

theorem stH (d : BitVec 5) (a : BitVec 5) (f : BitVec 6) : Statement (.stH d a f) := by
  intro c w hw h
  change pack c 1092616192 (65536 * d.toNat + 2048 * a.toNat + f.toNat) = some w at h
  have hd := d.isLt
  have ha := a.isLt
  have hf := f.isLt
  obtain ⟨e0, e1, e2, e3, e4, e5, e6, -⟩ := pack_reads h [(f.toNat, 6), (0, 5), (a.toNat, 5), (d.toNat, 5), (1, 2), (2, 4), (8, 4)]
    ⟨by omega, by omega, by omega, by omega, by omega, by omega, by omega, trivial⟩ (by simp only [runs]; omega) rfl (by omega)
  have f_d : fld w.toNat 16 5 = d := fld_eq e3
  have f_a : fld w.toNat 11 5 = a := fld_eq e2
  have f_f : fld w.toNat 0 6 = f := fld_eq e0
  unfold decode
  rw [show w.toNat / 134217728 % 16 = 8 from e6]
  change decodeCore _ = _
  unfold decodeCore
  rw [show w.toNat / 8388608 % 16 = 2 from e5]
  rw [show w.toNat / 2097152 % 4 = 1 from e4]
  refine (if_pos e1).trans ?_
  rw [f_d, f_a, f_f]
  exact if_pos hw

theorem stW (d : BitVec 5) (a : BitVec 5) (f : BitVec 6) : Statement (.stW d a f) := by
  intro c w hw h
  change pack c 1094713344 (65536 * d.toNat + 2048 * a.toNat + f.toNat) = some w at h
  have hd := d.isLt
  have ha := a.isLt
  have hf := f.isLt
  obtain ⟨e0, e1, e2, e3, e4, e5, e6, -⟩ := pack_reads h [(f.toNat, 6), (0, 5), (a.toNat, 5), (d.toNat, 5), (2, 2), (2, 4), (8, 4)]
    ⟨by omega, by omega, by omega, by omega, by omega, by omega, by omega, trivial⟩ (by simp only [runs]; omega) rfl (by omega)
  have f_d : fld w.toNat 16 5 = d := fld_eq e3
  have f_a : fld w.toNat 11 5 = a := fld_eq e2
  have f_f : fld w.toNat 0 6 = f := fld_eq e0
  unfold decode
  rw [show w.toNat / 134217728 % 16 = 8 from e6]
  change decodeCore _ = _
  unfold decodeCore
  rw [show w.toNat / 8388608 % 16 = 2 from e5]
  rw [show w.toNat / 2097152 % 4 = 2 from e4]
  refine (if_pos e1).trans ?_
  rw [f_d, f_a, f_f]
  exact if_pos hw

theorem stD (d : BitVec 5) (a : BitVec 5) (f : BitVec 6) : Statement (.stD d a f) := by
  intro c w hw h
  change pack c 1096810496 (65536 * d.toNat + 2048 * a.toNat + f.toNat) = some w at h
  have hd := d.isLt
  have ha := a.isLt
  have hf := f.isLt
  obtain ⟨e0, e1, e2, e3, e4, e5, e6, -⟩ := pack_reads h [(f.toNat, 6), (0, 5), (a.toNat, 5), (d.toNat, 5), (3, 2), (2, 4), (8, 4)]
    ⟨by omega, by omega, by omega, by omega, by omega, by omega, by omega, trivial⟩ (by simp only [runs]; omega) rfl (by omega)
  have f_d : fld w.toNat 16 5 = d := fld_eq e3
  have f_a : fld w.toNat 11 5 = a := fld_eq e2
  have f_f : fld w.toNat 0 6 = f := fld_eq e0
  unfold decode
  rw [show w.toNat / 134217728 % 16 = 8 from e6]
  change decodeCore _ = _
  unfold decodeCore
  rw [show w.toNat / 8388608 % 16 = 2 from e5]
  rw [show w.toNat / 2097152 % 4 = 3 from e4]
  refine (if_pos e1).trans ?_
  rw [f_d, f_a, f_f]
  exact if_pos hw

theorem vld (y : BitVec 1) (d : BitVec 5) (a : BitVec 5) (l : BitVec 5) (f : BitVec 6) : Statement (.vld y d a l f) := by
  intro c w hw h
  change pack c 1107296256 (2097152 * y.toNat + 65536 * d.toNat + 2048 * a.toNat + 64 * l.toNat + f.toNat) = some w at h
  have hy := y.isLt
  have hd := d.isLt
  have ha := a.isLt
  have hl := l.isLt
  have hf := f.isLt
  obtain ⟨e0, e1, e2, e3, e4, e5, e6, e7, -⟩ := pack_reads h [(f.toNat, 6), (l.toNat, 5), (a.toNat, 5), (d.toNat, 5), (y.toNat, 1), (0, 1), (4, 4), (8, 4)]
    ⟨by omega, by omega, by omega, by omega, by omega, by omega, by omega, by omega, trivial⟩ (by simp only [runs]; omega) rfl (by omega)
  have f_y : fld w.toNat 21 1 = y := fld_eq e4
  have f_d : fld w.toNat 16 5 = d := fld_eq e3
  have f_a : fld w.toNat 11 5 = a := fld_eq e2
  have f_l : fld w.toNat 6 5 = l := fld_eq e1
  have f_f : fld w.toNat 0 6 = f := fld_eq e0
  unfold decode
  rw [show w.toNat / 134217728 % 16 = 8 from e7]
  change decodeCore _ = _
  unfold decodeCore
  rw [show w.toNat / 8388608 % 16 = 4 from e6]
  rw [show w.toNat / 4194304 % 2 = 0 from e5]
  change accept (.vld (fld _ 21 1) (fld _ 16 5) (fld _ 11 5) (fld _ 6 5) (fld _ 0 6)) = _
  rw [f_y, f_d, f_a, f_l, f_f]
  exact if_pos hw

theorem vst (y : BitVec 1) (d : BitVec 5) (a : BitVec 5) (f : BitVec 6) : Statement (.vst y d a f) := by
  intro c w hw h
  change pack c 1111490560 (2097152 * y.toNat + 65536 * d.toNat + 2048 * a.toNat + f.toNat) = some w at h
  have hy := y.isLt
  have hd := d.isLt
  have ha := a.isLt
  have hf := f.isLt
  obtain ⟨e0, e1, e2, e3, e4, e5, e6, e7, -⟩ := pack_reads h [(f.toNat, 6), (0, 5), (a.toNat, 5), (d.toNat, 5), (y.toNat, 1), (1, 1), (4, 4), (8, 4)]
    ⟨by omega, by omega, by omega, by omega, by omega, by omega, by omega, by omega, trivial⟩ (by simp only [runs]; omega) rfl (by omega)
  have f_y : fld w.toNat 21 1 = y := fld_eq e4
  have f_d : fld w.toNat 16 5 = d := fld_eq e3
  have f_a : fld w.toNat 11 5 = a := fld_eq e2
  have f_f : fld w.toNat 0 6 = f := fld_eq e0
  unfold decode
  rw [show w.toNat / 134217728 % 16 = 8 from e7]
  change decodeCore _ = _
  unfold decodeCore
  rw [show w.toNat / 8388608 % 16 = 4 from e6]
  rw [show w.toNat / 4194304 % 2 = 1 from e5]
  refine (if_pos e1).trans ?_
  rw [f_y, f_d, f_a, f_f]
  exact if_pos hw

theorem vgather (x : BitVec 1) (d : BitVec 5) (b : BitVec 5) (a : BitVec 4) (m : BitVec 3) (l : BitVec 5) : Statement (.vgather x d b a m l) := by
  intro c w hw h
  change pack c 1191182336 (4194304 * x.toNat + 131072 * d.toNat + 4096 * b.toNat + 256 * a.toNat + 32 * m.toNat + l.toNat) = some w at h
  have hx := x.isLt
  have hd := d.isLt
  have hb := b.isLt
  have ha := a.isLt
  have hm := m.isLt
  have hl := l.isLt
  obtain ⟨e0, e1, e2, e3, e4, e5, e6, e7, -⟩ := pack_reads h [(l.toNat, 5), (m.toNat, 3), (a.toNat, 4), (b.toNat, 5), (d.toNat, 5), (x.toNat, 1), (14, 4), (8, 4)]
    ⟨by omega, by omega, by omega, by omega, by omega, by omega, by omega, by omega, trivial⟩ (by simp only [runs]; omega) rfl (by omega)
  have f_x : fld w.toNat 22 1 = x := fld_eq e5
  have f_d : fld w.toNat 17 5 = d := fld_eq e4
  have f_b : fld w.toNat 12 5 = b := fld_eq e3
  have f_a : fld w.toNat 8 4 = a := fld_eq e2
  have f_m : fld w.toNat 5 3 = m := fld_eq e1
  have f_l : fld w.toNat 0 5 = l := fld_eq e0
  unfold decode
  rw [show w.toNat / 134217728 % 16 = 8 from e7]
  change decodeCore _ = _
  unfold decodeCore
  rw [show w.toNat / 8388608 % 16 = 14 from e6]
  change accept (.vgather (fld _ 22 1) (fld _ 17 5) (fld _ 12 5) (fld _ 8 4) (fld _ 5 3) (fld _ 0 5)) = _
  rw [f_x, f_d, f_b, f_a, f_m, f_l]
  exact if_pos hw

theorem vscatter (x : BitVec 1) (d : BitVec 5) (b : BitVec 5) (a : BitVec 4) (m : BitVec 3) : Statement (.vscatter x d b a m) := by
  intro c w hw h
  change pack c 1199570944 (4194304 * x.toNat + 131072 * d.toNat + 4096 * b.toNat + 256 * a.toNat + 32 * m.toNat) = some w at h
  have hx := x.isLt
  have hd := d.isLt
  have hb := b.isLt
  have ha := a.isLt
  have hm := m.isLt
  obtain ⟨e0, e1, e2, e3, e4, e5, e6, e7, -⟩ := pack_reads h [(0, 5), (m.toNat, 3), (a.toNat, 4), (b.toNat, 5), (d.toNat, 5), (x.toNat, 1), (15, 4), (8, 4)]
    ⟨by omega, by omega, by omega, by omega, by omega, by omega, by omega, by omega, trivial⟩ (by simp only [runs]; omega) rfl (by omega)
  have f_x : fld w.toNat 22 1 = x := fld_eq e5
  have f_d : fld w.toNat 17 5 = d := fld_eq e4
  have f_b : fld w.toNat 12 5 = b := fld_eq e3
  have f_a : fld w.toNat 8 4 = a := fld_eq e2
  have f_m : fld w.toNat 5 3 = m := fld_eq e1
  unfold decode
  rw [show w.toNat / 134217728 % 16 = 8 from e7]
  change decodeCore _ = _
  unfold decodeCore
  rw [show w.toNat / 8388608 % 16 = 15 from e6]
  refine (if_pos (by simpa using e0)).trans ?_
  rw [f_x, f_d, f_b, f_a, f_m]
  exact if_pos hw

theorem kldW (d : BitVec 5) (a : BitVec 5) (l : BitVec 5) (f : BitVec 6) : Statement (.kldW d a l f) := by
  intro c w hw h
  change pack c 1216348160 (65536 * d.toNat + 2048 * a.toNat + 64 * l.toNat + f.toNat) = some w at h
  have hd := d.isLt
  have ha := a.isLt
  have hl := l.isLt
  have hf := f.isLt
  obtain ⟨e0, e1, e2, e3, e4, e5, e6, -⟩ := pack_reads h [(f.toNat, 6), (l.toNat, 5), (a.toNat, 5), (d.toNat, 5), (0, 1), (2, 5), (9, 4)]
    ⟨by omega, by omega, by omega, by omega, by omega, by omega, by omega, trivial⟩ (by simp only [runs]; omega) rfl (by omega)
  have f_d : fld w.toNat 16 5 = d := fld_eq e3
  have f_a : fld w.toNat 11 5 = a := fld_eq e2
  have f_l : fld w.toNat 6 5 = l := fld_eq e1
  have f_f : fld w.toNat 0 6 = f := fld_eq e0
  unfold decode
  rw [show w.toNat / 134217728 % 16 = 9 from e6]
  change decodeCluster _ = _
  unfold decodeCluster
  rw [show w.toNat / 4194304 % 32 = 2 from e5]
  rw [show w.toNat / 2097152 % 2 = 0 from e4]
  change accept (.kldW (fld _ 16 5) (fld _ 11 5) (fld _ 6 5) (fld _ 0 6)) = _
  rw [f_d, f_a, f_l, f_f]
  exact if_pos hw

theorem kldWu (d : BitVec 5) (a : BitVec 5) (l : BitVec 5) (f : BitVec 6) : Statement (.kldWu d a l f) := by
  intro c w hw h
  change pack c 1218445312 (65536 * d.toNat + 2048 * a.toNat + 64 * l.toNat + f.toNat) = some w at h
  have hd := d.isLt
  have ha := a.isLt
  have hl := l.isLt
  have hf := f.isLt
  obtain ⟨e0, e1, e2, e3, e4, e5, e6, -⟩ := pack_reads h [(f.toNat, 6), (l.toNat, 5), (a.toNat, 5), (d.toNat, 5), (1, 1), (2, 5), (9, 4)]
    ⟨by omega, by omega, by omega, by omega, by omega, by omega, by omega, trivial⟩ (by simp only [runs]; omega) rfl (by omega)
  have f_d : fld w.toNat 16 5 = d := fld_eq e3
  have f_a : fld w.toNat 11 5 = a := fld_eq e2
  have f_l : fld w.toNat 6 5 = l := fld_eq e1
  have f_f : fld w.toNat 0 6 = f := fld_eq e0
  unfold decode
  rw [show w.toNat / 134217728 % 16 = 9 from e6]
  change decodeCluster _ = _
  unfold decodeCluster
  rw [show w.toNat / 4194304 % 32 = 2 from e5]
  rw [show w.toNat / 2097152 % 2 = 1 from e4]
  change accept (.kldWu (fld _ 16 5) (fld _ 11 5) (fld _ 6 5) (fld _ 0 6)) = _
  rw [f_d, f_a, f_l, f_f]
  exact if_pos hw

theorem kldD (d : BitVec 5) (a : BitVec 5) (l : BitVec 5) (f : BitVec 6) : Statement (.kldD d a l f) := by
  intro c w hw h
  change pack c 1220542464 (65536 * d.toNat + 2048 * a.toNat + 64 * l.toNat + f.toNat) = some w at h
  have hd := d.isLt
  have ha := a.isLt
  have hl := l.isLt
  have hf := f.isLt
  obtain ⟨e0, e1, e2, e3, e4, e5, e6, -⟩ := pack_reads h [(f.toNat, 6), (l.toNat, 5), (a.toNat, 5), (d.toNat, 5), (0, 1), (3, 5), (9, 4)]
    ⟨by omega, by omega, by omega, by omega, by omega, by omega, by omega, trivial⟩ (by simp only [runs]; omega) rfl (by omega)
  have f_d : fld w.toNat 16 5 = d := fld_eq e3
  have f_a : fld w.toNat 11 5 = a := fld_eq e2
  have f_l : fld w.toNat 6 5 = l := fld_eq e1
  have f_f : fld w.toNat 0 6 = f := fld_eq e0
  unfold decode
  rw [show w.toNat / 134217728 % 16 = 9 from e6]
  change decodeCluster _ = _
  unfold decodeCluster
  rw [show w.toNat / 4194304 % 32 = 3 from e5]
  refine (if_pos e4).trans ?_
  rw [f_d, f_a, f_l, f_f]
  exact if_pos hw

theorem kstW (d : BitVec 5) (a : BitVec 5) (f : BitVec 6) : Statement (.kstW d a f) := by
  intro c w hw h
  change pack c 1228931072 (65536 * d.toNat + 2048 * a.toNat + f.toNat) = some w at h
  have hd := d.isLt
  have ha := a.isLt
  have hf := f.isLt
  obtain ⟨e0, e1, e2, e3, e4, e5, e6, -⟩ := pack_reads h [(f.toNat, 6), (0, 5), (a.toNat, 5), (d.toNat, 5), (0, 1), (5, 5), (9, 4)]
    ⟨by omega, by omega, by omega, by omega, by omega, by omega, by omega, trivial⟩ (by simp only [runs]; omega) rfl (by omega)
  have f_d : fld w.toNat 16 5 = d := fld_eq e3
  have f_a : fld w.toNat 11 5 = a := fld_eq e2
  have f_f : fld w.toNat 0 6 = f := fld_eq e0
  unfold decode
  rw [show w.toNat / 134217728 % 16 = 9 from e6]
  change decodeCluster _ = _
  unfold decodeCluster
  rw [show w.toNat / 4194304 % 32 = 5 from e5]
  rw [show w.toNat / 2097152 % 2 = 0 from e4]
  refine (if_pos e1).trans ?_
  rw [f_d, f_a, f_f]
  exact if_pos hw

theorem kstD (d : BitVec 5) (a : BitVec 5) (f : BitVec 6) : Statement (.kstD d a f) := by
  intro c w hw h
  change pack c 1231028224 (65536 * d.toNat + 2048 * a.toNat + f.toNat) = some w at h
  have hd := d.isLt
  have ha := a.isLt
  have hf := f.isLt
  obtain ⟨e0, e1, e2, e3, e4, e5, e6, -⟩ := pack_reads h [(f.toNat, 6), (0, 5), (a.toNat, 5), (d.toNat, 5), (1, 1), (5, 5), (9, 4)]
    ⟨by omega, by omega, by omega, by omega, by omega, by omega, by omega, trivial⟩ (by simp only [runs]; omega) rfl (by omega)
  have f_d : fld w.toNat 16 5 = d := fld_eq e3
  have f_a : fld w.toNat 11 5 = a := fld_eq e2
  have f_f : fld w.toNat 0 6 = f := fld_eq e0
  unfold decode
  rw [show w.toNat / 134217728 % 16 = 9 from e6]
  change decodeCluster _ = _
  unfold decodeCluster
  rw [show w.toNat / 4194304 % 32 = 5 from e5]
  rw [show w.toNat / 2097152 % 2 = 1 from e4]
  refine (if_pos e1).trans ?_
  rw [f_d, f_a, f_f]
  exact if_pos hw

theorem kvld (y : BitVec 1) (d : BitVec 5) (a : BitVec 5) (l : BitVec 5) (f : BitVec 6) : Statement (.kvld y d a l f) := by
  intro c w hw h
  change pack c 1241513984 (2097152 * y.toNat + 65536 * d.toNat + 2048 * a.toNat + 64 * l.toNat + f.toNat) = some w at h
  have hy := y.isLt
  have hd := d.isLt
  have ha := a.isLt
  have hl := l.isLt
  have hf := f.isLt
  obtain ⟨e0, e1, e2, e3, e4, e5, e6, -⟩ := pack_reads h [(f.toNat, 6), (l.toNat, 5), (a.toNat, 5), (d.toNat, 5), (y.toNat, 1), (8, 5), (9, 4)]
    ⟨by omega, by omega, by omega, by omega, by omega, by omega, by omega, trivial⟩ (by simp only [runs]; omega) rfl (by omega)
  have f_y : fld w.toNat 21 1 = y := fld_eq e4
  have f_d : fld w.toNat 16 5 = d := fld_eq e3
  have f_a : fld w.toNat 11 5 = a := fld_eq e2
  have f_l : fld w.toNat 6 5 = l := fld_eq e1
  have f_f : fld w.toNat 0 6 = f := fld_eq e0
  unfold decode
  rw [show w.toNat / 134217728 % 16 = 9 from e6]
  change decodeCluster _ = _
  unfold decodeCluster
  rw [show w.toNat / 4194304 % 32 = 8 from e5]
  change accept (.kvld (fld _ 21 1) (fld _ 16 5) (fld _ 11 5) (fld _ 6 5) (fld _ 0 6)) = _
  rw [f_y, f_d, f_a, f_l, f_f]
  exact if_pos hw

theorem kvst (y : BitVec 1) (d : BitVec 5) (a : BitVec 5) (f : BitVec 6) : Statement (.kvst y d a f) := by
  intro c w hw h
  change pack c 1245708288 (2097152 * y.toNat + 65536 * d.toNat + 2048 * a.toNat + f.toNat) = some w at h
  have hy := y.isLt
  have hd := d.isLt
  have ha := a.isLt
  have hf := f.isLt
  obtain ⟨e0, e1, e2, e3, e4, e5, e6, -⟩ := pack_reads h [(f.toNat, 6), (0, 5), (a.toNat, 5), (d.toNat, 5), (y.toNat, 1), (9, 5), (9, 4)]
    ⟨by omega, by omega, by omega, by omega, by omega, by omega, by omega, trivial⟩ (by simp only [runs]; omega) rfl (by omega)
  have f_y : fld w.toNat 21 1 = y := fld_eq e4
  have f_d : fld w.toNat 16 5 = d := fld_eq e3
  have f_a : fld w.toNat 11 5 = a := fld_eq e2
  have f_f : fld w.toNat 0 6 = f := fld_eq e0
  unfold decode
  rw [show w.toNat / 134217728 % 16 = 9 from e6]
  change decodeCluster _ = _
  unfold decodeCluster
  rw [show w.toNat / 4194304 % 32 = 9 from e5]
  refine (if_pos e1).trans ?_
  rw [f_y, f_d, f_a, f_f]
  exact if_pos hw

theorem klook (d : BitVec 5) (a : BitVec 5) (l : BitVec 5) : Statement (.klook d a l) := by
  intro c w hw h
  change pack c 1275068416 (65536 * d.toNat + 2048 * a.toNat + 64 * l.toNat) = some w at h
  have hd := d.isLt
  have ha := a.isLt
  have hl := l.isLt
  obtain ⟨e0, e1, e2, e3, e4, e5, e6, -⟩ := pack_reads h [(0, 6), (l.toNat, 5), (a.toNat, 5), (d.toNat, 5), (0, 1), (16, 5), (9, 4)]
    ⟨by omega, by omega, by omega, by omega, by omega, by omega, by omega, trivial⟩ (by simp only [runs]; omega) rfl (by omega)
  have f_d : fld w.toNat 16 5 = d := fld_eq e3
  have f_a : fld w.toNat 11 5 = a := fld_eq e2
  have f_l : fld w.toNat 6 5 = l := fld_eq e1
  unfold decode
  rw [show w.toNat / 134217728 % 16 = 9 from e6]
  change decodeCluster _ = _
  unfold decodeCluster
  rw [show w.toNat / 4194304 % 32 = 16 from e5]
  rw [show w.toNat / 2097152 % 2 = 0 from e4]
  refine (if_pos (by simpa using e0)).trans ?_
  rw [f_d, f_a, f_l]
  exact if_pos hw

theorem ktag (d : BitVec 5) (a : BitVec 5) (b : BitVec 5) : Statement (.ktag d a b) := by
  intro c w hw h
  change pack c 1277165568 (65536 * d.toNat + 2048 * a.toNat + 64 * b.toNat) = some w at h
  have hd := d.isLt
  have ha := a.isLt
  have hb := b.isLt
  obtain ⟨e0, e1, e2, e3, e4, e5, e6, -⟩ := pack_reads h [(0, 6), (b.toNat, 5), (a.toNat, 5), (d.toNat, 5), (1, 1), (16, 5), (9, 4)]
    ⟨by omega, by omega, by omega, by omega, by omega, by omega, by omega, trivial⟩ (by simp only [runs]; omega) rfl (by omega)
  have f_d : fld w.toNat 16 5 = d := fld_eq e3
  have f_a : fld w.toNat 11 5 = a := fld_eq e2
  have f_b : fld w.toNat 6 5 = b := fld_eq e1
  unfold decode
  rw [show w.toNat / 134217728 % 16 = 9 from e6]
  change decodeCluster _ = _
  unfold decodeCluster
  rw [show w.toNat / 4194304 % 32 = 16 from e5]
  rw [show w.toNat / 2097152 % 2 = 1 from e4]
  refine (if_pos (by simpa using e0)).trans ?_
  rw [f_d, f_a, f_b]
  exact if_pos hw

theorem kuntag (d : BitVec 5) (a : BitVec 5) (b : BitVec 5) : Statement (.kuntag d a b) := by
  intro c w hw h
  change pack c 1279262720 (65536 * d.toNat + 2048 * a.toNat + 64 * b.toNat) = some w at h
  have hd := d.isLt
  have ha := a.isLt
  have hb := b.isLt
  obtain ⟨e0, e1, e2, e3, e4, e5, e6, -⟩ := pack_reads h [(0, 6), (b.toNat, 5), (a.toNat, 5), (d.toNat, 5), (0, 1), (17, 5), (9, 4)]
    ⟨by omega, by omega, by omega, by omega, by omega, by omega, by omega, trivial⟩ (by simp only [runs]; omega) rfl (by omega)
  have f_d : fld w.toNat 16 5 = d := fld_eq e3
  have f_a : fld w.toNat 11 5 = a := fld_eq e2
  have f_b : fld w.toNat 6 5 = b := fld_eq e1
  unfold decode
  rw [show w.toNat / 134217728 % 16 = 9 from e6]
  change decodeCluster _ = _
  unfold decodeCluster
  rw [show w.toNat / 4194304 % 32 = 17 from e5]
  refine (if_pos ⟨e4, (by simpa using e0)⟩).trans ?_
  rw [f_d, f_a, f_b]
  exact if_pos hw

theorem qput (d : BitVec 5) (a : BitVec 5) (b : BitVec 5) : Statement (.qput d a b) := by
  intro c w hw h
  change pack c 1342177280 (65536 * d.toNat + 2048 * a.toNat + 64 * b.toNat) = some w at h
  have hd := d.isLt
  have ha := a.isLt
  have hb := b.isLt
  obtain ⟨e0, e1, e2, e3, e4, e5, -⟩ := pack_reads h [(0, 6), (b.toNat, 5), (a.toNat, 5), (d.toNat, 5), (0, 6), (10, 4)]
    ⟨by omega, by omega, by omega, by omega, by omega, by omega, trivial⟩ (by simp only [runs]; omega) rfl (by omega)
  have f_d : fld w.toNat 16 5 = d := fld_eq e3
  have f_a : fld w.toNat 11 5 = a := fld_eq e2
  have f_b : fld w.toNat 6 5 = b := fld_eq e1
  unfold decode
  rw [show w.toNat / 134217728 % 16 = 10 from e5]
  change decodeQueueXfer _ = _
  unfold decodeQueueXfer
  rw [show w.toNat / 2097152 % 64 = 0 from e4]
  refine (if_pos (by simpa using e0)).trans ?_
  rw [f_d, f_a, f_b]
  exact if_pos hw

theorem qget (d : BitVec 5) (a : BitVec 5) (l : BitVec 5) : Statement (.qget d a l) := by
  intro c w hw h
  change pack c 1344274432 (65536 * d.toNat + 2048 * a.toNat + 2 * l.toNat) = some w at h
  have hd := d.isLt
  have ha := a.isLt
  have hl := l.isLt
  obtain ⟨e0, e1, e2, e3, e4, e5, e6, -⟩ := pack_reads h [(0, 1), (l.toNat, 5), (0, 5), (a.toNat, 5), (d.toNat, 5), (1, 6), (10, 4)]
    ⟨by omega, by omega, by omega, by omega, by omega, by omega, by omega, trivial⟩ (by simp only [runs]; omega) rfl (by omega)
  have f_d : fld w.toNat 16 5 = d := fld_eq e4
  have f_a : fld w.toNat 11 5 = a := fld_eq e3
  have f_l : fld w.toNat 1 5 = l := fld_eq e1
  unfold decode
  rw [show w.toNat / 134217728 % 16 = 10 from e6]
  change decodeQueueXfer _ = _
  unfold decodeQueueXfer
  rw [show w.toNat / 2097152 % 64 = 1 from e5]
  refine (if_pos ⟨e2, (by simpa using e0)⟩).trans ?_
  rw [f_d, f_a, f_l]
  exact if_pos hw

theorem qstat (d : BitVec 5) (a : BitVec 5) (l : BitVec 5) : Statement (.qstat d a l) := by
  intro c w hw h
  change pack c 1346371584 (65536 * d.toNat + 2048 * a.toNat + 2 * l.toNat) = some w at h
  have hd := d.isLt
  have ha := a.isLt
  have hl := l.isLt
  obtain ⟨e0, e1, e2, e3, e4, e5, e6, -⟩ := pack_reads h [(0, 1), (l.toNat, 5), (0, 5), (a.toNat, 5), (d.toNat, 5), (2, 6), (10, 4)]
    ⟨by omega, by omega, by omega, by omega, by omega, by omega, by omega, trivial⟩ (by simp only [runs]; omega) rfl (by omega)
  have f_d : fld w.toNat 16 5 = d := fld_eq e4
  have f_a : fld w.toNat 11 5 = a := fld_eq e3
  have f_l : fld w.toNat 1 5 = l := fld_eq e1
  unfold decode
  rw [show w.toNat / 134217728 % 16 = 10 from e6]
  change decodeQueueXfer _ = _
  unfold decodeQueueXfer
  rw [show w.toNat / 2097152 % 64 = 2 from e5]
  refine (if_pos ⟨e2, (by simpa using e0)⟩).trans ?_
  rw [f_d, f_a, f_l]
  exact if_pos hw

theorem qcfgRel (a : BitVec 5) (b : BitVec 5) : Statement (.qcfgRel a b) := by
  intro c w hw h
  change pack c 1348468736 (2048 * a.toNat + 64 * b.toNat) = some w at h
  have ha := a.isLt
  have hb := b.isLt
  obtain ⟨e0, e1, e2, e3, e4, e5, -⟩ := pack_reads h [(0, 6), (b.toNat, 5), (a.toNat, 5), (0, 5), (3, 6), (10, 4)]
    ⟨by omega, by omega, by omega, by omega, by omega, by omega, trivial⟩ (by simp only [runs]; omega) rfl (by omega)
  have f_a : fld w.toNat 11 5 = a := fld_eq e2
  have f_b : fld w.toNat 6 5 = b := fld_eq e1
  unfold decode
  rw [show w.toNat / 134217728 % 16 = 10 from e5]
  change decodeQueueXfer _ = _
  unfold decodeQueueXfer
  rw [show w.toNat / 2097152 % 64 = 3 from e4]
  rw [show w.toNat % 64 = 0 from (by simpa using e0)]
  refine (if_pos e3).trans ?_
  rw [f_a, f_b]
  exact if_pos hw

theorem qcfgOpen (a : BitVec 5) (b : BitVec 5) : Statement (.qcfgOpen a b) := by
  intro c w hw h
  change pack c 1348468737 (2048 * a.toNat + 64 * b.toNat) = some w at h
  have ha := a.isLt
  have hb := b.isLt
  obtain ⟨e0, e1, e2, e3, e4, e5, -⟩ := pack_reads h [(1, 6), (b.toNat, 5), (a.toNat, 5), (0, 5), (3, 6), (10, 4)]
    ⟨by omega, by omega, by omega, by omega, by omega, by omega, trivial⟩ (by simp only [runs]; omega) rfl (by omega)
  have f_a : fld w.toNat 11 5 = a := fld_eq e2
  have f_b : fld w.toNat 6 5 = b := fld_eq e1
  unfold decode
  rw [show w.toNat / 134217728 % 16 = 10 from e5]
  change decodeQueueXfer _ = _
  unfold decodeQueueXfer
  rw [show w.toNat / 2097152 % 64 = 3 from e4]
  rw [show w.toNat % 64 = 1 from (by simpa using e0)]
  refine (if_pos e3).trans ?_
  rw [f_a, f_b]
  exact if_pos hw

theorem qcfgClose (a : BitVec 5) : Statement (.qcfgClose a) := by
  intro c w hw h
  change pack c 1348468738 (2048 * a.toNat) = some w at h
  have ha := a.isLt
  obtain ⟨e0, e1, e2, e3, e4, e5, -⟩ := pack_reads h [(2, 6), (0, 5), (a.toNat, 5), (0, 5), (3, 6), (10, 4)]
    ⟨by omega, by omega, by omega, by omega, by omega, by omega, trivial⟩ (by simp only [runs]; omega) rfl (by omega)
  have f_a : fld w.toNat 11 5 = a := fld_eq e2
  unfold decode
  rw [show w.toNat / 134217728 % 16 = 10 from e5]
  change decodeQueueXfer _ = _
  unfold decodeQueueXfer
  rw [show w.toNat / 2097152 % 64 = 3 from e4]
  rw [show w.toNat % 64 = 2 from (by simpa using e0)]
  refine (if_pos ⟨e3, e1⟩).trans ?_
  rw [f_a]
  exact if_pos hw

theorem xfer (d : BitVec 5) (a : BitVec 5) (l : BitVec 5) : Statement (.xfer d a l) := by
  intro c w hw h
  change pack c 1358954496 (65536 * d.toNat + 2048 * a.toNat + 2 * l.toNat) = some w at h
  have hd := d.isLt
  have ha := a.isLt
  have hl := l.isLt
  obtain ⟨e0, e1, e2, e3, e4, e5, e6, -⟩ := pack_reads h [(0, 1), (l.toNat, 5), (0, 5), (a.toNat, 5), (d.toNat, 5), (8, 6), (10, 4)]
    ⟨by omega, by omega, by omega, by omega, by omega, by omega, by omega, trivial⟩ (by simp only [runs]; omega) rfl (by omega)
  have f_d : fld w.toNat 16 5 = d := fld_eq e4
  have f_a : fld w.toNat 11 5 = a := fld_eq e3
  have f_l : fld w.toNat 1 5 = l := fld_eq e1
  unfold decode
  rw [show w.toNat / 134217728 % 16 = 10 from e6]
  change decodeQueueXfer _ = _
  unfold decodeQueueXfer
  rw [show w.toNat / 2097152 % 64 = 8 from e5]
  refine (if_pos ⟨e2, (by simpa using e0)⟩).trans ?_
  rw [f_d, f_a, f_l]
  exact if_pos hw

theorem xwait (d : BitVec 5) (a : BitVec 5) (l : BitVec 5) : Statement (.xwait d a l) := by
  intro c w hw h
  change pack c 1361051648 (65536 * d.toNat + 2048 * a.toNat + 2 * l.toNat) = some w at h
  have hd := d.isLt
  have ha := a.isLt
  have hl := l.isLt
  obtain ⟨e0, e1, e2, e3, e4, e5, e6, -⟩ := pack_reads h [(0, 1), (l.toNat, 5), (0, 5), (a.toNat, 5), (d.toNat, 5), (9, 6), (10, 4)]
    ⟨by omega, by omega, by omega, by omega, by omega, by omega, by omega, trivial⟩ (by simp only [runs]; omega) rfl (by omega)
  have f_d : fld w.toNat 16 5 = d := fld_eq e4
  have f_a : fld w.toNat 11 5 = a := fld_eq e3
  have f_l : fld w.toNat 1 5 = l := fld_eq e1
  unfold decode
  rw [show w.toNat / 134217728 % 16 = 10 from e6]
  change decodeQueueXfer _ = _
  unfold decodeQueueXfer
  rw [show w.toNat / 2097152 % 64 = 9 from e5]
  refine (if_pos ⟨e2, (by simpa using e0)⟩).trans ?_
  rw [f_d, f_a, f_l]
  exact if_pos hw

theorem xstat (d : BitVec 5) (a : BitVec 5) (l : BitVec 5) : Statement (.xstat d a l) := by
  intro c w hw h
  change pack c 1363148800 (65536 * d.toNat + 2048 * a.toNat + 2 * l.toNat) = some w at h
  have hd := d.isLt
  have ha := a.isLt
  have hl := l.isLt
  obtain ⟨e0, e1, e2, e3, e4, e5, e6, -⟩ := pack_reads h [(0, 1), (l.toNat, 5), (0, 5), (a.toNat, 5), (d.toNat, 5), (10, 6), (10, 4)]
    ⟨by omega, by omega, by omega, by omega, by omega, by omega, by omega, trivial⟩ (by simp only [runs]; omega) rfl (by omega)
  have f_d : fld w.toNat 16 5 = d := fld_eq e4
  have f_a : fld w.toNat 11 5 = a := fld_eq e3
  have f_l : fld w.toNat 1 5 = l := fld_eq e1
  unfold decode
  rw [show w.toNat / 134217728 % 16 = 10 from e6]
  change decodeQueueXfer _ = _
  unfold decodeQueueXfer
  rw [show w.toNat / 2097152 % 64 = 10 from e5]
  refine (if_pos ⟨e2, (by simpa using e0)⟩).trans ?_
  rw [f_d, f_a, f_l]
  exact if_pos hw

theorem xcancel (a : BitVec 5) : Statement (.xcancel a) := by
  intro c w hw h
  change pack c 1365245952 (2048 * a.toNat) = some w at h
  have ha := a.isLt
  obtain ⟨e0, e1, e2, e3, e4, -⟩ := pack_reads h [(0, 11), (a.toNat, 5), (0, 5), (11, 6), (10, 4)]
    ⟨by omega, by omega, by omega, by omega, by omega, trivial⟩ (by simp only [runs]; omega) rfl (by omega)
  have f_a : fld w.toNat 11 5 = a := fld_eq e1
  unfold decode
  rw [show w.toNat / 134217728 % 16 = 10 from e4]
  change decodeQueueXfer _ = _
  unfold decodeQueueXfer
  rw [show w.toNat / 2097152 % 64 = 11 from e3]
  rw [show w.toNat % 2048 = 0 from (by simpa using e0)]
  refine (if_pos e2).trans ?_
  rw [f_a]
  exact if_pos hw

theorem xcancelAll : Statement (.xcancelAll) := by
  intro c w hw h
  change pack c 1365245953 (0) = some w at h
  obtain ⟨e0, e1, e2, e3, -⟩ := pack_reads h [(1, 11), (0, 10), (11, 6), (10, 4)]
    ⟨by omega, by omega, by omega, by omega, trivial⟩ (by simp only [runs]; omega) rfl (by omega)
  unfold decode
  rw [show w.toNat / 134217728 % 16 = 10 from e3]
  change decodeQueueXfer _ = _
  unfold decodeQueueXfer
  rw [show w.toNat / 2097152 % 64 = 11 from e2]
  rw [show w.toNat % 2048 = 1 from (by simpa using e0)]
  refine (if_pos e1).trans ?_
  exact if_pos hw

theorem binit (a : BitVec 5) (b : BitVec 5) : Statement (.binit a b) := by
  intro c w hw h
  change pack c 1476395008 (2048 * a.toNat + 64 * b.toNat) = some w at h
  have ha := a.isLt
  have hb := b.isLt
  obtain ⟨e0, e1, e2, e3, e4, e5, -⟩ := pack_reads h [(0, 6), (b.toNat, 5), (a.toNat, 5), (0, 5), (0, 6), (11, 4)]
    ⟨by omega, by omega, by omega, by omega, by omega, by omega, trivial⟩ (by simp only [runs]; omega) rfl (by omega)
  have f_a : fld w.toNat 11 5 = a := fld_eq e2
  have f_b : fld w.toNat 6 5 = b := fld_eq e1
  unfold decode
  rw [show w.toNat / 134217728 % 16 = 11 from e5]
  change decodeSyncMeet _ = _
  unfold decodeSyncMeet
  rw [show w.toNat / 2097152 % 64 = 0 from e4]
  refine (if_pos ⟨e3, (by simpa using e0)⟩).trans ?_
  rw [f_a, f_b]
  exact if_pos hw

theorem barrive (a : BitVec 5) : Statement (.barrive a) := by
  intro c w hw h
  change pack c 1478492160 (2048 * a.toNat) = some w at h
  have ha := a.isLt
  obtain ⟨e0, e1, e2, e3, e4, -⟩ := pack_reads h [(0, 11), (a.toNat, 5), (0, 5), (1, 6), (11, 4)]
    ⟨by omega, by omega, by omega, by omega, by omega, trivial⟩ (by simp only [runs]; omega) rfl (by omega)
  have f_a : fld w.toNat 11 5 = a := fld_eq e1
  unfold decode
  rw [show w.toNat / 134217728 % 16 = 11 from e4]
  change decodeSyncMeet _ = _
  unfold decodeSyncMeet
  rw [show w.toNat / 2097152 % 64 = 1 from e3]
  refine (if_pos ⟨e2, (by simpa using e0)⟩).trans ?_
  rw [f_a]
  exact if_pos hw

theorem bwait (d : BitVec 3) (a : BitVec 5) (b : BitVec 5) : Statement (.bwait d a b) := by
  intro c w hw h
  change pack c 1480589312 (65536 * d.toNat + 2048 * a.toNat + 64 * b.toNat) = some w at h
  have hd := d.isLt
  have ha := a.isLt
  have hb := b.isLt
  obtain ⟨e0, e1, e2, e3, e4, e5, e6, -⟩ := pack_reads h [(0, 6), (b.toNat, 5), (a.toNat, 5), (d.toNat, 3), (0, 2), (2, 6), (11, 4)]
    ⟨by omega, by omega, by omega, by omega, by omega, by omega, by omega, trivial⟩ (by simp only [runs]; omega) rfl (by omega)
  have f_d : fld w.toNat 16 3 = d := fld_eq e3
  have f_a : fld w.toNat 11 5 = a := fld_eq e2
  have f_b : fld w.toNat 6 5 = b := fld_eq e1
  unfold decode
  rw [show w.toNat / 134217728 % 16 = 11 from e6]
  change decodeSyncMeet _ = _
  unfold decodeSyncMeet
  rw [show w.toNat / 2097152 % 64 = 2 from e5]
  refine (if_pos ⟨e4, (by simpa using e0)⟩).trans ?_
  rw [f_d, f_a, f_b]
  exact if_pos hw

theorem bexpect (a : BitVec 5) (b : BitVec 5) : Statement (.bexpect a b) := by
  intro c w hw h
  change pack c 1482686464 (2048 * a.toNat + 64 * b.toNat) = some w at h
  have ha := a.isLt
  have hb := b.isLt
  obtain ⟨e0, e1, e2, e3, e4, e5, -⟩ := pack_reads h [(0, 6), (b.toNat, 5), (a.toNat, 5), (0, 5), (3, 6), (11, 4)]
    ⟨by omega, by omega, by omega, by omega, by omega, by omega, trivial⟩ (by simp only [runs]; omega) rfl (by omega)
  have f_a : fld w.toNat 11 5 = a := fld_eq e2
  have f_b : fld w.toNat 6 5 = b := fld_eq e1
  unfold decode
  rw [show w.toNat / 134217728 % 16 = 11 from e5]
  change decodeSyncMeet _ = _
  unfold decodeSyncMeet
  rw [show w.toNat / 2097152 % 64 = 3 from e4]
  refine (if_pos ⟨e3, (by simpa using e0)⟩).trans ?_
  rw [f_a, f_b]
  exact if_pos hw

theorem binv (a : BitVec 5) : Statement (.binv a) := by
  intro c w hw h
  change pack c 1484783616 (2048 * a.toNat) = some w at h
  have ha := a.isLt
  obtain ⟨e0, e1, e2, e3, e4, -⟩ := pack_reads h [(0, 11), (a.toNat, 5), (0, 5), (4, 6), (11, 4)]
    ⟨by omega, by omega, by omega, by omega, by omega, trivial⟩ (by simp only [runs]; omega) rfl (by omega)
  have f_a : fld w.toNat 11 5 = a := fld_eq e1
  unfold decode
  rw [show w.toNat / 134217728 % 16 = 11 from e4]
  change decodeSyncMeet _ = _
  unfold decodeSyncMeet
  rw [show w.toNat / 2097152 % 64 = 4 from e3]
  refine (if_pos ⟨e2, (by simpa using e0)⟩).trans ?_
  rw [f_a]
  exact if_pos hw

theorem aadd (d : BitVec 5) (a : BitVec 5) (b : BitVec 5) (l : BitVec 5) : Statement (.aadd d a b l) := by
  intro c w hw h
  change pack c 1493172224 (65536 * d.toNat + 2048 * a.toNat + 64 * b.toNat + 2 * l.toNat) = some w at h
  have hd := d.isLt
  have ha := a.isLt
  have hb := b.isLt
  have hl := l.isLt
  obtain ⟨e0, e1, e2, e3, e4, e5, e6, -⟩ := pack_reads h [(0, 1), (l.toNat, 5), (b.toNat, 5), (a.toNat, 5), (d.toNat, 5), (8, 6), (11, 4)]
    ⟨by omega, by omega, by omega, by omega, by omega, by omega, by omega, trivial⟩ (by simp only [runs]; omega) rfl (by omega)
  have f_d : fld w.toNat 16 5 = d := fld_eq e4
  have f_a : fld w.toNat 11 5 = a := fld_eq e3
  have f_b : fld w.toNat 6 5 = b := fld_eq e2
  have f_l : fld w.toNat 1 5 = l := fld_eq e1
  unfold decode
  rw [show w.toNat / 134217728 % 16 = 11 from e6]
  change decodeSyncMeet _ = _
  unfold decodeSyncMeet
  rw [show w.toNat / 2097152 % 64 = 8 from e5]
  refine (if_pos (by simpa using e0)).trans ?_
  rw [f_d, f_a, f_b, f_l]
  exact if_pos hw

theorem acas (d : BitVec 5) (a : BitVec 5) (b : BitVec 5) (l : BitVec 5) : Statement (.acas d a b l) := by
  intro c w hw h
  change pack c 1495269376 (65536 * d.toNat + 2048 * a.toNat + 64 * b.toNat + 2 * l.toNat) = some w at h
  have hd := d.isLt
  have ha := a.isLt
  have hb := b.isLt
  have hl := l.isLt
  obtain ⟨e0, e1, e2, e3, e4, e5, e6, -⟩ := pack_reads h [(0, 1), (l.toNat, 5), (b.toNat, 5), (a.toNat, 5), (d.toNat, 5), (9, 6), (11, 4)]
    ⟨by omega, by omega, by omega, by omega, by omega, by omega, by omega, trivial⟩ (by simp only [runs]; omega) rfl (by omega)
  have f_d : fld w.toNat 16 5 = d := fld_eq e4
  have f_a : fld w.toNat 11 5 = a := fld_eq e3
  have f_b : fld w.toNat 6 5 = b := fld_eq e2
  have f_l : fld w.toNat 1 5 = l := fld_eq e1
  unfold decode
  rw [show w.toNat / 134217728 % 16 = 11 from e6]
  change decodeSyncMeet _ = _
  unfold decodeSyncMeet
  rw [show w.toNat / 2097152 % 64 = 9 from e5]
  refine (if_pos (by simpa using e0)).trans ?_
  rw [f_d, f_a, f_b, f_l]
  exact if_pos hw

theorem amin (d : BitVec 5) (a : BitVec 5) (b : BitVec 5) (l : BitVec 5) : Statement (.amin d a b l) := by
  intro c w hw h
  change pack c 1497366528 (65536 * d.toNat + 2048 * a.toNat + 64 * b.toNat + 2 * l.toNat) = some w at h
  have hd := d.isLt
  have ha := a.isLt
  have hb := b.isLt
  have hl := l.isLt
  obtain ⟨e0, e1, e2, e3, e4, e5, e6, -⟩ := pack_reads h [(0, 1), (l.toNat, 5), (b.toNat, 5), (a.toNat, 5), (d.toNat, 5), (10, 6), (11, 4)]
    ⟨by omega, by omega, by omega, by omega, by omega, by omega, by omega, trivial⟩ (by simp only [runs]; omega) rfl (by omega)
  have f_d : fld w.toNat 16 5 = d := fld_eq e4
  have f_a : fld w.toNat 11 5 = a := fld_eq e3
  have f_b : fld w.toNat 6 5 = b := fld_eq e2
  have f_l : fld w.toNat 1 5 = l := fld_eq e1
  unfold decode
  rw [show w.toNat / 134217728 % 16 = 11 from e6]
  change decodeSyncMeet _ = _
  unfold decodeSyncMeet
  rw [show w.toNat / 2097152 % 64 = 10 from e5]
  refine (if_pos (by simpa using e0)).trans ?_
  rw [f_d, f_a, f_b, f_l]
  exact if_pos hw

theorem amax (d : BitVec 5) (a : BitVec 5) (b : BitVec 5) (l : BitVec 5) : Statement (.amax d a b l) := by
  intro c w hw h
  change pack c 1499463680 (65536 * d.toNat + 2048 * a.toNat + 64 * b.toNat + 2 * l.toNat) = some w at h
  have hd := d.isLt
  have ha := a.isLt
  have hb := b.isLt
  have hl := l.isLt
  obtain ⟨e0, e1, e2, e3, e4, e5, e6, -⟩ := pack_reads h [(0, 1), (l.toNat, 5), (b.toNat, 5), (a.toNat, 5), (d.toNat, 5), (11, 6), (11, 4)]
    ⟨by omega, by omega, by omega, by omega, by omega, by omega, by omega, trivial⟩ (by simp only [runs]; omega) rfl (by omega)
  have f_d : fld w.toNat 16 5 = d := fld_eq e4
  have f_a : fld w.toNat 11 5 = a := fld_eq e3
  have f_b : fld w.toNat 6 5 = b := fld_eq e2
  have f_l : fld w.toNat 1 5 = l := fld_eq e1
  unfold decode
  rw [show w.toNat / 134217728 % 16 = 11 from e6]
  change decodeSyncMeet _ = _
  unfold decodeSyncMeet
  rw [show w.toNat / 2097152 % 64 = 11 from e5]
  refine (if_pos (by simpa using e0)).trans ?_
  rw [f_d, f_a, f_b, f_l]
  exact if_pos hw

theorem aor (d : BitVec 5) (a : BitVec 5) (b : BitVec 5) (l : BitVec 5) : Statement (.aor d a b l) := by
  intro c w hw h
  change pack c 1501560832 (65536 * d.toNat + 2048 * a.toNat + 64 * b.toNat + 2 * l.toNat) = some w at h
  have hd := d.isLt
  have ha := a.isLt
  have hb := b.isLt
  have hl := l.isLt
  obtain ⟨e0, e1, e2, e3, e4, e5, e6, -⟩ := pack_reads h [(0, 1), (l.toNat, 5), (b.toNat, 5), (a.toNat, 5), (d.toNat, 5), (12, 6), (11, 4)]
    ⟨by omega, by omega, by omega, by omega, by omega, by omega, by omega, trivial⟩ (by simp only [runs]; omega) rfl (by omega)
  have f_d : fld w.toNat 16 5 = d := fld_eq e4
  have f_a : fld w.toNat 11 5 = a := fld_eq e3
  have f_b : fld w.toNat 6 5 = b := fld_eq e2
  have f_l : fld w.toNat 1 5 = l := fld_eq e1
  unfold decode
  rw [show w.toNat / 134217728 % 16 = 11 from e6]
  change decodeSyncMeet _ = _
  unfold decodeSyncMeet
  rw [show w.toNat / 2097152 % 64 = 12 from e5]
  refine (if_pos (by simpa using e0)).trans ?_
  rw [f_d, f_a, f_b, f_l]
  exact if_pos hw

theorem afix (d : BitVec 5) (a : BitVec 5) (b : BitVec 5) (l : BitVec 5) : Statement (.afix d a b l) := by
  intro c w hw h
  change pack c 1503657984 (65536 * d.toNat + 2048 * a.toNat + 64 * b.toNat + 2 * l.toNat) = some w at h
  have hd := d.isLt
  have ha := a.isLt
  have hb := b.isLt
  have hl := l.isLt
  obtain ⟨e0, e1, e2, e3, e4, e5, e6, -⟩ := pack_reads h [(0, 1), (l.toNat, 5), (b.toNat, 5), (a.toNat, 5), (d.toNat, 5), (13, 6), (11, 4)]
    ⟨by omega, by omega, by omega, by omega, by omega, by omega, by omega, trivial⟩ (by simp only [runs]; omega) rfl (by omega)
  have f_d : fld w.toNat 16 5 = d := fld_eq e4
  have f_a : fld w.toNat 11 5 = a := fld_eq e3
  have f_b : fld w.toNat 6 5 = b := fld_eq e2
  have f_l : fld w.toNat 1 5 = l := fld_eq e1
  unfold decode
  rw [show w.toNat / 134217728 % 16 = 11 from e6]
  change decodeSyncMeet _ = _
  unfold decodeSyncMeet
  rw [show w.toNat / 2097152 % 64 = 13 from e5]
  refine (if_pos (by simpa using e0)).trans ?_
  rw [f_d, f_a, f_b, f_l]
  exact if_pos hw

theorem aread (d : BitVec 5) (a : BitVec 5) (l : BitVec 5) : Statement (.aread d a l) := by
  intro c w hw h
  change pack c 1505755136 (65536 * d.toNat + 2048 * a.toNat + 2 * l.toNat) = some w at h
  have hd := d.isLt
  have ha := a.isLt
  have hl := l.isLt
  obtain ⟨e0, e1, e2, e3, e4, e5, e6, -⟩ := pack_reads h [(0, 1), (l.toNat, 5), (0, 5), (a.toNat, 5), (d.toNat, 5), (14, 6), (11, 4)]
    ⟨by omega, by omega, by omega, by omega, by omega, by omega, by omega, trivial⟩ (by simp only [runs]; omega) rfl (by omega)
  have f_d : fld w.toNat 16 5 = d := fld_eq e4
  have f_a : fld w.toNat 11 5 = a := fld_eq e3
  have f_l : fld w.toNat 1 5 = l := fld_eq e1
  unfold decode
  rw [show w.toNat / 134217728 % 16 = 11 from e6]
  change decodeSyncMeet _ = _
  unfold decodeSyncMeet
  rw [show w.toNat / 2097152 % 64 = 14 from e5]
  refine (if_pos ⟨e2, (by simpa using e0)⟩).trans ?_
  rw [f_d, f_a, f_l]
  exact if_pos hw

theorem mtaga (d : BitVec 5) (l : BitVec 5) : Statement (.mtaga d l) := by
  intro c w hw h
  change pack c 1509949440 (65536 * d.toNat + 2 * l.toNat) = some w at h
  have hd := d.isLt
  have hl := l.isLt
  obtain ⟨e0, e1, e2, e3, e4, e5, -⟩ := pack_reads h [(0, 1), (l.toNat, 5), (0, 10), (d.toNat, 5), (16, 6), (11, 4)]
    ⟨by omega, by omega, by omega, by omega, by omega, by omega, trivial⟩ (by simp only [runs]; omega) rfl (by omega)
  have f_d : fld w.toNat 16 5 = d := fld_eq e3
  have f_l : fld w.toNat 1 5 = l := fld_eq e1
  unfold decode
  rw [show w.toNat / 134217728 % 16 = 11 from e5]
  change decodeSyncMeet _ = _
  unfold decodeSyncMeet
  rw [show w.toNat / 2097152 % 64 = 16 from e4]
  refine (if_pos ⟨e2, (by simpa using e0)⟩).trans ?_
  rw [f_d, f_l]
  exact if_pos hw

theorem mtagf (d : BitVec 5) (a : BitVec 5) (l : BitVec 5) : Statement (.mtagf d a l) := by
  intro c w hw h
  change pack c 1512046592 (65536 * d.toNat + 2048 * a.toNat + 2 * l.toNat) = some w at h
  have hd := d.isLt
  have ha := a.isLt
  have hl := l.isLt
  obtain ⟨e0, e1, e2, e3, e4, e5, e6, -⟩ := pack_reads h [(0, 1), (l.toNat, 5), (0, 5), (a.toNat, 5), (d.toNat, 5), (17, 6), (11, 4)]
    ⟨by omega, by omega, by omega, by omega, by omega, by omega, by omega, trivial⟩ (by simp only [runs]; omega) rfl (by omega)
  have f_d : fld w.toNat 16 5 = d := fld_eq e4
  have f_a : fld w.toNat 11 5 = a := fld_eq e3
  have f_l : fld w.toNat 1 5 = l := fld_eq e1
  unfold decode
  rw [show w.toNat / 134217728 % 16 = 11 from e6]
  change decodeSyncMeet _ = _
  unfold decodeSyncMeet
  rw [show w.toNat / 2097152 % 64 = 17 from e5]
  refine (if_pos ⟨e2, (by simpa using e0)⟩).trans ?_
  rw [f_d, f_a, f_l]
  exact if_pos hw

theorem meet (d : BitVec 5) (a : BitVec 5) (b : BitVec 5) (x : BitVec 1) (o : BitVec 4) : Statement (.meet d a b x o) := by
  intro c w hw h
  change pack c 1514143744 (65536 * d.toNat + 2048 * a.toNat + 64 * b.toNat + 16 * x.toNat + o.toNat) = some w at h
  have hd := d.isLt
  have ha := a.isLt
  have hb := b.isLt
  have hx := x.isLt
  have ho := o.isLt
  obtain ⟨e0, e1, e2, e3, e4, e5, e6, e7, -⟩ := pack_reads h [(o.toNat, 4), (x.toNat, 1), (0, 1), (b.toNat, 5), (a.toNat, 5), (d.toNat, 5), (18, 6), (11, 4)]
    ⟨by omega, by omega, by omega, by omega, by omega, by omega, by omega, by omega, trivial⟩ (by simp only [runs]; omega) rfl (by omega)
  have f_d : fld w.toNat 16 5 = d := fld_eq e5
  have f_a : fld w.toNat 11 5 = a := fld_eq e4
  have f_b : fld w.toNat 6 5 = b := fld_eq e3
  have f_x : fld w.toNat 4 1 = x := fld_eq e1
  have f_o : fld w.toNat 0 4 = o := fld_eq e0
  unfold decode
  rw [show w.toNat / 134217728 % 16 = 11 from e7]
  change decodeSyncMeet _ = _
  unfold decodeSyncMeet
  rw [show w.toNat / 2097152 % 64 = 18 from e6]
  rw [show w.toNat / 32 % 2 = 0 from e2]
  change accept (.meet (fld _ 16 5) (fld _ 11 5) (fld _ 6 5) (fld _ 4 1) (fld _ 0 4)) = _
  rw [f_d, f_a, f_b, f_x, f_o]
  exact if_pos hw

theorem meetT (d : BitVec 5) (a : BitVec 5) (b : BitVec 5) (o : BitVec 4) : Statement (.meetT d a b o) := by
  intro c w hw h
  change pack c 1514143776 (65536 * d.toNat + 2048 * a.toNat + 64 * b.toNat + o.toNat) = some w at h
  have hd := d.isLt
  have ha := a.isLt
  have hb := b.isLt
  have ho := o.isLt
  obtain ⟨e0, e1, e2, e3, e4, e5, e6, e7, -⟩ := pack_reads h [(o.toNat, 4), (0, 1), (1, 1), (b.toNat, 5), (a.toNat, 5), (d.toNat, 5), (18, 6), (11, 4)]
    ⟨by omega, by omega, by omega, by omega, by omega, by omega, by omega, by omega, trivial⟩ (by simp only [runs]; omega) rfl (by omega)
  have f_d : fld w.toNat 16 5 = d := fld_eq e5
  have f_a : fld w.toNat 11 5 = a := fld_eq e4
  have f_b : fld w.toNat 6 5 = b := fld_eq e3
  have f_o : fld w.toNat 0 4 = o := fld_eq e0
  unfold decode
  rw [show w.toNat / 134217728 % 16 = 11 from e7]
  change decodeSyncMeet _ = _
  unfold decodeSyncMeet
  rw [show w.toNat / 2097152 % 64 = 18 from e6]
  rw [show w.toNat / 32 % 2 = 1 from e2]
  refine (if_pos e1).trans ?_
  rw [f_d, f_a, f_b, f_o]
  exact if_pos hw

theorem mstat (d : BitVec 5) (a : BitVec 5) (l : BitVec 5) : Statement (.mstat d a l) := by
  intro c w hw h
  change pack c 1516240896 (65536 * d.toNat + 2048 * a.toNat + 2 * l.toNat) = some w at h
  have hd := d.isLt
  have ha := a.isLt
  have hl := l.isLt
  obtain ⟨e0, e1, e2, e3, e4, e5, e6, -⟩ := pack_reads h [(0, 1), (l.toNat, 5), (0, 5), (a.toNat, 5), (d.toNat, 5), (19, 6), (11, 4)]
    ⟨by omega, by omega, by omega, by omega, by omega, by omega, by omega, trivial⟩ (by simp only [runs]; omega) rfl (by omega)
  have f_d : fld w.toNat 16 5 = d := fld_eq e4
  have f_a : fld w.toNat 11 5 = a := fld_eq e3
  have f_l : fld w.toNat 1 5 = l := fld_eq e1
  unfold decode
  rw [show w.toNat / 134217728 % 16 = 11 from e6]
  change decodeSyncMeet _ = _
  unfold decodeSyncMeet
  rw [show w.toNat / 2097152 % 64 = 19 from e5]
  refine (if_pos ⟨e2, (by simpa using e0)⟩).trans ?_
  rw [f_d, f_a, f_l]
  exact if_pos hw

theorem rlook (d : BitVec 5) (a : BitVec 5) (b : BitVec 5) (l : BitVec 5) : Statement (.rlook d a b l) := by
  intro c w hw h
  change pack c 1610612736 (65536 * d.toNat + 2048 * a.toNat + 64 * b.toNat + 2 * l.toNat) = some w at h
  have hd := d.isLt
  have ha := a.isLt
  have hb := b.isLt
  have hl := l.isLt
  obtain ⟨e0, e1, e2, e3, e4, e5, e6, -⟩ := pack_reads h [(0, 1), (l.toNat, 5), (b.toNat, 5), (a.toNat, 5), (d.toNat, 5), (0, 6), (12, 4)]
    ⟨by omega, by omega, by omega, by omega, by omega, by omega, by omega, trivial⟩ (by simp only [runs]; omega) rfl (by omega)
  have f_d : fld w.toNat 16 5 = d := fld_eq e4
  have f_a : fld w.toNat 11 5 = a := fld_eq e3
  have f_b : fld w.toNat 6 5 = b := fld_eq e2
  have f_l : fld w.toNat 1 5 = l := fld_eq e1
  unfold decode
  rw [show w.toNat / 134217728 % 16 = 12 from e6]
  change decodeRangeFabric _ = _
  unfold decodeRangeFabric
  rw [show w.toNat / 2097152 % 64 = 0 from e5]
  refine (if_pos (by simpa using e0)).trans ?_
  rw [f_d, f_a, f_b, f_l]
  exact if_pos hw

theorem rsplit (d : BitVec 5) (a : BitVec 5) (b : BitVec 5) (l : BitVec 5) : Statement (.rsplit d a b l) := by
  intro c w hw h
  change pack c 1612709888 (65536 * d.toNat + 2048 * a.toNat + 64 * b.toNat + 2 * l.toNat) = some w at h
  have hd := d.isLt
  have ha := a.isLt
  have hb := b.isLt
  have hl := l.isLt
  obtain ⟨e0, e1, e2, e3, e4, e5, e6, -⟩ := pack_reads h [(0, 1), (l.toNat, 5), (b.toNat, 5), (a.toNat, 5), (d.toNat, 5), (1, 6), (12, 4)]
    ⟨by omega, by omega, by omega, by omega, by omega, by omega, by omega, trivial⟩ (by simp only [runs]; omega) rfl (by omega)
  have f_d : fld w.toNat 16 5 = d := fld_eq e4
  have f_a : fld w.toNat 11 5 = a := fld_eq e3
  have f_b : fld w.toNat 6 5 = b := fld_eq e2
  have f_l : fld w.toNat 1 5 = l := fld_eq e1
  unfold decode
  rw [show w.toNat / 134217728 % 16 = 12 from e6]
  change decodeRangeFabric _ = _
  unfold decodeRangeFabric
  rw [show w.toNat / 2097152 % 64 = 1 from e5]
  refine (if_pos (by simpa using e0)).trans ?_
  rw [f_d, f_a, f_b, f_l]
  exact if_pos hw

theorem rmerge (d : BitVec 5) (a : BitVec 5) (b : BitVec 5) (l : BitVec 5) : Statement (.rmerge d a b l) := by
  intro c w hw h
  change pack c 1614807040 (65536 * d.toNat + 2048 * a.toNat + 64 * b.toNat + 2 * l.toNat) = some w at h
  have hd := d.isLt
  have ha := a.isLt
  have hb := b.isLt
  have hl := l.isLt
  obtain ⟨e0, e1, e2, e3, e4, e5, e6, -⟩ := pack_reads h [(0, 1), (l.toNat, 5), (b.toNat, 5), (a.toNat, 5), (d.toNat, 5), (2, 6), (12, 4)]
    ⟨by omega, by omega, by omega, by omega, by omega, by omega, by omega, trivial⟩ (by simp only [runs]; omega) rfl (by omega)
  have f_d : fld w.toNat 16 5 = d := fld_eq e4
  have f_a : fld w.toNat 11 5 = a := fld_eq e3
  have f_b : fld w.toNat 6 5 = b := fld_eq e2
  have f_l : fld w.toNat 1 5 = l := fld_eq e1
  unfold decode
  rw [show w.toNat / 134217728 % 16 = 12 from e6]
  change decodeRangeFabric _ = _
  unfold decodeRangeFabric
  rw [show w.toNat / 2097152 % 64 = 2 from e5]
  refine (if_pos (by simpa using e0)).trans ?_
  rw [f_d, f_a, f_b, f_l]
  exact if_pos hw

theorem rinv (a : BitVec 5) : Statement (.rinv a) := by
  intro c w hw h
  change pack c 1616904192 (2048 * a.toNat) = some w at h
  have ha := a.isLt
  obtain ⟨e0, e1, e2, e3, e4, -⟩ := pack_reads h [(0, 11), (a.toNat, 5), (0, 5), (3, 6), (12, 4)]
    ⟨by omega, by omega, by omega, by omega, by omega, trivial⟩ (by simp only [runs]; omega) rfl (by omega)
  have f_a : fld w.toNat 11 5 = a := fld_eq e1
  unfold decode
  rw [show w.toNat / 134217728 % 16 = 12 from e4]
  change decodeRangeFabric _ = _
  unfold decodeRangeFabric
  rw [show w.toNat / 2097152 % 64 = 3 from e3]
  refine (if_pos ⟨e2, (by simpa using e0)⟩).trans ?_
  rw [f_a]
  exact if_pos hw

theorem rresSet (d : BitVec 5) (a : BitVec 5) (b : BitVec 5) : Statement (.rresSet d a b) := by
  intro c w hw h
  change pack c 1619001344 (65536 * d.toNat + 2048 * a.toNat + 64 * b.toNat) = some w at h
  have hd := d.isLt
  have ha := a.isLt
  have hb := b.isLt
  obtain ⟨e0, e1, e2, e3, e4, e5, -⟩ := pack_reads h [(0, 6), (b.toNat, 5), (a.toNat, 5), (d.toNat, 5), (4, 6), (12, 4)]
    ⟨by omega, by omega, by omega, by omega, by omega, by omega, trivial⟩ (by simp only [runs]; omega) rfl (by omega)
  have f_d : fld w.toNat 16 5 = d := fld_eq e3
  have f_a : fld w.toNat 11 5 = a := fld_eq e2
  have f_b : fld w.toNat 6 5 = b := fld_eq e1
  unfold decode
  rw [show w.toNat / 134217728 % 16 = 12 from e5]
  change decodeRangeFabric _ = _
  unfold decodeRangeFabric
  rw [show w.toNat / 2097152 % 64 = 4 from e4]
  rw [show w.toNat % 64 = 0 from (by simpa using e0)]
  change accept (.rresSet (fld _ 16 5) (fld _ 11 5) (fld _ 6 5)) = _
  rw [f_d, f_a, f_b]
  exact if_pos hw

theorem rresGrow (d : BitVec 5) (a : BitVec 5) (b : BitVec 5) : Statement (.rresGrow d a b) := by
  intro c w hw h
  change pack c 1619001345 (65536 * d.toNat + 2048 * a.toNat + 64 * b.toNat) = some w at h
  have hd := d.isLt
  have ha := a.isLt
  have hb := b.isLt
  obtain ⟨e0, e1, e2, e3, e4, e5, -⟩ := pack_reads h [(1, 6), (b.toNat, 5), (a.toNat, 5), (d.toNat, 5), (4, 6), (12, 4)]
    ⟨by omega, by omega, by omega, by omega, by omega, by omega, trivial⟩ (by simp only [runs]; omega) rfl (by omega)
  have f_d : fld w.toNat 16 5 = d := fld_eq e3
  have f_a : fld w.toNat 11 5 = a := fld_eq e2
  have f_b : fld w.toNat 6 5 = b := fld_eq e1
  unfold decode
  rw [show w.toNat / 134217728 % 16 = 12 from e5]
  change decodeRangeFabric _ = _
  unfold decodeRangeFabric
  rw [show w.toNat / 2097152 % 64 = 4 from e4]
  rw [show w.toNat % 64 = 1 from (by simpa using e0)]
  change accept (.rresGrow (fld _ 16 5) (fld _ 11 5) (fld _ 6 5)) = _
  rw [f_d, f_a, f_b]
  exact if_pos hw

theorem rprotAll (a : BitVec 5) (b : BitVec 5) : Statement (.rprotAll a b) := by
  intro c w hw h
  change pack c 1621098496 (2048 * a.toNat + 64 * b.toNat) = some w at h
  have ha := a.isLt
  have hb := b.isLt
  obtain ⟨e0, e1, e2, e3, e4, e5, -⟩ := pack_reads h [(0, 6), (b.toNat, 5), (a.toNat, 5), (0, 5), (5, 6), (12, 4)]
    ⟨by omega, by omega, by omega, by omega, by omega, by omega, trivial⟩ (by simp only [runs]; omega) rfl (by omega)
  have f_a : fld w.toNat 11 5 = a := fld_eq e2
  have f_b : fld w.toNat 6 5 = b := fld_eq e1
  unfold decode
  rw [show w.toNat / 134217728 % 16 = 12 from e5]
  change decodeRangeFabric _ = _
  unfold decodeRangeFabric
  rw [show w.toNat / 2097152 % 64 = 5 from e4]
  rw [show w.toNat % 64 = 0 from (by simpa using e0)]
  refine (if_pos e3).trans ?_
  rw [f_a, f_b]
  exact if_pos hw

theorem rprotPerm (a : BitVec 5) (b : BitVec 5) : Statement (.rprotPerm a b) := by
  intro c w hw h
  change pack c 1621098497 (2048 * a.toNat + 64 * b.toNat) = some w at h
  have ha := a.isLt
  have hb := b.isLt
  obtain ⟨e0, e1, e2, e3, e4, e5, -⟩ := pack_reads h [(1, 6), (b.toNat, 5), (a.toNat, 5), (0, 5), (5, 6), (12, 4)]
    ⟨by omega, by omega, by omega, by omega, by omega, by omega, trivial⟩ (by simp only [runs]; omega) rfl (by omega)
  have f_a : fld w.toNat 11 5 = a := fld_eq e2
  have f_b : fld w.toNat 6 5 = b := fld_eq e1
  unfold decode
  rw [show w.toNat / 134217728 % 16 = 12 from e5]
  change decodeRangeFabric _ = _
  unfold decodeRangeFabric
  rw [show w.toNat / 2097152 % 64 = 5 from e4]
  rw [show w.toNat % 64 = 1 from (by simpa using e0)]
  refine (if_pos e3).trans ?_
  rw [f_a, f_b]
  exact if_pos hw

theorem rprotKey (a : BitVec 5) (b : BitVec 5) : Statement (.rprotKey a b) := by
  intro c w hw h
  change pack c 1621098498 (2048 * a.toNat + 64 * b.toNat) = some w at h
  have ha := a.isLt
  have hb := b.isLt
  obtain ⟨e0, e1, e2, e3, e4, e5, -⟩ := pack_reads h [(2, 6), (b.toNat, 5), (a.toNat, 5), (0, 5), (5, 6), (12, 4)]
    ⟨by omega, by omega, by omega, by omega, by omega, by omega, trivial⟩ (by simp only [runs]; omega) rfl (by omega)
  have f_a : fld w.toNat 11 5 = a := fld_eq e2
  have f_b : fld w.toNat 6 5 = b := fld_eq e1
  unfold decode
  rw [show w.toNat / 134217728 % 16 = 12 from e5]
  change decodeRangeFabric _ = _
  unfold decodeRangeFabric
  rw [show w.toNat / 2097152 % 64 = 5 from e4]
  rw [show w.toNat % 64 = 2 from (by simpa using e0)]
  refine (if_pos e3).trans ?_
  rw [f_a, f_b]
  exact if_pos hw

theorem rfence (d : BitVec 5) (l : BitVec 5) : Statement (.rfence d l) := by
  intro c w hw h
  change pack c 1623195648 (65536 * d.toNat + 2 * l.toNat) = some w at h
  have hd := d.isLt
  have hl := l.isLt
  obtain ⟨e0, e1, e2, e3, e4, e5, -⟩ := pack_reads h [(0, 1), (l.toNat, 5), (0, 10), (d.toNat, 5), (6, 6), (12, 4)]
    ⟨by omega, by omega, by omega, by omega, by omega, by omega, trivial⟩ (by simp only [runs]; omega) rfl (by omega)
  have f_d : fld w.toNat 16 5 = d := fld_eq e3
  have f_l : fld w.toNat 1 5 = l := fld_eq e1
  unfold decode
  rw [show w.toNat / 134217728 % 16 = 12 from e5]
  change decodeRangeFabric _ = _
  unfold decodeRangeFabric
  rw [show w.toNat / 2097152 % 64 = 6 from e4]
  refine (if_pos ⟨e2, (by simpa using e0)⟩).trans ?_
  rw [f_d, f_l]
  exact if_pos hw

theorem rmove (a : BitVec 5) (b : BitVec 5) : Statement (.rmove a b) := by
  intro c w hw h
  change pack c 1625292800 (2048 * a.toNat + 64 * b.toNat) = some w at h
  have ha := a.isLt
  have hb := b.isLt
  obtain ⟨e0, e1, e2, e3, e4, e5, -⟩ := pack_reads h [(0, 6), (b.toNat, 5), (a.toNat, 5), (0, 5), (7, 6), (12, 4)]
    ⟨by omega, by omega, by omega, by omega, by omega, by omega, trivial⟩ (by simp only [runs]; omega) rfl (by omega)
  have f_a : fld w.toNat 11 5 = a := fld_eq e2
  have f_b : fld w.toNat 6 5 = b := fld_eq e1
  unfold decode
  rw [show w.toNat / 134217728 % 16 = 12 from e5]
  change decodeRangeFabric _ = _
  unfold decodeRangeFabric
  rw [show w.toNat / 2097152 % 64 = 7 from e4]
  refine (if_pos ⟨e3, (by simpa using e0)⟩).trans ?_
  rw [f_a, f_b]
  exact if_pos hw

theorem fput (a : BitVec 5) : Statement (.fput a) := by
  intro c w hw h
  change pack c 1644167168 (2048 * a.toNat) = some w at h
  have ha := a.isLt
  obtain ⟨e0, e1, e2, e3, e4, -⟩ := pack_reads h [(0, 11), (a.toNat, 5), (0, 5), (16, 6), (12, 4)]
    ⟨by omega, by omega, by omega, by omega, by omega, trivial⟩ (by simp only [runs]; omega) rfl (by omega)
  have f_a : fld w.toNat 11 5 = a := fld_eq e1
  unfold decode
  rw [show w.toNat / 134217728 % 16 = 12 from e4]
  change decodeRangeFabric _ = _
  unfold decodeRangeFabric
  rw [show w.toNat / 2097152 % 64 = 16 from e3]
  refine (if_pos ⟨e2, (by simpa using e0)⟩).trans ?_
  rw [f_a]
  exact if_pos hw

theorem fget (a : BitVec 5) : Statement (.fget a) := by
  intro c w hw h
  change pack c 1646264320 (2048 * a.toNat) = some w at h
  have ha := a.isLt
  obtain ⟨e0, e1, e2, e3, e4, -⟩ := pack_reads h [(0, 11), (a.toNat, 5), (0, 5), (17, 6), (12, 4)]
    ⟨by omega, by omega, by omega, by omega, by omega, trivial⟩ (by simp only [runs]; omega) rfl (by omega)
  have f_a : fld w.toNat 11 5 = a := fld_eq e1
  unfold decode
  rw [show w.toNat / 134217728 % 16 = 12 from e4]
  change decodeRangeFabric _ = _
  unfold decodeRangeFabric
  rw [show w.toNat / 2097152 % 64 = 17 from e3]
  refine (if_pos ⟨e2, (by simpa using e0)⟩).trans ?_
  rw [f_a]
  exact if_pos hw

theorem fbar (d : BitVec 5) (a : BitVec 5) (b : BitVec 5) : Statement (.fbar d a b) := by
  intro c w hw h
  change pack c 1648361472 (65536 * d.toNat + 2048 * a.toNat + 64 * b.toNat) = some w at h
  have hd := d.isLt
  have ha := a.isLt
  have hb := b.isLt
  obtain ⟨e0, e1, e2, e3, e4, e5, -⟩ := pack_reads h [(0, 6), (b.toNat, 5), (a.toNat, 5), (d.toNat, 5), (18, 6), (12, 4)]
    ⟨by omega, by omega, by omega, by omega, by omega, by omega, trivial⟩ (by simp only [runs]; omega) rfl (by omega)
  have f_d : fld w.toNat 16 5 = d := fld_eq e3
  have f_a : fld w.toNat 11 5 = a := fld_eq e2
  have f_b : fld w.toNat 6 5 = b := fld_eq e1
  unfold decode
  rw [show w.toNat / 134217728 % 16 = 12 from e5]
  change decodeRangeFabric _ = _
  unfold decodeRangeFabric
  rw [show w.toNat / 2097152 % 64 = 18 from e4]
  refine (if_pos (by simpa using e0)).trans ?_
  rw [f_d, f_a, f_b]
  exact if_pos hw

theorem fstat (d : BitVec 5) (a : BitVec 5) (l : BitVec 5) : Statement (.fstat d a l) := by
  intro c w hw h
  change pack c 1650458624 (65536 * d.toNat + 2048 * a.toNat + 2 * l.toNat) = some w at h
  have hd := d.isLt
  have ha := a.isLt
  have hl := l.isLt
  obtain ⟨e0, e1, e2, e3, e4, e5, e6, -⟩ := pack_reads h [(0, 1), (l.toNat, 5), (0, 5), (a.toNat, 5), (d.toNat, 5), (19, 6), (12, 4)]
    ⟨by omega, by omega, by omega, by omega, by omega, by omega, by omega, trivial⟩ (by simp only [runs]; omega) rfl (by omega)
  have f_d : fld w.toNat 16 5 = d := fld_eq e4
  have f_a : fld w.toNat 11 5 = a := fld_eq e3
  have f_l : fld w.toNat 1 5 = l := fld_eq e1
  unfold decode
  rw [show w.toNat / 134217728 % 16 = 12 from e6]
  change decodeRangeFabric _ = _
  unfold decodeRangeFabric
  rw [show w.toNat / 2097152 % 64 = 19 from e5]
  refine (if_pos ⟨e2, (by simpa using e0)⟩).trans ?_
  rw [f_d, f_a, f_l]
  exact if_pos hw

theorem cpost (a : BitVec 5) : Statement (.cpost a) := by
  intro c w hw h
  change pack c 1652555776 (2048 * a.toNat) = some w at h
  have ha := a.isLt
  obtain ⟨e0, e1, e2, e3, e4, -⟩ := pack_reads h [(0, 11), (a.toNat, 5), (0, 5), (20, 6), (12, 4)]
    ⟨by omega, by omega, by omega, by omega, by omega, trivial⟩ (by simp only [runs]; omega) rfl (by omega)
  have f_a : fld w.toNat 11 5 = a := fld_eq e1
  unfold decode
  rw [show w.toNat / 134217728 % 16 = 12 from e4]
  change decodeRangeFabric _ = _
  unfold decodeRangeFabric
  rw [show w.toNat / 2097152 % 64 = 20 from e3]
  refine (if_pos ⟨e2, (by simpa using e0)⟩).trans ?_
  rw [f_a]
  exact if_pos hw

theorem loopBack x0 : Statement (.loopBack x0) := by
  intro c w _ h
  change none = some w at h
  cases h

theorem timedLanding x0 : Statement (.timedLanding x0) := by
  intro c w _ h
  change none = some w at h
  cases h

theorem lateDataArrival x0 x1 x2 : Statement (.lateDataArrival x0 x1 x2) := by
  intro c w _ h
  change none = some w at h
  cases h

theorem pickup x0 : Statement (.pickup x0) := by
  intro c w _ h
  change none = some w at h
  cases h

theorem idleRetry x0 : Statement (.idleRetry x0) := by
  intro c w _ h
  change none = some w at h
  cases h

theorem suspension x0 : Statement (.suspension x0) := by
  intro c w _ h
  change none = some w at h
  cases h

theorem pinWake x0 : Statement (.pinWake x0) := by
  intro c w _ h
  change none = some w at h
  cases h

theorem trapEntry x0 : Statement (.trapEntry x0) := by
  intro c w _ h
  change none = some w at h
  cases h

theorem messageHandlerStart x0 : Statement (.messageHandlerStart x0) := by
  intro c w _ h
  change none = some w at h
  cases h

theorem watchdogExpiry x0 : Statement (.watchdogExpiry x0) := by
  intro c w _ h
  change none = some w at h
  cases h

theorem preemptionService x0 : Statement (.preemptionService x0) := by
  intro c w _ h
  change none = some w at h
  cases h

theorem coreResume x0 : Statement (.coreResume x0) := by
  intro c w _ h
  change none = some w at h
  cases h

theorem saveTimerExpiry x0 : Statement (.saveTimerExpiry x0) := by
  intro c w _ h
  change none = some w at h
  cases h

theorem rangeWalk x0 x1 x2 : Statement (.rangeWalk x0 x1 x2) := by
  intro c w _ h
  change none = some w at h
  cases h

theorem matrixStep x0 : Statement (.matrixStep x0) := by
  intro c w _ h
  change none = some w at h
  cases h

theorem stepResultsComplete x0 : Statement (.stepResultsComplete x0) := by
  intro c w _ h
  change none = some w at h
  cases h

theorem latchLoad x0 : Statement (.latchLoad x0) := by
  intro c w _ h
  change none = some w at h
  cases h

theorem nestPass x0 : Statement (.nestPass x0) := by
  intro c w _ h
  change none = some w at h
  cases h

theorem drain x0 : Statement (.drain x0) := by
  intro c w _ h
  change none = some w at h
  cases h

theorem matrixClear x0 : Statement (.matrixClear x0) := by
  intro c w _ h
  change none = some w at h
  cases h

theorem postPlacement x0 x1 : Statement (.postPlacement x0 x1) := by
  intro c w _ h
  change none = some w at h
  cases h

theorem tagArbiterApply x0 x1 : Statement (.tagArbiterApply x0 x1) := by
  intro c w _ h
  change none = some w at h
  cases h

theorem messageArrival x0 x1 : Statement (.messageArrival x0 x1) := by
  intro c w _ h
  change none = some w at h
  cases h

theorem sendAcknowledgement x0 x1 : Statement (.sendAcknowledgement x0 x1) := by
  intro c w _ h
  change none = some w at h
  cases h

theorem sendHoldExpiry x0 x1 : Statement (.sendHoldExpiry x0 x1) := by
  intro c w _ h
  change none = some w at h
  cases h

theorem chunkAdmission x0 x1 : Statement (.chunkAdmission x0 x1) := by
  intro c w _ h
  change none = some w at h
  cases h

theorem blockComplete x0 x1 : Statement (.blockComplete x0 x1) := by
  intro c w _ h
  change none = some w at h
  cases h

theorem tileVerification x0 x1 : Statement (.tileVerification x0 x1) := by
  intro c w _ h
  change none = some w at h
  cases h

theorem transferComplete x0 x1 : Statement (.transferComplete x0 x1) := by
  intro c w _ h
  change none = some w at h
  cases h

theorem engineFault x0 x1 : Statement (.engineFault x0 x1) := by
  intro c w _ h
  change none = some w at h
  cases h

theorem syncOperation x0 x1 : Statement (.syncOperation x0 x1) := by
  intro c w _ h
  change none = some w at h
  cases h

theorem barrierDecrement x0 : Statement (.barrierDecrement x0) := by
  intro c w _ h
  change none = some w at h
  cases h

theorem objectFetch x0 x1 : Statement (.objectFetch x0 x1) := by
  intro c w _ h
  change none = some w at h
  cases h

theorem waitScan x0 : Statement (.waitScan x0) := by
  intro c w _ h
  change none = some w at h
  cases h

theorem meetArrival x0 : Statement (.meetArrival x0) := by
  intro c w _ h
  change none = some w at h
  cases h

theorem orphanScan x0 : Statement (.orphanScan x0) := by
  intro c w _ h
  change none = some w at h
  cases h

theorem resultReoffer x0 : Statement (.resultReoffer x0) := by
  intro c w _ h
  change none = some w at h
  cases h

theorem rangeUpdate x0 x1 : Statement (.rangeUpdate x0 x1) := by
  intro c w _ h
  change none = some w at h
  cases h

theorem compactionBlock : Statement (.compactionBlock) := by
  intro c w _ h
  change none = some w at h
  cases h

theorem doorbell x0 : Statement (.doorbell x0) := by
  intro c w _ h
  change none = some w at h
  cases h

theorem launch : Statement (.launch) := by
  intro c w _ h
  change none = some w at h
  cases h

theorem collectiveEntry : Statement (.collectiveEntry) := by
  intro c w _ h
  change none = some w at h
  cases h

theorem jobStart : Statement (.jobStart) := by
  intro c w _ h
  change none = some w at h
  cases h

theorem jobEnd : Statement (.jobEnd) := by
  intro c w _ h
  change none = some w at h
  cases h

theorem unknownEntry : Statement (.unknownEntry) := by
  intro c w _ h
  change none = some w at h
  cases h

theorem phaseCommit : Statement (.phaseCommit) := by
  intro c w _ h
  change none = some w at h
  cases h

theorem preempt : Statement (.preempt) := by
  intro c w _ h
  change none = some w at h
  cases h

theorem preemptAcknowledgement x0 : Statement (.preemptAcknowledgement x0) := by
  intro c w _ h
  change none = some w at h
  cases h

theorem preemptionTimeout x0 : Statement (.preemptionTimeout x0) := by
  intro c w _ h
  change none = some w at h
  cases h

theorem resume : Statement (.resume) := by
  intro c w _ h
  change none = some w at h
  cases h

theorem cancel : Statement (.cancel) := by
  intro c w _ h
  change none = some w at h
  cases h

theorem continueCmd : Statement (.continueCmd) := by
  intro c w _ h
  change none = some w at h
  cases h

theorem freeze : Statement (.freeze) := by
  intro c w _ h
  change none = some w at h
  cases h

theorem unfreeze : Statement (.unfreeze) := by
  intro c w _ h
  change none = some w at h
  cases h

theorem hcmdInvalid x0 : Statement (.hcmdInvalid x0) := by
  intro c w _ h
  change none = some w at h
  cases h

theorem hstatRead : Statement (.hstatRead) := by
  intro c w _ h
  change none = some w at h
  cases h

theorem eyectlWrite x0 x1 : Statement (.eyectlWrite x0 x1) := by
  intro c w _ h
  change none = some w at h
  cases h

theorem hostRegisterWrite x0 x1 : Statement (.hostRegisterWrite x0 x1) := by
  intro c w _ h
  change none = some w at h
  cases h

theorem windowRead x0 x1 : Statement (.windowRead x0 x1) := by
  intro c w _ h
  change none = some w at h
  cases h

theorem windowWrite x0 x1 : Statement (.windowWrite x0 x1) := by
  intro c w _ h
  change none = some w at h
  cases h

theorem attestationRequest x0 : Statement (.attestationRequest x0) := by
  intro c w _ h
  change none = some w at h
  cases h

theorem boot : Statement (.boot) := by
  intro c w _ h
  change none = some w at h
  cases h

theorem patrolScrub x0 : Statement (.patrolScrub x0) := by
  intro c w _ h
  change none = some w at h
  cases h

theorem scrubWriteback x0 : Statement (.scrubWriteback x0) := by
  intro c w _ h
  change none = some w at h
  cases h

theorem eyeThresholdCrossed x0 x1 : Statement (.eyeThresholdCrossed x0 x1) := by
  intro c w _ h
  change none = some w at h
  cases h

theorem retrainingSlot x0 : Statement (.retrainingSlot x0) := by
  intro c w _ h
  change none = some w at h
  cases h

theorem droop x0 : Statement (.droop x0) := by
  intro c w _ h
  change none = some w at h
  cases h

theorem powerLoop x0 : Statement (.powerLoop x0) := by
  intro c w _ h
  change none = some w at h
  cases h

theorem thermalLoop x0 x1 : Statement (.thermalLoop x0 x1) := by
  intro c w _ h
  change none = some w at h
  cases h

theorem railPoll x0 x1 : Statement (.railPoll x0 x1) := by
  intro c w _ h
  change none = some w at h
  cases h

theorem regulatorTimeout x0 : Statement (.regulatorTimeout x0) := by
  intro c w _ h
  change none = some w at h
  cases h

theorem flitReplay x0 : Statement (.flitReplay x0) := by
  intro c w _ h
  change none = some w at h
  cases h

theorem portRetrain x0 : Statement (.portRetrain x0) := by
  intro c w _ h
  change none = some w at h
  cases h

theorem packageDeath x0 : Statement (.packageDeath x0) := by
  intro c w _ h
  change none = some w at h
  cases h

theorem packetArrival x0 : Statement (.packetArrival x0) := by
  intro c w _ h
  change none = some w at h
  cases h

theorem packetTimeout x0 : Statement (.packetTimeout x0) := by
  intro c w _ h
  change none = some w at h
  cases h

theorem fabricCompletion x0 x1 x2 : Statement (.fabricCompletion x0 x1 x2) := by
  intro c w _ h
  change none = some w at h
  cases h

theorem fabricBarrierArrival x0 x1 : Statement (.fabricBarrierArrival x0 x1) := by
  intro c w _ h
  change none = some w at h
  cases h

theorem fabricBarrierRelease x0 : Statement (.fabricBarrierRelease x0) := by
  intro c w _ h
  change none = some w at h
  cases h

theorem roundBreak x0 : Statement (.roundBreak x0) := by
  intro c w _ h
  change none = some w at h
  cases h

theorem collectiveJoin x0 x1 : Statement (.collectiveJoin x0 x1) := by
  intro c w _ h
  change none = some w at h
  cases h

theorem joinTimeout x0 : Statement (.joinTimeout x0) := by
  intro c w _ h
  change none = some w at h
  cases h

theorem collectiveChunk x0 : Statement (.collectiveChunk x0) := by
  intro c w _ h
  change none = some w at h
  cases h

theorem reset x0 x1 : Statement (.reset x0 x1) := by
  intro c w _ h
  change none = some w at h
  cases h

theorem singleFault x0 : Statement (.singleFault x0) := by
  intro c w _ h
  change none = some w at h
  cases h

theorem portRetrainingEnd x0 x1 : Statement (.portRetrainingEnd x0 x1) := by
  intro c w _ h
  change none = some w at h
  cases h

theorem engineResumeReport x0 : Statement (.engineResumeReport x0) := by
  intro c w _ h
  change none = some w at h
  cases h

theorem getResponseArrival x0 x1 : Statement (.getResponseArrival x0 x1) := by
  intro c w _ h
  change none = some w at h
  cases h

end Sys2Proof.Laws.RoundTrip
end

