-- ==== Sys2Proof/Tests/Slice0.lean ====
section
/-! SUPPORT. The model's own tests: what WellFormed refuses, words written out from their encodings, states that meet the
hypotheses of the statements, and single steps whose results come from the spec's words. -/

set_option Elab.async false

namespace Sys2Proof.Tests

open Sys2Proof Sys2Proof.Machine

/-- An outcome that goes on to a state with a property. -/
def reaches (o : Host.Outcome State Fault Refusal) (p : State → Bool) : Bool :=
  match o with
  | .next t => p t
  | _ => false

theorem reaches_spec {o : Host.Outcome State Fault Refusal} {p : State → Bool} (h : reaches o p = true) :
    ∃ t, o = .next t ∧ p t = true := by
  cases o <;> simp_all [reaches]

/-- A data range, a synchronisation range and a code range. -/
def dataRange : Desc :=
  { rid := 1, vbase := 0x10000, vlimit := 0x20000, poff := 0x100000, rbase := 0x10000, rlimit := 0x20000, key := 1
    perm := 0b000010011#9, version := 0 }
def syncRange : Desc :=
  { rid := 2, vbase := 0x40000, vlimit := 0x50000, poff := 2 ^ 43, rbase := 0x40000, rlimit := 0x50000, key := 1
    perm := 0b000001000#9, version := 0 }
def codeRange : Desc :=
  { rid := 3, vbase := 0x80000, vlimit := 0x81000, poff := 0, rbase := 0x80000, rlimit := 0x81000, key := 1
    perm := 0b000000101#9, version := 0 }

/-- A launch in its first phase. -/
def someLaunch : Launch :=
  { num := 1, ident := 1, index := 0, prio := 0, det := false, dmode := 0, ppol := 0, irq := false, coderid := 3, rset := 1
    mode := 0, jkey := 0, pparam := 0, wlim := 1000, mto := 1000, dlog := 0, dlen := 0, shadow := 4096
    overflow := 4096, statusSize := 4096, queueArea := 4096, objects := 64, phase := 0, committed := 0, serial := false
    marked := false, dropped := false, writes := [], posts := [], pwrites := [], ran := [], dup := none, flags := 0
    elem := none, podDone := false, collectives := [], saveBase := 0x8000000, objectBase := 0x4000000
    queueBase := 0x5000000, lintelBase := 0x6000000, statusBase := 0x2000000, dirBase := 0x3000000, dirSets := [(1, 0x3001000, 3)], codeBase := 0x80000, ended := []
    roots := none }

/-- Core 0 runs a strand of that launch, with the ranges in its table; every register is zero. -/
def work : State :=
  { State.reset with
    cores := [(0, { Core.reset with
      act := .running, strand := some { firstRecord with rset := 1, dslot := 1 }, tableSet := some 1
      table := [dataRange, syncRange, codeRange], codeEntry := some codeRange, codeLaunch := some 1 })]
    hub := { Hub.reset with
      launch := some someLaunch, dir := [(1, [dataRange, syncRange, codeRange])], run := true, job := true, pstate := 0
      keys := [(0, 1), (1, 1)], status := [(1, StatusBlock.fresh 0 0)] }
    platform := { Platform.reset with booted := true } }

/-- The state with scalar registers set. -/
def withS (s : State) (l : List (Nat × W64)) : State :=
  s.onHere fun c => { c with s := l.foldl (fun r p => r.set p.1 p.2) c.s }

/-- The state in the message-handler context of core 0. -/
def inHand (s : State) : State := s.onHere fun c => { c with inHandler := true }

/-- The state in trap-handler mode of core 0. -/
def inTrap (s : State) : State := s.onHere fun c => { c with main := { c.main with hmode := true } }

/-! WellFormed refuses what the encodings of the spec do not admit: one term for each check. -/

theorem refuses_mfc_unassigned : Instr.wellFormed (.mfc 1 0x7FF) = false := by decide
theorem refuses_mtc_unassigned : Instr.wellFormed (.mtc 1 0x00B) = false := by decide
theorem refuses_traceR_pair : Instr.wellFormed (.traceR 31 0) = false := by decide
theorem refuses_tmma_pair : Instr.wellFormed (.tmma 0 0 31 2 0) = false ∧ Instr.wellFormed (.tmma 0 0 2 31 0) = false := by decide
theorem refuses_tmmaLatch_pair : Instr.wellFormed (.tmmaLatch 0 0 0 31 0) = false := by decide
theorem refuses_tlatch_pair : Instr.wellFormed (.tlatch 0 0 31) = false := by decide
theorem refuses_tgo_pair : Instr.wellFormed (.tgo 0 0 31 2 4) = false ∧ Instr.wellFormed (.tgo 0 0 2 31 4) = false ∧
    Instr.wellFormed (.tgo 0 0 2 4 31) = false := by decide
theorem refuses_tdrain_pair : Instr.wellFormed (.tdrain 0 31) = false := by decide
theorem refuses_vmxq : Instr.wellFormed (.vmxq 0 1 31 2 0) = false ∧ Instr.wellFormed (.vmxq 0 1 2 3 3) = false := by decide
theorem refuses_vmxd : Instr.wellFormed (.vmxd 0 31 1 2 0) = false ∧ Instr.wellFormed (.vmxd 0 1 2 3 7) = false := by decide
theorem refuses_vcvt_block_formats : Instr.wellFormed (.vcvt 0 7 1 2 1 0 0) = false ∧
    Instr.wellFormed (.vcvt 0 1 1 2 9 0 0) = false := by decide
theorem refuses_vext_lane : Instr.wellFormed (.vext 0 1 2 16 0 2 0) = false ∧ Instr.wellFormed (.vext 0 1 2 0 0 3 1) = false := by
  decide
theorem refuses_vins_lane : Instr.wellFormed (.vins 0 1 2 8 0 3) = false := by decide
theorem refuses_acas_pair : Instr.wellFormed (.acas 1 2 31 0) = false := by decide
theorem refuses_meet_operation : Instr.wellFormed (.meet 1 2 3 0 10) = false ∧ Instr.wellFormed (.meetT 1 2 3 15) = false := by
  decide

/-- Steps of units that a package does not have: cores (R6). -/
theorem refuses_missing_core :
    ([Instr.loopBack 640, .timedLanding 640, .lateDataArrival 640 1 false, .pickup 640, .idleRetry 640, .suspension 640,
      .pinWake 640, .trapEntry 640, .messageHandlerStart 640, .watchdogExpiry 640, .preemptionService 640,
      .coreResume 640, .saveTimerExpiry 640, .rangeWalk 640 false 0, .matrixStep 640, .stepResultsComplete 640,
      .latchLoad 640, .nestPass 640, .drain 640, .matrixClear 640, .postPlacement 640 1, .tagArbiterApply 640 1,
      .messageArrival 640 1, .sendAcknowledgement 640 1, .sendHoldExpiry 640 1, .syncOperation 640 1,
      .rangeUpdate 640 1].all fun i => !i.wellFormed) = true := by decide

/-- Clusters and nodes, dies, stacks, ports, packages and reset levels (R5, R6). -/
theorem refuses_missing_unit :
    ([Instr.chunkAdmission 160 1, .blockComplete 160 1, .tileVerification 160 1, .transferComplete 160 1, .engineFault 160 0,
      .orphanScan 160, .resultReoffer 160, .objectFetch 8 0, .waitScan 8, .droop 8, .thermalLoop 8 ⟨0, 0⟩, .thermalLoop 0 ⟨4, 0⟩, .railPoll 8 ⟨0, 0⟩,
      .regulatorTimeout 8, .eyectlWrite 16 0, .patrolScrub 16, .scrubWriteback 16, .eyeThresholdCrossed 16 0,
      .retrainingSlot 16, .flitReplay ⟨12, false⟩, .portRetrain 12, .portRetrainingEnd 12 true, .packageDeath 2048,
      .collectiveJoin 2048 0, .joinTimeout 2048, .reset 4 0].all fun i => !i.wellFormed) = true := by decide

/-- A word with an operand that is not admitted is refused by the decoder: MFC of the unassigned register 0x7FF. -/
theorem decode_refuses_unassigned : (match decode 0x080507FF#32 with | .ok _ => true | .error _ => false) = false := by
  decide +kernel

/-! Words written out from the encodings of the opcode table, with a value of its own in every operand field: each word decodes
to its instruction. -/

/-- Each word decodes to the instruction beside it. -/
noncomputable def decodes (l : List (W32 × Instr)) : Bool := l.all fun p => match decode p.1 with | .ok i => decide (i = p.2) | .error _ => false

theorem decodes_major_0 : decodes [
    (0x00000000#32, .nop),
    (0x803B5AE5#32, .br 1 5 1 23269),
    (0x0048000C#32, .jmp 0 4 0 12),
    (0x80775AF3#32, .callDisp 1 3 1 23283),
    (0x0084001A#32, .callReg 0 2 0 26),
    (0x80B30001#32, .ret 1 1 1 1),
    (0x00C08450#32, .brvAll 0 0 33872),
    (0x80DF8457#32, .brvNone 1 7 33879),
    (0x00E0EE1E#32, .loop 238 0 30),
    (0x81106C65#32, .bsel 1 13 1125),
    (0x01200000#32, .fenceL)] = true := by
  decide +kernel

theorem decodes_major_1_part1 : decodes [
    (0x88030107#32, .mfc 3 263),
    (0x08205107#32, .mtc 10 263),
    (0x88800711#32, .trap 1809),
    (0x08A00718#32, .bkpt 1816),
    (0x88C00000#32, .rett),
    (0x08E00000#32, .reth),
    (0x89000000#32, .trapack),
    (0x0A146138#32, .post 20 12 4 28),
    (0x8A3B9AC6#32, .postn 27 19 11 3),
    (0x0A400000#32, .susp),
    (0x8A600000#32, .pinM),
    (0x0A608001#32, .pinQ 16),
    (0x8A777802#32, .pinB 23 15),
    (0x0A60F003#32, .pinT 30),
    (0x8A800000#32, .endStrand),
    (0x0B0C2038#32, .gnew 12 4 28),
    (0x8B335806#32, .gjoin 19 11 3),
    (0x0B5A9014#32, .gleave 26 18 10),
    (0x8B61C822#32, .gfree 1 25 17),
    (0x0B880030#32, .ginfo 8 0 24),
    (0x8BAF383E#32, .dgst 15 7 31),
    (0x0C00B000#32, .traceW 22),
    (0x8C1DA801#32, .traceR 29 21),
    (0x0C200000#32, .trigFire)] = true := by
  decide +kernel

theorem decodes_major_1_part2 : decodes [
    (0x8C200001#32, .trigRearm)] = true := by
  decide +kernel

theorem decodes_major_2_part1 : decodes [
    (0x10092848#32, .addSr 18 10 2 2),
    (0x10106200#32, .subSr 0 24 16 0),
    (0x10271BD8#32, .andSr 14 6 30 6),
    (0x103E5190#32, .orSr 28 20 12 4),
    (0x10450B48#32, .xorSr 10 2 26 2),
    (0x105C4100#32, .andnSr 24 16 8 0),
    (0x10637AD8#32, .shlSr 6 30 22 6),
    (0x107A3090#32, .shrSr 20 12 4 4),
    (0x10816A48#32, .sarSr 2 26 18 2),
    (0x10982000#32, .rotSr 16 8 0 0),
    (0x10AF59D8#32, .minSr 30 22 14 6),
    (0x10B61390#32, .maxSr 12 4 28 4),
    (0x10CD4948#32, .minuSr 26 18 10 2),
    (0x10D40300#32, .maxuSr 8 0 24 0),
    (0x110B38D8#32, .mulSr 22 14 6 6),
    (0x11127290#32, .mulh 4 28 20 4),
    (0x91258F6C#32, .mulhu 11 3 27 3),
    (0x11492848#32, .div 18 10 2 2),
    (0x915CC524#32, .divu 25 17 9 1),
    (0x11606200#32, .rem 0 24 16 0),
    (0x9173F6FC#32, .remu 7 29 23 7),
    (0x11871818#32, .clz 14 6 6),
    (0x919AB414#32, .ctz 21 13 5),
    (0x11AE5010#32, .popc 28 20 4)] = true := by
  decide +kernel

theorem decodes_major_2_part2 : decodes [
    (0x91B1EC0C#32, .brev 3 27 3),
    (0x12050808#32, .extB 10 2 2),
    (0x9218A404#32, .extBu 17 9 1),
    (0x122C4000#32, .extH 24 16 0),
    (0x923EDC1C#32, .extHu 29 23 7),
    (0x12437818#32, .extW 6 30 6),
    (0x92569414#32, .extWu 13 5 5),
    (0x128A3090#32, .bfx 20 12 4 4),
    (0x929DCD6C#32, .bfi 27 19 11 3),
    (0x12C16A48#32, .addsh1 2 26 18 2),
    (0x92D48724#32, .addsh2 9 1 25 1),
    (0x12E82000#32, .addsh3 16 8 0 0),
    (0x92FBBCFC#32, .addsh4 23 15 7 7),
    (0x130F59D8#32, .sel 30 22 14 6),
    (0x9382F6B4#32, .cmpEqSr 5 29 21 5),
    (0x9391AC6C#32, .cmpNeSr 3 11 3 3),
    (0x93A0E624#32, .cmpLtSr 1 25 17 1),
    (0x93B39FBC#32, .cmpGeSr 7 7 29 7),
    (0x93C2D5B4#32, .cmpLtuSr 5 21 13 5),
    (0x93D18F6C#32, .cmpGeuSr 3 3 27 3),
    (0x94008424#32, .plogAnd 1 1 1 1),
    (0x14100000#32, .plogOr 0 0 0 0),
    (0x94239CFC#32, .plogXor 7 7 7 7),
    (0x143318D8#32, .plogAndn 6 6 6 6)] = true := by
  decide +kernel

theorem decodes_major_3 : decodes [
    (0x980CC529#32, .addSi 25 17 297),
    (0x9813F537#32, .subSi 7 29 311),
    (0x982AB545#32, .andSi 21 13 325),
    (0x9831ED53#32, .orSi 3 27 339),
    (0x9848A561#32, .xorSi 17 9 353),
    (0x985EDD6F#32, .andnSi 29 23 367),
    (0x9866957D#32, .shlSi 13 5 381),
    (0x987DCD8B#32, .shrSi 27 19 395),
    (0x98848599#32, .sarSi 9 1 409),
    (0x989BBDA7#32, .rotSi 23 15 423),
    (0x98A2F5B5#32, .minSi 5 29 437),
    (0x98B9ADC3#32, .maxSi 19 11 451),
    (0x98C0E5D1#32, .minuSi 1 25 465),
    (0x98D79DDF#32, .maxuSi 15 7 479),
    (0x990ED5ED#32, .mulSi 29 21 493),
    (0x1B82129C#32, .cmpEqSi 4 4 668),
    (0x1B914AAA#32, .cmpNeSi 2 18 682),
    (0x1BA002B8#32, .cmpLtSi 0 0 696),
    (0x1BB33AC6#32, .cmpGeSi 6 14 710),
    (0x1BC272D4#32, .cmpLtuSi 4 28 724),
    (0x1BD12AE2#32, .cmpGeuSi 2 10 738),
    (0x9D0A804D#32, .movi 21 77)] = true := by
  decide +kernel

theorem decodes_major_4 : decodes [
    (0x22D6D99C#32, .limm 47634844)] = true := by
  decide +kernel

theorem decodes_major_5_part1 : decodes [
    (0xAC1CD637#32, .vadd 1 3 19 11 3 3 1),
    (0x2836A4A4#32, .vsub 0 2 26 18 10 2 0),
    (0xAC487313#32, .vmul 1 1 1 25 17 1 1),
    (0x28620180#32, .vfma 0 0 8 0 24 0 0),
    (0xAC9BCFDF#32, .vfms 1 3 15 7 29 7 1),
    (0x28B59C6C#32, .vfnma 0 2 22 14 6 6 0),
    (0xACCF6ADB#32, .vmin 1 1 29 21 13 5 1),
    (0x28E13948#32, .vmax 0 0 4 28 20 4 0),
    (0xAD1AC607#32, .vabs 1 3 11 3 3 1),
    (0x29349404#32, .vneg 0 2 18 10 2 0),
    (0xAD4E6293#32, .vdiv 1 1 25 17 9 1 1),
    (0x29603000#32, .vsqrt 0 0 0 24 0 0),
    (0xAD99FB7F#32, .vcmpEqFloat 1 3 7 29 23 7 1),
    (0x29B18DEC#32, .vcmpLtFloat 0 2 6 6 30 6 0),
    (0xADC95A5B#32, .vcmpLeFloat 1 1 5 13 5 5 1),
    (0x29E128C8#32, .vcmpUnFloat 0 0 4 20 12 4 0),
    (0xAE18F737#32, .viadd 1 3 3 27 19 3 1),
    (0x2A3285A4#32, .visub 0 2 10 2 26 2 0),
    (0xAE4C5213#32, .vimul 1 1 17 9 1 1 1),
    (0x2A662080#32, .vimulh 0 0 24 16 8 0 0),
    (0xAE9F6EFF#32, .vimin 1 3 29 23 15 7 1),
    (0x2AB1BD6C#32, .vimax 0 2 6 30 22 6 0),
    (0xAEC55A5B#32, .vand 1 21 13 5 5 1),
    (0x2ACF28C8#32, .vor 0 28 20 12 4 0)] = true := by
  decide +kernel

theorem decodes_major_5_part2 : decodes [
    (0xAED0F737#32, .vxor 1 3 27 19 3 1),
    (0x2ADA85A4#32, .vandn 0 10 2 26 2 0),
    (0xAEEA4393#32, .vshl 1 1 9 1 25 1 1),
    (0x2AF41000#32, .vshr 0 0 16 8 0 0 0),
    (0xAF0DDE7F#32, .vsar 1 1 23 15 7 7 1),
    (0x2B11BD6C#32, .vfxmulFix64 0 6 30 22 6 0),
    (0xAF1B4BDB#32, .vfxaddFix64 1 13 5 29 5 1),
    (0x2B251848#32, .vdot16Bf16 0 20 12 4 4 0),
    (0xAF2EE6B7#32, .vdot16F16 1 27 19 11 3 1),
    (0x2B30B524#32, .vdot16E4m3 0 2 26 18 2 0),
    (0xAF3A4393#32, .vdot16E5m2 1 9 1 25 1 1),
    (0x2B441000#32, .vdot16I8 0 16 8 0 0 0),
    (0xAF4DDE7F#32, .vdot16Log6 1 23 15 7 7 1),
    (0x2B57ACEC#32, .vdot16E2m1 0 30 22 14 6 0),
    (0xAF896ADB#32, .vcmpEqInt 1 1 5 21 13 5 1),
    (0x2B913948#32, .vcmpLtInt 0 0 4 28 20 4 0),
    (0xAFA8C7B7#32, .vcmpLtuInt 1 1 3 3 27 3 1),
    (0x2BB09424#32, .vcmpLeInt 0 0 2 10 2 2 0)] = true := by
  decide +kernel

theorem decodes_major_6_part1 : decodes [
    (0xB42663A3#32, .vcvt 1 4 25 17 13 1 1),
    (0x30820184#32, .vmxq 0 8 0 24 2),
    (0xB48BCFD4#32, .vmxd 1 15 7 29 2),
    (0x30C59C0C#32, .vrcpeF32 0 22 14 6 0),
    (0xB4CF6A0B#32, .vrsqeF32 1 29 21 5 1),
    (0x30D13808#32, .vfexpF32 0 4 28 4 0),
    (0xB4DAC7B7#32, .vscalebF32 1 11 3 27 3 1),
    (0x30E49404#32, .vgetexpF32 0 18 10 2 0),
    (0xB4EE6203#32, .vrndiF32 1 25 17 1 1),
    (0x30E83010#32, .vrndiIF32 0 0 24 0 0),
    (0xB4F1FA0F#32, .vclassF32 1 7 29 7 1),
    (0x31038C0C#32, .vrcpeF64 0 14 6 6 0),
    (0xB50D5A0B#32, .vrsqeF64 1 21 13 5 1),
    (0x31172808#32, .vfexpF64 0 28 20 4 0),
    (0xB518F737#32, .vscalebF64 1 3 27 19 3 1),
    (0x31228404#32, .vgetexpF64 0 10 2 2 0),
    (0xB52C5203#32, .vrndiF64 1 17 9 1 1),
    (0x312E2010#32, .vrndiIF64 0 24 16 0 0),
    (0xB5376E0F#32, .vclassF64 1 29 23 7 1),
    (0x3141BD6C#32, .vsel 0 6 30 22 6),
    (0xB54B4A0B#32, .vmov 1 13 5 5 1),
    (0x31551808#32, .vxmov 0 20 12 4 0),
    (0xB55EE637#32, .vbcast 1 27 19 3 3 1),
    (0x3160B455#32, .vext 0 2 26 5 0 2 1)] = true := by
  decide +kernel

theorem decodes_major_6_part2 : decodes [
    (0xB56A4254#32, .vins 1 9 1 5 0 2),
    (0x31741000#32, .vperm 0 16 8 0 0 0),
    (0xB57DDE7F#32, .vshuf 1 23 15 7 7 1),
    (0x3187ACEC#32, .vredAddF32 0 30 22 14 6),
    (0xB5897B5A#32, .vredAddF64 1 5 29 21 5),
    (0x319309C8#32, .vredMinF32 0 12 4 28 4),
    (0xB59CD636#32, .vredMaxF32 1 19 11 3 3),
    (0x31A6A4A4#32, .vredAddI32 0 26 18 10 2),
    (0xB5A87312#32, .vredAddI64 1 1 25 17 1),
    (0x31B20180#32, .vredMinI32 0 8 0 24 0),
    (0xB5BBCFDE#32, .vredMaxI32 1 15 7 29 7),
    (0x31C18C60#32, .kand 0 6 6 6),
    (0xB5C94A50#32, .kor 1 5 5 5),
    (0x31D10840#32, .kxor 0 4 4 4),
    (0xB5D8C600#32, .knot 1 3 3),
    (0x31E08400#32, .kmov 0 2 2),
    (0xB5E06210#32, .kmovFromS 1 1 17),
    (0x31E00020#32, .kmovToS 0 0 0),
    (0xB5E9CE00#32, .kpop 1 7 7),
    (0x31F18C20#32, .kuni 0 6 6 2)] = true := by
  decide +kernel

theorem decodes_major_7 : decodes [
    (0xB82A34A2#32, .tmma 5 1 13 5 1),
    (0x38200181#32, .tmmaLatch 4 0 0 12 0),
    (0xB859EC00#32, .tlatch 3 3 27),
    (0x38940B52#32, .tgo 2 2 2 26 18),
    (0xB8C24400#32, .tdrain 1 17),
    (0x39000018#32, .twait 0 24),
    (0xB9401C1F#32, .tstat 7 31),
    (0x39840000#32, .tclr 2),
    (0xB9C05400#32, .trow 21)] = true := by
  decide +kernel

theorem decodes_major_8 : decodes [
    (0x401CA324#32, .ldB 28 20 12 36),
    (0xC023DCEB#32, .ldBu 3 27 19 43),
    (0x404A16B2#32, .ldH 10 2 26 50),
    (0xC0714879#32, .ldHu 17 9 1 57),
    (0x40988200#32, .ldW 24 16 8 0),
    (0xC0BDBBC7#32, .ldWu 29 23 15 7),
    (0x40C6F58E#32, .ldD 6 30 22 14),
    (0xC10D281D#32, .stB 13 5 29),
    (0x41346024#32, .stH 20 12 36),
    (0xC15B982B#32, .stW 27 19 43),
    (0x4162D032#32, .stD 2 26 50),
    (0xC221CC69#32, .vld 1 1 25 17 41),
    (0x42480038#32, .vst 0 8 0 56),
    (0xC75E7FEF#32, .vgather 1 15 7 15 7 15),
    (0x47ACE6C0#32, .vscatter 0 22 14 6 6)] = true := by
  decide +kernel

theorem decodes_major_9 : decodes [
    (0xC885ED4D#32, .kldW 5 29 21 13),
    (0x48AC2714#32, .kldWu 12 4 28 20),
    (0xC8D358DB#32, .kldD 19 11 3 27),
    (0x495A902A#32, .kstW 26 18 42),
    (0xC961C831#32, .kstD 1 25 49),
    (0x4A00C428#32, .kvld 0 0 24 16 40),
    (0xCA67E837#32, .kvst 1 7 29 55),
    (0x4C167180#32, .klook 22 14 6),
    (0xCC3DAB40#32, .ktag 29 21 13),
    (0x4C44E500#32, .kuntag 4 28 20)] = true := by
  decide +kernel

theorem decodes_major_A : decodes [
    (0xD00B1EC0#32, .qput 11 3 27),
    (0x50325004#32, .qget 18 10 2),
    (0xD0598812#32, .qstat 25 17 9),
    (0x50600600#32, .qcfgRel 0 24),
    (0xD0603F41#32, .qcfgOpen 7 29),
    (0x50607002#32, .qcfgClose 14),
    (0xD115680A#32, .xfer 21 13 5),
    (0x513CA018#32, .xwait 28 20 12),
    (0xD143D826#32, .xstat 3 27 19),
    (0x51605000#32, .xcancel 10),
    (0xD1600001#32, .xcancelAll)] = true := by
  decide +kernel

theorem decodes_major_B : decodes [
    (0x5800C400#32, .binit 24 16),
    (0xD820E800#32, .barrive 29),
    (0x5846F580#32, .bwait 6 30 22),
    (0xD8606940#32, .bexpect 13 5),
    (0x5880A000#32, .binv 20),
    (0xD91B9AC6#32, .aadd 27 19 11 3),
    (0x5922D494#32, .acas 2 26 18 10),
    (0xD9490E62#32, .amin 9 1 25 17),
    (0x59704030#32, .amax 16 8 0 24),
    (0xD99779FE#32, .aor 23 15 7 31),
    (0x59BEB38C#32, .afix 30 22 14 6),
    (0xD9C5E82A#32, .aread 5 29 21),
    (0x5A0C0008#32, .mtaga 12 4),
    (0xDA335806#32, .mtagf 19 11 3),
    (0x5A5A9289#32, .meet 26 18 10 0 9),
    (0xDA41CC69#32, .meetT 1 25 17 9),
    (0x5A680030#32, .mstat 8 0 24)] = true := by
  decide +kernel

theorem decodes_major_C : decodes [
    (0xE00F3F6E#32, .rlook 15 7 29 23),
    (0x603671BC#32, .rsplit 22 14 6 30),
    (0xE05DAB4A#32, .rmerge 29 21 13 5),
    (0x60602000#32, .rinv 4),
    (0xE08B1EC0#32, .rresSet 11 3 27),
    (0x60925081#32, .rresGrow 18 10 2),
    (0xE0A0CC40#32, .rprotAll 25 17),
    (0x60A00601#32, .rprotPerm 0 24),
    (0xE0A03F42#32, .rprotKey 7 29),
    (0x60CE000C#32, .rfence 14 6),
    (0xE0E0AB40#32, .rmove 21 13),
    (0x6200E000#32, .fput 28),
    (0xE2201800#32, .fget 3),
    (0x624A1680#32, .fbar 10 2 26),
    (0xE2714802#32, .fstat 17 9 1),
    (0x6280C000#32, .cpost 24)] = true := by
  decide +kernel

/-! States and operands that meet the hypotheses of the statements. -/

/-- Core 0 at the first word of a code page that holds the ADD of the spec example, alone in its bundle. -/
noncomputable def atAdd : State := State.reset.withFetchWord 32 0x100210A0

/-- As in the statement on the decoded instruction: the state in which the core has seen what is due. -/
noncomputable def atAddReady : State :=
  (atAdd.onHere fun c => c.advance atAdd.time atAdd.fresh (max c.cycle c.issueAt)).serveQueues 0

theorem meets_EncodedWordsDecodeBack :
    Instr.wellFormed (.addSr 4 4 5 0) = true ∧ encode false (.addSr 4 4 5 0) = some 0x100210A0#32 ∧
    Instr.wellFormed (.brvNone 1 7 0xFFFF) = true ∧ encode true (.brvNone 1 7 0xFFFF) = some 0x80DFFFFF#32 := by
  decide +kernel

theorem meets_DecodedWordsAreWellFormed : decode 0x100210A0#32 = .ok (.addSr 4 4 5 0) := by rfl

theorem meets_StepRunsTheDecodedInstruction :
    atAdd.nextTurn = some (.bundle 0) ∧ atAddReady.cur = 0 ∧ atAddReady.here.stuck = false ∧
    atAddReady.needsCode atAddReady.here = false ∧ (atAddReady.nextWords atAddReady.here).toOption = some [(0, 0x100210A0#32)] ∧
    chainBit 0x100210A0#32 = false ∧ isLimm 0x100210A0#32 = false ∧ atAddReady.here.loop.active = false ∧
    (∃ t, exec (.addSr 4 4 5 0) (((atAddReady.noteFetch atAddReady.here [(0, 0x100210A0#32)]).takeUp [(0, 0x100210A0#32)]).atItem
      { off := 0, raw := 0x100210A0#32, instr := some (.addSr 4 4 5 0), pipe := (pipeOf 0x100210A0#32).getD 8, ext := none
        slot := 0 }) = .next t ∧ (t.here.iss.mark == .done) = true) := by
  and_intros <;> first
    | decide +kernel
    | exact reaches_spec (p := fun t => t.here.iss.mark == .done) (by decide +kernel)

/-- After boot a port event waits alone in the agenda; and a core searches again after a wait of its own. -/
def atFlit : State :=
  { State.reset with platform := { Platform.reset with booted := true }, agenda := [.flitReplay ⟨3, false⟩] }
def aTrap : Request :=
  { code := 15, tval := 0x155, tbundle := 0, xcode := 0, deferred := false, epc := none, level := 0 }
noncomputable def atTrapAlone : State := atAdd.onHere fun c => { c with requests := [aTrap] }

theorem meets_StepRunsAnEvent :
    atTrapAlone.nextTurn = some (.own (.trapEntry 0)) ∧
    (∃ t, exec (.trapEntry 0) atTrapAlone = .next t ∧ t.here.ctx.hmode = true) ∧
    atFlit.nextTurn = some (.waiting 0) ∧ atFlit.agenda[0]? = some (.flitReplay ⟨3, false⟩) ∧
    (∃ t, exec (.flitReplay ⟨3, false⟩) { atFlit with agenda := atFlit.agenda.eraseIdx 0 } = .next t ∧
      ((t.fabric.port 3).replays == 1) = true) := by
  refine ⟨by decide +kernel, reaches_spec (p := fun t => t.here.ctx.hmode) (by decide +kernel), by decide +kernel,
    by decide +kernel, reaches_spec (p := fun t => (t.fabric.port 3).replays == 1) (by decide +kernel)⟩

theorem meets_FirstStepBoots : State.reset.platform.booted = false ∧ State.reset.platform.bootFailed = false := by decide

theorem meets_MemoriesAreCanonical : Memory.wf [(0, 1), (63, 0xFF#8), (2 ^ 40, 7)] = true := by decide

theorem meets_EveryStepKeepsHbmCanonical : Memory.wf atAdd.hbm = true ∧
    ∃ t, step atAdd = .next t ∧ (t.core 0).main.pc = 1 := by
  refine ⟨by decide +kernel, ?_⟩
  have h := reaches_spec (o := step atAdd) (p := fun t => (t.core 0).main.pc == 1) (by decide +kernel)
  simpa using h

/-- Guards that hold and that do not; an immediate without and with a LIMM. -/
theorem meets_ScalarWords : State.reset.guarded 0 false = true ∧ (inHand State.reset).guarded 0 false = true ∧
    State.reset.here.iss.ext = none := by decide +kernel

theorem meets_FalseGuardsStopTheEffect : State.reset.guarded 7 false = false ∧ State.reset.guarded 1 false = false := by
  decide +kernel

/-- The hypothesis of the statements on vector and matrix words, MovementReductionAndMaskWords, SelectTakesBytesByMask and
PermutesSelectBytesByIndex among them. -/
theorem meets_VectorWords : State.reset.here.inHandler = false ∧ work.here.inHandler = false := by decide +kernel

theorem meets_LanesKeepOrZeroWhereInactive : 0 < 8 ∧ 8 ∣ 512 ∧ 0 < 512 ∧ 512 ∣ 512 ∧ 0 < 1 ∧ 1 ∣ 512 := by decide

theorem meets_VectorAndMatrixWordsTrapInTheHandler :
    (inHand State.reset).here.inHandler = true ∧
    (∀ i ∈ [Instr.vadd 0 0 3 1 2 1 1, .vmov 1 1 2 0 0, .tclr 3, .vld 0 1 2 0 0, .vst 0 1 2 0, .vgather 0 1 2 3 4 5,
        .vscatter 0 1 2 3 4, .kvld 0 1 2 3 4, .kvst 0 1 2 3, .meet 1 2 3 0 9],
      i.wellFormed = true ∧ (encode false i).isSome = true) ∧
    ((encode false (.vadd 0 0 3 1 2 1 1)).map fun w => w.toNat / 2 ^ 27 % 16) = some 5 ∧
    ((encode false (.vmov 1 1 2 0 0)).map fun w => w.toNat / 2 ^ 27 % 16) = some 6 ∧
    ((encode false (.tclr 3)).map fun w => w.toNat / 2 ^ 27 % 16) = some 7 := by decide +kernel

theorem meets_StochasticValuesAreTakenByTheListedWords :
    ((encode false (.vadd 0 0 3 1 2 1 1)).map fun w => w.toNat / 2 ^ 27 % 16) = some 5 ∧
    ((encode false (.vperm 0 1 2 3 0 0)).map fun w => w.toNat / 2 ^ 27 % 16) = some 6 ∧
    (∃ t, exec (.vadd 0 0 3 1 2 1 1) (work.onHere fun c => { c with main := { c.main with mode := 4 } }) = .next t ∧
      (t.here.iss.srUsed == 1) = true) ∧
    (∃ t, exec (.vperm 0 1 2 3 0 0) work = .next t ∧ (t.here.iss.srUsed == 0) = true) := by
  refine ⟨by decide +kernel, by decide +kernel, reaches_spec (p := fun t => t.here.iss.srUsed == 1) (by decide +kernel),
    reaches_spec (p := fun t => t.here.iss.srUsed == 0) (by decide +kernel)⟩

/-! Loads and stores at both ends of the scratchpads. -/

/-- A base register at the last doubleword, and at the last line, of each scratchpad. -/
def atEnds : State := withS work [(1, 0x7FFFF8), (2, 0x7FFFC0), (3, 0xFFFFF8), (4, 0xFFFFC0), (5, 0x7FFFFF), (6, 0x7FFFFE),
  (7, 0x7FFFFC), (8, 0xFFFFFC), (9, 0x800000), (10, 1), (11, 0xFFFFFFFFFFFFFFFF), (12, 0x1000000)]

theorem meets_LoadAndStoreWords :
    admitted false (effective (atEnds.reg 5) 0 1) 1 = true ∧ admitted false (effective (atEnds.reg 6) 0 2) 2 = true ∧
    admitted false (effective (atEnds.reg 7) 0 4) 4 = true ∧ admitted false (effective (atEnds.reg 1) 0 8) 8 = true ∧
    admitted false (effective (atEnds.reg 2) 0 64) 64 = true ∧ admitted true (effective (atEnds.reg 8) 0 4) 4 = true ∧
    admitted true (effective (atEnds.reg 3) 0 8) 8 = true ∧ admitted true (effective (atEnds.reg 4) 0 64) 64 = true ∧
    atEnds.here.buffered < 64 ∧ atEnds.here.inHandler = false ∧
    badOffset (atEnds.offsets 0 2 1 1) = none ∧ badOffset (atEnds.offsets 0 0 0 0) = none := by decide +kernel

theorem meets_UnadmittedAccessesTrap :
    accessOf (.ldB 1 11 1 0) = some (false, 1, 11, 0) ∧ (atEnds.reg 11).toInt + (0#6).toInt * 1 < 0 ∧
    accessOf (.stB 1 9 0) = some (false, 1, 9, 0) ∧ (8 * 2 ^ 20 : Int) < (atEnds.reg 9).toInt + (0#6).toInt * 1 + 1 ∧
    accessOf (.kldW 1 12 1 0) = some (true, 4, 12, 0) ∧ (16 * 2 ^ 20 : Int) < (atEnds.reg 12).toInt + (0#6).toInt * 4 + 4 ∧
    accessOf (.vld 0 1 10 2 0) = some (false, 64, 10, 0) ∧ ((atEnds.reg 10).toInt + (0#6).toInt * 64) % 64 ≠ 0 ∧
    atEnds.here.inHandler = false := by
  and_intros <;> decide +kernel

theorem meets_LoadsSeeTheStoresBeforeThem :
    accessOf (.stD 12 1 0) = some (false, 8, 1, 0) ∧ accessOf (.kvst 1 2 4 0) = some (true, 64, 4, 0) ∧
    atEnds.here.inHandler = false ∧
    admitted false (effective (atEnds.reg 1) 0 8) 8 = true ∧ admitted true (effective (atEnds.reg 4) 0 64) 64 = true ∧
    Memory.wf (atEnds.pad 0 false) = true ∧ Memory.wf (atEnds.pad 0 true) = true ∧
    (∃ t, exec (.stD 12 1 0) atEnds = .next t ∧ (t.ownRead false 0x7FFFF8 8 == [0, 0, 0, 1, 0, 0, 0, 0]) = true) ∧
    (∃ t, exec (.kvst 1 2 4 0) atEnds = .next t ∧ (t.here.iss.mark == .done) = true) := by
  and_intros <;> first
    | decide +kernel
    | exact reaches_spec (p := fun t => t.ownRead false 0x7FFFF8 8 == [0, 0, 0, 1, 0, 0, 0, 0]) (by decide +kernel)
    | exact reaches_spec (p := fun t => t.here.iss.mark == .done) (by decide +kernel)

/-! Control. -/

/-- A core at a code page of one word, with register values around the end of the code range. -/
noncomputable def atCode (w : Nat) : State :=
  withS (State.reset.withFetchWord 32 w) [(1, 1), (2, 3), (3, 1024), (4, 1023), (5, 1022), (6, 0)]

theorem meets_branchWords :
    (atCode 0).guarded 0 false = true ∧ (atCode 0).guarded 1 true = true ∧ (atCode 0).guarded 1 false = false ∧
    (atCode 0).guarded 0 true = false ∧
    (atCode 0).here.codeWords ≤ ((atCode 0).reg 3).toNat ∧ ((atCode 0).reg 2).toNat % 3 = 0 ∧
    ((atCode 0).reg 5).toNat < (atCode 0).here.codeWords ∧ ((atCode 0).reg 5).toNat % 3 ≠ 0 := by decide +kernel

theorem meets_maskBranches :
    work.here.inHandler = false ∧ work.mask 0 = BitVec.allOnes 64 ∧ work.mask 1 = 0 ∧
    ((work.onHere fun c => { c with k := c.k.set 2 1 }).mask 2 ≠ BitVec.allOnes 64) ∧
    ((work.onHere fun c => { c with k := c.k.set 2 1 }).mask 2 ≠ 0) := by decide +kernel

/-- A loop whose one body bundle is a NOP. -/
noncomputable def atLoop : State := (atCode 0x00E00001).onHere fun c =>
  { c with iss := { c.iss with start := 0, last := 0, word := 0, npc := 1 } }

theorem meets_loopWords :
    atLoop.here.handlerMode = false ∧ atLoop.here.loop.active = false ∧ (atLoop.reg 1).setWidth 32 ≠ (0 : W32) ∧
    (atLoop.reg 6).setWidth 32 = (0 : W32) ∧ atLoop.codeValid atLoop.here = true ∧
    (atLoop.skipBundles atLoop.here (atLoop.here.codeWords + 1 - 1) 1 1).2 = true ∧
    (inTrap atLoop).here.handlerMode = true ∧
    (atLoop.onHere fun c => { c with loop := { c.loop with active := true } }).here.loop.active = true ∧ atLoop.cur = 0 := by
  decide +kernel

/-- A bucket table at word 3 with one bucket of bound 8 and displacement 1, for lanes of eight bits. -/
noncomputable def atTable : State :=
  withS (State.reset.withWords [0x01000001, 0, 0, 1, 8, 1]) [(1, 8), (2, 9), (3, 0xFFFFFFFFFFFFFFFF)]

theorem meets_bucketSelectionCompletes :
    atTable.here.inHandler = false ∧ atTable.codeValid atTable.here = true ∧
    ((atTable.here.iss.word / 3 : Nat) : Int) + (1#11).toInt = (1 : Nat) ∧
    (match atTable.codeWord atTable.here 6 3 with | .ok h => h == 1#32 | .error _ => false) = true ∧
    fieldOf (1#32) 10 22 = 0 ∧ fieldOf (1#32) 0 8 ≠ 0 ∧
    (match atTable.searchTable atTable.here 1 8 1 0 none with | .hit _ _ _ => true | _ => false) = true ∧
    (match atTable.searchTable atTable.here 1 9 1 0 none with | .miss _ => true | _ => false) = true := by decide +kernel

theorem meets_controlRegisterWords :
    work.here.mayRead 0x000 = true ∧ work.here.openWindow (.creg false 0x000) = false ∧
    (work.onHere fun c => { c.land (.creg false 0) 2 5 with cycle := 1 }).here.openWindow (.creg false 0x000) = true ∧
    work.here.mayRead 0x0F0 = false ∧ work.here.mayWrite 0x000 = true ∧ work.here.mayWrite 0x004 = false := by
  decide +kernel

theorem meets_trapAndReturnWords :
    work.here.handlerMode = false ∧ (inTrap work).here.handlerMode = true ∧ (inTrap work).here.inHandler = false ∧
    (inTrap work).here.main.hmode = true ∧ work.here.main.hmode = false ∧ (inHand work).here.inHandler = true ∧
    work.here.inHandler = false := by decide +kernel

theorem meets_traceWords :
    (30#5).toNat ≠ 31 ∧ (work.here.handlerMode = true → (30#5).toNat ≠ 15) ∧
    flagOf (work.onHere fun c => { c with trace := { c.trace with ctl := 3 } }).here.trace.ctl 0 = true ∧
    work.here.trace.stat.getLsbD 1 = false ∧ flagOf work.here.trace.ctl 0 = false ∧
    (work.onHere fun c => { c with trace := { c.trace with stat := 2 } }).here.trace.stat.getLsbD 1 = true := by
  decide +kernel

theorem meets_TrapEntrySavesTheCause :
    work.here.entryBank = some false ∧
    ((inTrap work).onHere fun c => { c with main := { c.main with tack := true } }).here.entryBank = some true ∧
    (inTrap work).here.entryBank = none := by decide +kernel

theorem meets_SecondTrapNeedsAcknowledgement :
    let c := Core.reset
    let trap := { c with main := { c.main with hmode := true } }
    let hand := { c with inHandler := true, hand := { c.hand with bank1 := { c.hand.bank1 with v := true } } }
    (c.inHandler = false ∧ c.main.hmode = false) ∧ (({ c with inHandler := true }).hand.bank1.v = false) ∧
    (trap.inHandler = false ∧ trap.main.hmode = true ∧ trap.ctx.bank2.v = false ∧ trap.ctx.tack = false) ∧
    (hand.inHandler = true ∧ hand.hand.bank1.v = true ∧ hand.ctx.bank2.v = false) ∧
    ({ trap with main := { trap.main with tack := true } }).ctx.tack = true ∧
    ({ trap with main := { trap.main with bank2 := { Bank.reset with v := true } } }).ctx.bank2.v = true := by decide

/-- At the first and at the second level of trap-handler mode. -/
theorem meets_ReturnRestoresTheLevel :
    (inTrap work).here.inHandler = false ∧ (inTrap work).here.main.hmode = true ∧
    (∃ t, exec .rett (inTrap work) = .next t ∧ (t.here.main.bank2.v == false) = true) ∧
    (inTrap work).here.main.bank2.v = false ∧
    ((inTrap work).onHere fun c => { c with main := { c.main with bank2 := { Bank.reset with v := true } } }).here.main.bank2.v =
      true := by
  refine ⟨?_, ?_, reaches_spec (p := fun t => t.here.main.bank2.v == false) (by decide +kernel), ?_, ?_⟩ <;> decide +kernel

/-! Bindings, strands, groups. -/

/-- A translation with a property of its binding and of the state that it leaves. -/
def translates (s : State) (va len : Nat) (need : BitVec 9) (plain : Bool) (p : State → Bound → Bool) : Bool :=
  match s.translate va len need plain with
  | .ok u x => p u x
  | .stop _ => false

theorem translates_spec {s : State} {va len : Nat} {need : BitVec 9} {plain : Bool} {p : State → Bound → Bool}
    (h : translates s va len need plain p = true) : ∃ u x, s.translate va len need plain = .ok u x ∧ p u x = true := by
  unfold translates at h
  split at h
  · exact ⟨_, _, by assumption, h⟩
  · cases h

/-- A binding with a property. -/
def bindsTo (s : State) (va len : Nat) (need : BitVec 9) (plain : Bool) (p : Bound → State → Bool) : Bool :=
  translates s va len need plain fun t b => match t.acquireAll [b] with | some u => p b u | none => false

theorem bindsTo_spec {s : State} {va len : Nat} {need : BitVec 9} {plain : Bool} {p : Bound → State → Bool}
    (h : bindsTo s va len need plain p = true) : ∃ b u, s.binds va len need plain b u ∧ p b u = true := by
  obtain ⟨t, b, h1, h2⟩ := translates_spec h
  split at h2
  · exact ⟨b, _, ⟨t, h1, by assumption⟩, h2⟩
  · cases h2

/-- Registers with addresses of the three ranges, queue numbers and times. -/
def atUnits : State := withS work [(1, 0x40000), (2, 0x10000), (3, 7), (4, 64), (5, 0x4FFC0), (6, 0x1FFF8), (7, 0x40008)]

theorem meets_LeavingWords :
    atUnits.here.handlerMode = false ∧ (atUnits.reg 3).toNat < 8 ∧ (atUnits.reg 5).toNat % 64 = 0 ∧
    (∃ b u, atUnits.binds 0x4FFC0 64 permS false b u ∧ (b.rid == 2) = true) ∧ (inTrap atUnits).here.handlerMode = true ∧
    (inTrap atUnits).here.inHandler = false ∧ (inTrap atUnits).here.main.hmode = true := by
  refine ⟨?_, ?_, ?_, bindsTo_spec (p := fun b _ => b.rid == 2) (by decide +kernel), ?_, ?_, ?_⟩ <;> decide +kernel

theorem meets_PostAndDigestWords :
    atUnits.here.buffered < 64 ∧ blockOffset (atUnits.reg 4) = true ∧
    (∃ u x, atUnits.translate (atUnits.reg 2).toNat 0 0 false = .ok u x ∧
      (blockOffset (u.reg 4) && !u.badAt u.cur false (u.reg 4).toNat 64 && decide (u.here.buffered < 64)) = true) ∧
    atUnits.here.inHandler = false ∧ (State.reset.statusBlock 0 == none) = true ∧
    ((atUnits.statusBlock 1).map (·.folds)) = some [] ∧
    (((atUnits.onStatus 1 fun k => { k with folds := [{ id := 1, units := none }] }).statusBlock 1).map (·.folds)) ≠ some [] := by
  refine ⟨?_, ?_, translates_spec (p := fun u _ => blockOffset (u.reg 4) &&
    !u.badAt u.cur false (u.reg 4).toNat 64 && decide (u.here.buffered < 64)) (by decide +kernel), ?_, ?_, ?_, ?_⟩ <;> decide +kernel

/-- Groups with 3 members, with 2^32 - 1 and with none. -/
def atGroups : State :=
  withS (work.onHub fun h => { h with groups := [(1, { state := 1, inc := 2, memb := 3, outs := 5 }),
    (2, { state := 1, inc := 0, memb := 2 ^ 32 - 1, outs := 0 }), (65535, { state := 1, inc := 255, memb := 0, outs := 0 })] })
    [(1, 0x20001), (2, 2), (3, 0xFFFFFF), (4, 0xFFFFFFFF), (5, 0x100000000), (6, 0x30001), (7, 0xFFFF), (8, 0x10000)]

theorem meets_GroupWords :
    atGroups.here.buffered < 64 ∧ (atGroups.reg 4).toNat < 2 ^ 32 ∧ 2 ^ 32 ≤ (atGroups.reg 5).toNat ∧
    atGroups.hub.freeGroup (atGroups.hub.groups.length + 1) 1 = some 3 ∧
    atGroups.hub.checkGroup (atGroups.reg 1) = 0 ∧ atGroups.hub.checkGroup (atGroups.reg 2) = 0 ∧
    atGroups.hub.checkGroup (atGroups.reg 3) = 0 ∧ (atGroups.hub.group 1).memb < 2 ^ 32 - 1 ∧
    (atGroups.hub.group 2).memb = 2 ^ 32 - 1 ∧ 0 < (atGroups.hub.group 2).memb ∧ (atGroups.hub.group 2).memb < 2 ^ 32 ∧
    (atGroups.hub.group 65535).memb = 0 ∧ (atGroups.hub.group 1).outs < 2 ^ 56 ∧
    atGroups.hub.checkGroup (atGroups.reg 6) ≠ 0 ∧ (atGroups.reg 0).toNat = 0 ∧ 2 ^ 16 ≤ (atGroups.reg 8).toNat ∧
    0 < (atGroups.reg 7).toNat ∧ (atGroups.reg 7).toNat < 2 ^ 16 := by
  and_intros <;> decide +kernel

/-! Scheduling. -/

/-- Core 0 with another activity. -/
def doing (a : Activity) : State := work.onHere fun c => { c with act := a }

/-- A binding of the object at 0x40000. -/
def objectBound : Bound :=
  { rid := 2, version := 0, va := 0x40000, pa := 2 ^ 43, key := 0, perm := 8, woff := 0 }

/-- An idle core with a record in its local slot, and one with none. -/
def atPickup : State :=
  work.onHere fun c => { c with act := .idle, strand := none, slot := [{ firstRecord with rset := 1, dslot := 1, state := 0 }] }
def atNoWork : State :=
  (work.onHere fun c => { c with act := .idle, strand := none }).onHub fun h => { h with launch := some { someLaunch with det := true } }

/-- A POST that waits for its placement. -/
def posted (next : Bool) : State :=
  { work with ops := [{ id := 9, by_ := work.issuer, op := .post { firstRecord with rset := 1 } 0 3 next 0x10000 }] }

theorem meets_schedulingEvents :
    (atPickup.core 0).act = .idle ∧ (atPickup.core 0).inHandler = false ∧ atPickup.picksUp = true ∧
    ((atPickup.findWork 0).map fun w => decide (w.1.kind < 4) && decide (w.1.state < 8)) = some true ∧
    (atPickup.hub.launch).isSome = true ∧ (atNoWork.core 0).act = .idle ∧ atNoWork.picksUp = true ∧
    (atNoWork.findWork 0).isNone = true ∧
    (doing (.pinned .woken)).wakes 0 = true ∧ (doing (.pinned (.pinT 0))).wakes 0 = true ∧
    ((doing (.pinned .woken)).core 0).strand.isSome = true ∧
    (∀ a ∈ [Activity.leaving .pinM, .leaving (.pinQ 7), .leaving (.pinT 5), .leaving (.pinB objectBound 31),
        .leaving (.barrier objectBound 65535 7), .leaving (.queue 7 7), .leaving .ended, .leaving .susp],
      let c := (doing a).core 0
      c.act = a ∧ c.landings = [] ∧ c.requests = [] ∧ c.held = none ∧ c.mat.drained = true) ∧
    ((doing (.leaving .susp)).handBack 0).2.isSome = true ∧
    (∀ next, ((posted next).findOp 9).isSome = true ∧ ((posted next).dropOp 9).freeBlock = some 0 ∧
      ((posted next).makeRunnable firstRecord 0 0).hasRoom = true) ∧
    ((posted false).onHub fun h => { h with launch := some { someLaunch with statusSize := 0 } }).freeBlock = none := by
  and_intros <;> decide +kernel

/-- A result that is due, a trap that is asked for, a handler start, and timers that have run out. -/
def atLanding : State := work.onHere fun c => c.land (.s 3) 2 5
def atHandler : State := work.onHere fun c => { c with starts := [(7, 0x8000)] }
def atTrap : State := work.onHere fun c => { c with requests := [aTrap] }
def atTimers : State := { work with time := 100000000 }.onHere fun c => { c with saveStart := some 0 }
def atWatchdog : State := { work with time := 100000000 }

theorem meets_coreEvents :
    (firstLanding (atLanding.core 0).landings).isSome = true ∧
    (atTrap.core 0).act = .running ∧ (atTrap.core 0).landings = [] ∧ (atTrap.core 0).held = none ∧
    bestRequest (atTrap.core 0).candidates = some aTrap ∧ (atTrap.core 0).cycle ≤ (atTrap.core 0).issueAt ∧
    (atHandler.core 0).canStart = true ∧ (atHandler.core 0).landings = [] ∧ (atHandler.core 0).starts = [(7, 0x8000)] ∧
    atWatchdog.wdDue 0 = true ∧ (atWatchdog.core 0).handlerMode = false ∧ (atWatchdog.core 0).isPinned = false ∧
    (atWatchdog.core 0).stuck = false ∧ (atWatchdog.core 0).full = false ∧ (atWatchdog.core 0).iss.mark = .done ∧
    (atWatchdog.core 0).suspending = false ∧
    (atTimers.core 0).saveStart = some 0 ∧ 0 + 1000 * (atTimers.core 0).wdSave.toNat ≤ atTimers.time := by
  and_intros <;> decide +kernel

/-! The matrix array: BF16 tiles of one line and more a row, rows 1,024 bytes apart. -/

def atTiles : State :=
  (withS work [(2, 0x1000000000), (4, 0x1000040000), (6, 0x1000050000), (8, 131), (9, 132)]).onHere fun c => { c with
    bfmt := List.replicate 16 2
    mat := { c.mat with viewClass := [some 3, none, none, none], viewLatch := [none, some (2, (shapeDims 1 2).1, (shapeDims 1 2).2.2), none, none] } }

/-- The NEST registers as they stand: one pass of one step. -/
def nestRegs : List W64 := (List.range 24).map fun i => atTiles.cregAt (0x100 + i)

theorem meets_MatrixWords :
    atTiles.here.inHandler = false ∧ (atTiles.here.mat.queued atTiles.here.cycle).length < 8 ∧
    atTiles.here.mat.queued atTiles.here.cycle = [] ∧ atTiles.here.buffered < 64 ∧
    atTiles.pairOk 2 = true ∧ atTiles.pairOk 4 = true ∧ atTiles.pairOk 30 = true ∧
    (∀ sh ∈ [0, 1], ∀ r ∈ [2, 4], let t := atTiles.tileOf r
      let d := shapeDims sh t.fmt
      accepted t.fmt = true ∧ t.mixed atTiles.bankFormats d.1 d.2.2 = false ∧ t.faulty d.1 d.2.2 = false ∧
      t.mixed atTiles.bankFormats d.2.1 d.2.2 = false ∧ t.faulty d.2.1 d.2.2 = false ∧ t.fmt = 2 ∧ isMx t.fmt = false ∧
      d.1 * d.2.2 * elemBits t.fmt ≤ 8 * 65536) ∧
    atTiles.here.mat.viewClass.getD 0 none = some (matClass 2) ∧
    atTiles.here.mat.viewLatch.getD 1 none = some (2, (shapeDims 1 2).1, (shapeDims 1 2).2.2) ∧
    nestSteps nestRegs = [(0, 0)] ∧ nestUndrained nestRegs = false ∧ nestPasses nestRegs = 1 ∧ nestUncleared nestRegs = false ∧
    (let c := (atTiles.tileOf 6).moved atTiles.bankFormats (nestOffset nestRegs 0 3)
     let x := (atTiles.tileOf 2).moved atTiles.bankFormats (stepOffset nestRegs 0 0 1)
     let y := (atTiles.tileOf 4).moved atTiles.bankFormats (stepOffset nestRegs 0 0 2)
     let d := shapeDims 1 y.fmt
     let n := classDim (nestClass atTiles.bankFormats (atTiles.tileOf 4) nestRegs 0)
     let mw := drainLimit (fieldOf atTiles.drainctl 8 8) n
     let nw := drainLimit (fieldOf atTiles.drainctl 16 8) n
     accepted c.fmt = true ∧ c.mixed atTiles.bankFormats mw nw = false ∧ isMx c.fmt = false ∧
     accepted x.fmt = true ∧ x.mixed atTiles.bankFormats d.1 d.2.2 = false ∧ accepted y.fmt = true ∧
     y.mixed atTiles.bankFormats d.2.1 d.2.2 = false ∧ x.fmt = y.fmt ∧
     matClass y.fmt = nestClass atTiles.bankFormats (atTiles.tileOf 4) nestRegs 0 ∧
     (∀ l ∈ List.range 6, nestCount nestRegs l ≠ 0 ∧
       ∀ k ∈ List.range 3, fieldOf (nestRegs.getD (4 * l + k + 1) 0) 0 6 = 0) ∧
     (atTiles.tileOf 2).nestFaulty atTiles.bankFormats (stepOffset nestRegs 0 0 1) d.1 d.2.2 = false ∧
     (atTiles.tileOf 4).nestFaulty atTiles.bankFormats (stepOffset nestRegs 0 0 2) d.2.1 d.2.2 = false ∧
     (atTiles.tileOf 6).nestFaulty atTiles.bankFormats (nestOffset nestRegs 0 3) mw nw = false) ∧
    (atTiles.reg 8).toNat ≤ 131 ∧ 131 < (atTiles.reg 9).toNat := by
  and_intros <;> decide +kernel

/-- The array with one queued operation, at a stage and pass of its work. -/
def queued (op : MatOp) (stage pass : Nat) : State :=
  atTiles.onHere fun c => { c with mat := { c.mat with
    stage := stage, pass := pass
    queue := [{ op := op, t0 := 0, mode := 0, osn := 0, src := 0, lidx := 0, pc := 0, handler := false }] } }

def tileA : TileRef := atTiles.tileOf 2
def tileB : TileRef := atTiles.tileOf 4
def tileC : TileRef := atTiles.tileOf 6
def aRec : StepRec := atTiles.stepRecord 1 (.tile tileA) tileB
def aStep : MatOp := .step 0 true aRec
def aNest : MatOp := .nest 1 0 tileA tileB tileC atTiles.drainctl 0 Matrix.nestReset atTiles.bankFormats
def aDrain : MatOp := .drain 0 tileC 0 0

/-- The array at the end of a part: operands that are being read, a drain that writes, an operation that has run. -/
def partOf (op : MatOp) (j : Option MatJob) (stage : Nat) (fin : Bool) : State :=
  (queued op stage 0).onHere fun c => { c with mat := { c.mat with job := j, fin := fin } }

/-- The headers of the operands of a step and of the tile of a latch raise nothing: these tiles carry none. -/
def headersPass (s : State) : Bool :=
  (s.stepHeaders 0 aRec).2.isNone &&
    ((s.mapRows 0).readHeader 0 tileA (shapeDims 1 tileA.fmt).1 (shapeDims 1 tileA.fmt).2.2).2.isNone

theorem meets_MatrixEvents :
    (∀ q ∈ [queued aStep 0 0, queued aNest 1 0, queued aNest 2 0, queued aNest 0 1, queued (.latch 3 1 tileA) 0 0,
        queued aDrain 0 0, queued (.clear 3) 0 0, queued (.row 131) 0 0],
      (q.frontOp 0).2.isSome = true ∧ ((q.frontOp 0).1.core 0).mat.ending = false) ∧
    (((queued aNest 1 0).frontOp 0).1.core 0).mat.stage = 1 ∧ (((queued aNest 2 0).frontOp 0).1.core 0).mat.stage = 2 ∧
    (((queued aNest 0 1).frontOp 0).1.core 0).mat.stage = 0 ∧ (((queued aNest 0 1).frontOp 0).1.core 0).mat.pass = 1 ∧
    ((queued aStep 0 0).core 0).mat.staleLatch aRec.a = none ∧
    headersPass (queued aStep 0 0) = true ∧
    (Matrix.firstFlags [{ due := 5, flags := 1, offer := none, pc := 0, handler := false }]).isSome = true ∧
    (let s := partOf aStep (some (.step 0 aRec [])) 0 false
     (s.core 0).stuck = false ∧ (s.core 0).mat.stage ≠ 3 ∧ (s.operandA 0 aRec).isSome = true ∧
     0 < (s.core 0).mat.sets.length ∧ (s.core 0).mat.queue.head?.isSome = true) ∧
    (let m := ((partOf (.latch 1 1 tileA) (some (.load 1 tileA 4 4 none)) 0 false).core 0).mat
     m.job = some (.load 1 tileA 4 4 none) ∧ 1 < m.latches.length) ∧
    (∀ op ∈ [aDrain, aNest], let m := ((partOf op none 4 false).core 0).mat
     m.job = none ∧ m.stage = 4 ∧ m.queue.head?.isSome = true) ∧
    (let m := ((partOf (.clear 3) none 0 true).core 0).mat
     m.job = none ∧ m.stage ≠ 4 ∧ m.fin = true) := by
  and_intros <;> decide +kernel

theorem meets_ClearedSetsAndMarkedRows :
    ({ AccSet.reset with cls := some 0 } : AccSet).cls = some 0 ∧ ({ AccSet.reset with cls := some 3 } : AccSet).cls = some 3 ∧
    0 < classDim 0 ∧ 127 < classDim 3 ∧ (Matrix.reset.row 131).1 ≠ 2 ∧
    ({ Matrix.reset with rows := [(0, (2, 0, 0, 0, false))] } : Matrix).row 0 = (2, 0, 0, 0, false) ∧ (131 : Nat) ≠ 0 := by
  decide

/-! Tag table and queues. -/

/-- Registers around the ends of the fields of the tag-table words. -/
def atTags : State := withS work [(1, 255), (2, 0xFFFFFFFFFFFF), (3, 11), (4, 0x40000000000000FF), (5, 0x8000000000000000), (6, 0xFFFFFFFFFFFF)]

/-- A cluster whose slot 7 holds the tag 5 in state 2, and an operation on it. -/
def tagOp (op : Op) : State :=
  { (work.onCluster 0 fun c => { c with tags := [(7, { tag := 5, state := 2, owner := 1 })] }) with
    ops := [{ id := 9, by_ := work.issuer, op := op }] }

theorem meets_TagTableWords :
    atTags.here.buffered < 64 ∧
    ((atTags.reg 2).toNat / 2 ^ 62 = 0 ∧ (atTags.reg 2).toNat % 2 ^ 62 < 2 ^ 48) ∧
    ((atTags.reg 4).toNat / 2 ^ 62 = 1 ∧ (atTags.reg 4).toNat % 2 ^ 62 < 256) ∧
    ((atTags.reg 5).toNat / 2 ^ 62 = 2 ∧ (atTags.reg 5).toNat % 2 ^ 62 = 0) ∧
    (atTags.reg 1).toNat < 256 ∧ (atTags.reg 6).toNat < 2 ^ 48 ∧ (atTags.reg 3).toNat < 16 ∧ (atTags.reg 3).toNat / 4 ≠ 3 ∧
    ((tagOp (.look 0 5)).findOp 9).isSome = true ∧ ((tagOp (.look 0 5)).cluster (clusterOf 0)).badSlots = [] ∧
    (let c := (tagOp (.look 0 5)).cluster (clusterOf 0)
     ((c.tag 7).state = 2 ∧ ∀ f ∈ c.tags, f.2.tag = 5 → f.2.state ≠ 0 → f.1 = 7) ∧
     ¬((c.tag 8).state = 0 ∧ ∀ f ∈ c.tags, f.2.tag = 5 → f.2.state ≠ 0 → f.1 = 8) ∧
     (c.tag 7).state ≠ 0 ∧ (c.tag 7).tag = 5) := by decide +kernel

/-- Core 0 with queue 7 open over sixteen entries at offset 0, and registers for the queue words. -/
def atQueue : State :=
  (withS work [(1, 7), (2, 0x367F), (3, 64), (4, 15), (5, 6), (6, 0x27F)]).onHere fun c =>
    (c.setQueue 7 { Queue.reset with desc := ((c.queue 7).write false 0).desc ||| 0x80000000#64 })

/-- With a message of one entry in the ring, with one in the overflow area only, and with a parked strand. -/
def withMessage : State := atQueue.onHere fun c => c.deliverMessage 7 [natToBytes 8 (messageHeader 5 0 0 false 1) ++ List.replicate 56 1] false
def withSpilled : State :=
  atQueue.onHere fun c => c.setQueue 7 { c.queue 7 with spilled := [[natToBytes 8 (messageHeader 5 0 0 false 1) ++ List.replicate 56 1]] }
def withParked : State :=
  atQueue.onHere fun c => c.setQueue 7 { c.queue 7 with waiter := some { record := firstRecord, dst := 1, since := 0, reported := false } }

def gets (s : State) (n : Nat) : Nat :=
  match s.tryGet 0 n with
  | .result _ _ => 0
  | .later => 1
  | .empty => 2

theorem meets_QueueWords :
    (atQueue.reg 2).toNat < 2 ^ 14 ∧ (atQueue.reg 2).toNat % 1024 ≤ 639 ∧ blockOffset (atQueue.reg 3) = true ∧
    atQueue.here.sends.length < 16 ∧ atQueue.here.seenFull (0x367F % 1024) (0x367F / 1024 % 8) = false ∧
    (atQueue.onHere fun c => { c with freeSeen := [(639 * 8 + 5, 0)] }).here.seenFull 639 5 = true ∧
    (atQueue.reg 1).toNat < 8 ∧ atQueue.here.buffered < 64 ∧
    gets withMessage 7 = 0 ∧ gets withSpilled 7 = 1 ∧ gets atQueue 7 = 2 ∧ gets withParked 7 = 2 ∧
    (withParked.here.queue 7).waiter.isSome = true ∧ (atQueue.here.queue 7).waiter = none ∧
    atQueue.here.handlerMode = false ∧ (7#5).toNat < 8 ∧ 8 ≤ (8#5).toNat ∧ (inTrap atQueue).here.handlerMode = true ∧
    8 ≤ (atQueue.reg 4).toNat ∧ (atQueue.reg 4).toNat < 16 ∧ atQueue.checks = false := by
  and_intros <;> decide +kernel

/-- A QPUT on its way to the open queue 7, and to queue 0, which is closed and has no overflow area. -/
def putOp (q : Nat) : State :=
  { atQueue with ops := [{ id := 9, by_ := work.issuer, op := .put 0 q false 5 64 (some (List.replicate 64 2)) }] }
def putArea : State := (putOp 0).onHub fun h => { h with launch := some { someLaunch with queueArea := 0 } }
def arrivalOf (s : State) (q : Nat) : Arrival :=
  (s.deliverTo 0 q [natToBytes 8 (messageHeader 5 0 0 false 1) ++ List.replicate 56 2] false).2

def aMessage : Message := { core := 0, q := 7, entries := [], tag := none, remote := false }

theorem meets_QueueEvents :
    ((putOp 7).findOp 9).isSome = true ∧ arrivalOf (putOp 7) 7 = .delivered ∧ arrivalOf (putOp 0) 0 = .appended ∧
    arrivalOf putArea 0 = .refused ∧
    ({ atQueue with ops := [{ id := 9, by_ := work.issuer, op := .ack (some (5, 3)) (some 1) }] } : State).findOp 9 =
      some { id := 9, by_ := work.issuer, op := .ack (some (5, 3)) (some 1) } ∧
    ({ atQueue with ops := [{ id := 9, by_ := work.issuer, op := .message aMessage }] } : State).findOp 9 =
      some { id := 9, by_ := work.issuer, op := .message aMessage } := by
  and_intros <;> decide +kernel

/-! Transfers: 64 bytes of FP64 from the data range to offset 0x1000 of the cluster scratchpad, with a barrier. -/

def aRecord : List Byte :=
  [0x10000, 2 ^ 63 + 0x1000, 2 ^ 48 + 8, 2 ^ 32 * 64 + 64, 0, 0x40000, 0, 0].flatMap (natToBytes 8)
def atRecord : State :=
  (withS work [(1, 128), (2, 192), (3, 0x8000000000000000), (4, 0xFFFF)]).onHere fun c =>
    { c with scratch := Memory.write (Memory.write [] 128 aRecord) 192 (List.replicate 64 0xFF#8) }
def aDws (s : State) (o : Nat) : List Nat := (chunksOf 8 (s.ownRead false o 64)).map bytesToNat
def parsed (o : Nat) : Xfer := Xfer.parse (aDws atRecord o) atRecord.issuer atRecord.nextId atRecord.jkey

theorem meets_TransferWords :
    blockOffset (atRecord.reg 1) = true ∧ atRecord.badAt 0 false 128 64 = false ∧ atRecord.here.buffered < 64 ∧
    ((parsed 192).fieldChecks (aDws atRecord 192)).isSome = true ∧ (parsed 128).fieldChecks (aDws atRecord 128) = none ∧
    (match atRecord.sideForm 0 0x10000 0 false, atRecord.sideForm 2 0x1000 0 false with
      | .ok f, .ok g => f == (0, false) && g == (0, false)
      | _, _ => false) = true ∧
    (parsed 128).formChecks atRecord.bankFormats = none ∧
    ({ parsed 128 with sext := true, sfmt := 7 } : Xfer).formChecks atRecord.bankFormats ≠ none ∧
    atRecord.here.xfers.length < 64 ∧
    (match atRecord.bindXfer (parsed 128) 0x40000 with
      | .ok (t, z) => (t.acquireAll ([z.src, z.dst, z.bar].filterMap id)).isSome
      | .error _ => false) = true ∧
    (atRecord.reg 3).toNat / 2 ^ 16 % 2 ^ 47 = 0 ∧ atRecord.here.ownXfers = [] ∧ (atRecord.reg 4).toNat < 2 ^ 16 := by
  and_intros <;> decide +kernel

/-- A transfer in the cluster 0: 64 bytes between scratchpads, at several points of its life. -/
def aTransfer : Xfer := { parsed 128 with id := 5, ssp := 2, saddr := 0x2000 }
def moving (x : Xfer) : State := atRecord.onCluster 0 fun c => { c with xfers := [x] }
def aRun : EngineRun := { engine := 3, lo := 0, hi := 64, wrote := 0, reads := (0, 64), writes := (0, 0) }
def readAll : Xfer := { aTransfer with admitted := 1, runs := [aRun], parts := [(0, List.replicate 64 3)], opened := true }
def allDone : Xfer := { readAll with granted := [0], done := 64, runs := [] }
def extended : Xfer :=
  let x : Xfer := { readAll with sext := true, granted := [0] }
  { x with runs := [{ aRun with hi := x.srcBytes }], parts := [(0, List.replicate x.srcBytes 3)] }
/-- The transfer with a destination in a V range, where the shadow area has no room. -/
def toVersioned : Xfer :=
  { readAll with dsp := 0, daddr := 0x10000, dst := some { dataRange.bind 0x10000 with perm := 0b000100011#9 } }
def noShadow : State := (moving toVersioned).onHub fun h => { h with launch := some { someLaunch with shadow := 0 } }
def unreadable : Xfer := { readAll with unread := [(0, 64)] }

/-- The one run of a transfer whose first block is all read can finish it. -/
def finishes (s : State) (x : Xfer) : Bool :=
  s.finishers 0 x == [aRun] && x.opened && decide (x.goal aRun ≤ x.reached aRun) &&
    x.current aRun == some 0 && x.headerStatus == 0

theorem meets_TransferEvents :
    (((moving aTransfer).cluster 0).xfer 5).isSome = true ∧ ((moving aTransfer).cluster 0).admits aTransfer = true ∧
    finishes (moving readAll) readAll = true ∧ readAll.blind (readAll.blockNeed 0) = false ∧ readAll.reread = false ∧
    finishes (moving unreadable) unreadable = true ∧ unreadable.blind (unreadable.blockNeed 0) = true ∧
    ((moving readAll).writePieces readAll ((readAll.blockPieces 0).drop 0).flatten).2 = .ok ∧ finishes noShadow toVersioned = true ∧
    (noShadow.writePieces toVersioned ((toVersioned.blockPieces 0).drop 0).flatten).2 ≠ .ok ∧
    (moving allDone).canEnd allDone = true ∧ allDone.status = 0 ∧ allDone.cancelled = false ∧ extended.toVerify = true ∧
    extended.blind (extended.srcRow extended.rows, extended.srcBytes) = false ∧ extended.passes = false ∧ extended.subst = false ∧
    (let x : Xfer := { aTransfer with cancelled := true }
     (moving x).canEnd x = true) ∧
    (let x : Xfer := { readAll with status := 0x5F }
     (moving x).canEnd x = true) ∧
    (7 : Nat) < 8 ∧
    (((moving readAll).cluster 0).xfers.find? fun x => (x.runOn 3).isSome) = some readAll ∧
    (((moving { readAll with status := 0x5F }).cluster 0).xfers.find? fun x => (x.runOn 3).isSome) =
      some { readAll with status := 0x5F } ∧
    (((moving readAll).cluster 0).xfers.find? fun x => (x.runOn 7).isSome) = none := by
  and_intros <;> decide +kernel

/-! Synchronisation. -/

/-- Registers for a barrier address, an atomic address and operands at the ends of their fields. -/
def atSync : State := withS work [(1, 0x40000), (2, 0x40008), (3, 0x80000000FFFFFFFF), (4, 0xFFFFFFFF), (5, 0xFFFF)]

theorem meets_SynchronisationWords :
    (atSync.reg 1).toNat % 64 = 0 ∧
    (∃ x u, atSync.binds (atSync.reg 1).toNat 64 permS false x u ∧ (!u.here.handlerMode) = true) ∧
    (∃ x u, (inTrap atSync).binds (atSync.reg 1).toNat 64 permS false x u ∧ u.here.handlerMode = true) ∧
    (atSync.reg 3).toNat / 2 ^ 32 % 2 ^ 31 = 0 ∧ (atSync.reg 4).toNat < 2 ^ 32 ∧ (atSync.reg 5).toNat < 2 ^ 16 ∧
    (atSync.reg 2).toNat % 8 = 0 ∧
    (∃ x u, atSync.binds (atSync.reg 2).toNat 8 permS false x u ∧ decide (u.here.buffered < 64) = true) ∧
    (30 : BitVec 5) ≠ 31 ∧ (inTrap atSync).here.handlerMode = true ∧ (14 : BitVec 5) ≠ 15 := by
  and_intros <;> first
    | decide +kernel
    | exact bindsTo_spec (p := fun _ u => !u.here.handlerMode) (by decide +kernel)
    | exact bindsTo_spec (p := fun _ u => u.here.handlerMode) (by decide +kernel)
    | exact bindsTo_spec (p := fun _ u => decide (u.here.buffered < 64)) (by decide +kernel)

/-- An operation on object 63 of die 7, which the engine's cache holds. -/
def syncOp (op : Op) : State :=
  { (work.onDie 7 fun d => { d with cache := [63] }) with ops := [{ id := 9, by_ := work.issuer, op := op }] }

theorem meets_SynchronisationEvents :
    (∀ op ∈ [Op.sync 7 63 .arrive (some objectBound), .fabricArrive 7 63 none, .decrement 7 63 (some 64) 5 none],
      ((syncOp op).findOp 9).map (·.op) = some op) ∧
    ((syncOp (.fabricArrive 7 63 none)).die 7).stopped = false ∧
    ((syncOp (.fabricArrive 7 63 none)).die 7).cache.contains 63 = true ∧
    work.poisoned (64 * work.objectBlock 7 63) 64 = false ∧ (7 : Nat) < 8 := by decide +kernel

/-- The hypotheses at both kinds of operation: AFIX on the last cell, and a compare and swap on the first one. -/
theorem meets_AtomicsActOnTheirCell :
    (∀ kind ∈ [SyncKind.atomic 4 7 5, .atomic 0 0 1, .cas 0 0 1],
      ((syncOp (.sync 7 63 kind none)).findOp 9).map (·.op) = some (.sync 7 63 kind none) ∧
      ((syncOp (.sync 7 63 kind none)).die 7).stopped = false ∧
      ((syncOp (.sync 7 63 kind none)).die 7).cache.contains 63 = true ∧
      ((syncOp (.sync 7 63 kind none)).object 7 63).barrier = false ∧
      ((syncOp (.sync 7 63 kind none)).object 7 63).cells.length = 8) ∧ (7 : Nat) < 8 ∧ 5 ≤ 5 := by decide +kernel

/-! The lintel. -/

/-- Registers: a tag, a queue destination, a memory destination, a tile of two lines, a malformed tag. -/
def atMeet : State := withS work [(1, 5), (2, 0x1E7F), (3, 0x8000000000010000), (4, 0x2000007FF000), (5, 0x10000), (6, 0x200000000)]

/-- An operation of core 0 under way with number 9. -/
def atWork (op : Op) : State := { work with ops := [{ id := 9, by_ := work.issuer, op := op }] }

theorem meets_MeetWords :
    atMeet.here.buffered < 64 ∧ atMeet.hub.freeTag (atMeet.hub.tags.length + 1) 0 = some 0 ∧
    tagForm (atMeet.reg 1) = true ∧ (9#4).toNat < 10 ∧ meetDestForm (atMeet.reg 2) = true ∧ meetDestForm (atMeet.reg 3) = true ∧
    (atMeet.reg 2).toNat < 2 ^ 63 ∧ 2 ^ 63 ≤ (atMeet.reg 3).toNat ∧ atMeet.here.sends.length < 16 ∧
    (∃ y u, atMeet.binds ((atMeet.reg 3).toNat % 2 ^ 48) (64 * resultLines 9 2) (permW ||| permM) true y u ∧
      (!y.versioned && !u.here.inHandler && decide (u.here.sends.length < 16)) = true) ∧
    atMeet.here.inHandler = false ∧ meetTileForm (atMeet.reg 6) = true ∧ suits 9 0 = true ∧ suits 2 1 = true ∧
    oneFormat atMeet.bankFormats 0 128 = true ∧ (atWork .tagAsk).findOp 9 = some { id := 9, by_ := work.issuer, op := .tagAsk } ∧
    (atWork .tagAsk).hub.freeTag ((atWork .tagAsk).hub.tags.length + 1) 0 = some 0 ∧
    Hub.freeTag { Hub.reset with tags := [(65535, (.allocated, 0))] } 2 65535 = none ∧
    (atWork (.tagOpen 5 1)).findOp 9 = some { id := 9, by_ := work.issuer, op := .tagOpen 5 1 } := by
  and_intros <;> first
    | decide +kernel
    | exact bindsTo_spec (p := fun y u => !y.versioned && !u.here.inHandler && decide (u.here.sends.length < 16))
        (by decide +kernel)

/-- An operand for the tag 5, plain, and the node of its tag with the tag open, empty or holding a partner. -/
def operandOf (cop : Nat) : Operand :=
  { id := 9, by_ := work.issuer, tag := 5, cop := cop, ts := false, ext := false, fmt := 0, bytes := List.replicate 64 1
    dest := .queue 0 7 false, rq := 7, time := 0 }
def meetOp (o : Operand) (e : DirEntry) : State :=
  { (work.setNode (homeNode 5) { Node.reset with dir := [(5, e)] }) with
    ops := [{ id := 9, by_ := work.issuer, op := .meet o none }] }
def openTag : DirEntry := { isOpen := true, inc := 0, held := none, tomb := false }
def partner (cop : Nat) : DirEntry := { openTag with held := some (false, 0, operandOf cop) }

theorem meets_MeetEvents :
    ((meetOp (operandOf 2) openTag).findOp 9).isSome = true ∧
    ((meetOp (operandOf 2) openTag).node (homeNode 5)).stopped = false ∧ tagNumber (operandOf 2).tag = 5 ∧ (159 : Nat) < 160 ∧
    (work.node 159).offers = [] ∧
    (let m : Message := { core := 0, q := 7, entries := [], tag := none, remote := false }
     let s := fun due => work.setNode 159 { Node.reset with offers := [(due, m)] }
     ((s 0).node 159).offers = [(0, m)] ∧ 0 ≤ (s 0).time ∧ ((s 1).node 159).offers = [(1, m)] ∧ (s 1).time < 1) := by
  decide +kernel

theorem meets_OperandsMeetInPairs :
    ((meetOp (operandOf 2) openTag).findOp 9).isSome = true ∧ tagNumber (operandOf 2).tag = 5 ∧
    ((meetOp (operandOf 2) openTag).node (homeNode 5)).stopped = false ∧
    openTag.admits 5 = true ∧ ({ openTag with isOpen := false } : DirEntry).admits 5 = false ∧ openTag.admits 0x1000005 = false ∧
    (operandOf 2).ext = false ∧ openTag.tomb = false ∧ openTag.held = none ∧ (Node.reset.freeSlot).isSome = true ∧
    (operandOf 2).matches (operandOf 2) = true ∧ (operandOf 2).matches (operandOf 3) = false ∧
    (combineOperands 0 (leftRight (operandOf 2) (operandOf 2)).1 (leftRight (operandOf 2) (operandOf 2)).2).isSome = true := by
  and_intros <;> decide +kernel

/-! Ranges. -/

/-- Registers: an address of the data range, the largest one, an address past 48 bits, a split point, an attribute word. -/
def atRange : State := withS work [(1, 0x10000), (2, 0xFFFFFFFFFFFF), (3, 0x14000), (4, 7), (5, 8), (6, 1)]

def steps (s : State) (set va : Nat) (w : RangeWord) : Nat :=
  match s.rangeStep 9 s.issuer set va w with
  | .applied _ _ => 0
  | .failed _ => 1
  | .waits => 2

/-- An update of the data range is under way. -/
def updating : State :=
  { atRange with ops := [{ id := 8, by_ := work.issuer, op := .range { set := 1, old := [dataRange], made := [], freed := [], move := false } }] }

theorem meets_RangeWords :
    (atRange.reg 1).toNat < 2 ^ 48 ∧ (atRange.reg 2).toNat < 2 ^ 48 ∧ atRange.wantedSet = 1 ∧ atRange.here.buffered < 64 ∧
    steps atRange 1 0x10000 .remove = 0 ∧ steps atRange 1 0xFFFFFFFFFFFF .remove = 1 ∧ steps updating 1 0x10000 .remove = 2 ∧
    steps atRange 1 0x10000 (.split 0x14000) = 0 ∧ steps atRange 1 0x10000 (.split 0x14001) = 1 ∧
    steps updating 1 0x10000 (.split 0x14000) = 2 ∧ (atRange.reg 4).toNat < 8 ∧ 8 ≤ (atRange.reg 5).toNat ∧
    updating.rangesPending 0 false 9 = true ∧ atRange.rangesPending 0 false 9 = false := by
  and_intros <;> decide +kernel

/-- A move of the data range. -/
def aMove : Move :=
  { id := 8, by_ := work.issuer, set := 1, rid := 1, version := 0, poff := 0x200000, source := 0x110000, base := 0x210000
    mark := none, aborted := false }
def movingRange : State := work.onHub fun h => { h with moves := [aMove] }
/-- A request for the first step of an update that is locked out. -/
def asking : State :=
  { updating with ops := updating.ops ++ [{ id := 9, by_ := work.issuer, op := .rangeAsk 1 0x10000 .remove }] }

theorem meets_RangeEvents :
    (updating.findOp 8).isSome = true ∧ (∀ c ∈ updating.clusters, ∀ d ∈ [dataRange], c.2.count (d.rid, d.version) = 0) ∧
    (∃ c ∈ (updating.onCluster 0 fun c => c.setCount (1, 0) 2).clusters, ∃ d ∈ [dataRange], c.2.count (d.rid, d.version) ≠ 0) ∧
    (asking.findOp 9).isSome = true ∧
    (match (asking.abortMove 1 0x10000 .remove).rangeStep 9 work.issuer 1 0x10000 .remove with | .waits => true | _ => false) =
      true ∧
    (work.core 0).tableSet = some 1 ∧ work.lockedAt 1 0x10000 = false ∧
    descAt ((Sparse.get? work.hub.dir 1).getD []) 0x1FFFF = some dataRange ∧
    descAt ((Sparse.get? work.hub.dir 1).getD []) 0x20000 = none ∧
    (work.hub.dir.flatMap (·.2)).find? (fun d => d.rid == someLaunch.coderid) = some codeRange ∧
    work.lockedRid codeRange.rid = false ∧
    (movingRange.hub.set_ 1).find? (fun d => d.rid == 1) = some dataRange ∧ movingRange.updates.any (·.move) = false ∧
    aMove.aborted = false ∧ aMove.mark.getD 0 < dataRange.rlimit - dataRange.rbase ∧
    dataRange.rlimit - dataRange.rbase ≤ ({ aMove with mark := some 0x10000 } : Move).mark.getD 0 := by
  and_intros <;> first
    | decide +kernel
    | exact ⟨(0, _), List.mem_cons_self, dataRange, List.mem_cons_self, by decide +kernel⟩

/-! The fabric: a pod of 4 by 4 by 2 packages, of which this one is the first. -/

def inPod (s : State) : State :=
  { s with fabric := { Fabric.reset with ex := 4, ey := 4, ez := 2 }, hub := { s.hub with hid := 0 } }

/-- FPUT and FGET records: 64 bytes from or to offset 0x1000 of the cluster scratchpad, package 1, range 1; and a malformed
one. -/
def fabRecord (op : Nat) : List Byte :=
  [2 ^ 63 + 0x1000, 2 ^ 53 + 1, 0, 2 ^ 32 * op + 64, 0x40000, 0, 0, 0].flatMap (natToBytes 8)
def atFabric : State :=
  (withS (inPod work) [(1, 128), (2, 192), (3, 1), (4, 0x40000), (5, 0xC1), (6, 0xB1), (7, 2), (8, 3)]).onHere fun c =>
    { c with scratch := Memory.write (Memory.write [] 128 (fabRecord 0)) 192 (fabRecord 7) }

def bindsRemote (s : State) (r : FabRecord) (need : BitVec 9) : Bool :=
  match s.bindSide r.lsp r.laddr r.len need with
  | .ok (t, x) => match t.bindBarrier r.bar with
    | .ok (u, b) => (u.acquireAll ([x, b].filterMap id)).isSome
    | .error _ => false
  | .error _ => false

theorem meets_FabricWords :
    blockOffset (atFabric.reg 1) = true ∧ atFabric.here.sends.length < 16 ∧ atFabric.badAt 0 false 128 64 = false ∧
    atFabric.malformed (FabRecord.parse (atFabric.ownRead false 192 64)) false = true ∧
    atFabric.malformed (FabRecord.parse (atFabric.ownRead false 192 64)) true = true ∧
    atFabric.malformed (FabRecord.parse (atFabric.ownRead false 128 64)) false = false ∧
    atFabric.malformed (FabRecord.parse (atFabric.ownRead false 128 64)) true = false ∧
    bindsRemote atFabric (FabRecord.parse (atFabric.ownRead false 128 64)) permR = true ∧
    atFabric.hub.launch = some someLaunch ∧ someLaunch.collectives.length < 64 ∧ someLaunch.ident = work.issuer.launch ∧
    (atWork (.cpost 64 [])).findOp 9 = some { id := 9, by_ := work.issuer, op := .cpost 64 [] } ∧
    ([] : List Byte).length < imageBytes 64 ∧ imageBytes 0x7FFF80 ≤ (List.replicate 128 (0 : Byte)).length ∧
    (atWork (.fbar 1 0 none)).findOp 9 = some { id := 9, by_ := work.issuer, op := .fbar 1 0 none } ∧
    64 ≤ ({ someLaunch with collectives := List.replicate 64 [] } : Launch).collectives.length ∧
    ((atFabric.reg 3).toNat < 2 ^ 24 ∧ (atFabric.reg 3).toNat % 65536 ≠ 0) ∧
    atFabric.fabric.boxFits 0x800 atFabric.hub.index = true ∧ (atFabric.acquireAll []).isSome = true ∧
    (atFabric.reg 4).toNat ≠ 0 ∧ (atFabric.reg 4).toNat % 64 = 0 ∧
    (∃ x u, atFabric.binds (atFabric.reg 4).toNat 64 permS false x u ∧
      (u.fabric.boxFits 0x800 u.hub.index && decide (u.here.sends.length < 16)) = true) ∧
    (atFabric.reg 0).toNat % 16 = 0 ∧ ((atFabric.reg 6).toNat % 16 = 1 ∧ (atFabric.reg 6).toNat / 16 < 12) ∧
    (atFabric.reg 7).toNat % 16 = 2 ∧ 3 ≤ (atFabric.reg 8).toNat % 16 ∧
    ((atFabric.reg 5).toNat % 16 = 1 ∧ 12 ≤ (atFabric.reg 5).toNat / 16) := by
  and_intros <;> first
    | decide +kernel
    | exact bindsTo_spec (p := fun _ u => u.fabric.boxFits 0x800 u.hub.index && decide (u.here.sends.length < 16))
        (by decide +kernel)

/-- A packet, and a get request on its way. -/
def aPacket (seq : Nat) : Packet :=
  { kind := .put, source := 1, core := 0, op := 3, seq := seq, group := 0, rid := 1, addr := 0, len := 8, start := 0, red := 0, user := 0
    bytes := [] }
def remoteOf (op : Op) (tries got : Nat) : Remote :=
  { id := 9, by_ := work.issuer, op := op, left := 0, acked := 0, buf := [], tries := [(0, tries)], got := got, failed := 0 }
def aPut : Op := .fput 2 0x1000 1 false 1 0 0 64 0 0 none none
def longPut (qf : Bool) : Op := .fput 2 0x1000 1 qf 1 0 0 128 0 0 none none
def fromRange : Op := .fput 0 0x10000 1 false 1 0 0 64 0 0 (some (dataRange.bind 0x10000)) none
def aGet : Op := .fget 2 0x1000 1 1 0 64 0 none none
def aSent : Sent :=
  { dst := 1, port := some 0, cls := 1, header := 0, data := [], time := 0, packet := some { aPacket 0 with op := 9 } }
/-- The packet of that operation that was sent 20 µs ago or more. -/
def dueOf (s : State) : Option (Nat × Nat × Packet) :=
  choose s.fresh 46000 ((lastSent 9 s.fabric.sent).filter fun p => decide (p.2.1 + 20000 ≤ s.time))
def remoteOn (op : Op) (tries : Nat) : State :=
  { (inPod work).onFabric (fun f => { f with remotes := [remoteOf op tries 0], sent := [aSent] }) with time := 20000 }
/-- What an operation finds when it reads on, and whether its packet is then full. -/
def readsOn (s : State) (op : Op) (n : Nat) : Bool × Bool :=
  match op with
  | .fput lsp laddr _ _ _ _ _ _ _ _ l _ =>
    let r := remoteOf op 0 0
    let d := s.localRead r.by_ lsp laddr l r.piece.1 r.piece.2
    (d.2.2, decide (n ≤ (r.buf ++ d.2.1).length))
  | _ => (false, false)
def portIn (state : Nat) (failures : List Nat) : State :=
  (inPod work).onFabric fun f => f.setPort 11 { f.port 11 with state := state, failures := failures }

theorem meets_fabricEvents :
    ((portIn 0 []).fabric.port 11).state = 0 ∧ ((portIn 1 []).fabric.port 11).state = 1 ∧
    3 ≤ (0 :: ((portIn 1 [0, 0]).fabric.port 11).failures).length ∧ (0 :: ((portIn 1 [0]).fabric.port 11).failures).length < 3 ∧
    2 ^ 28 ≤ ((aPacket (2 ^ 28)).seq + 2 ^ 29 - (inPod work).fabric.expected (streamOf (aPacket 0))) % 2 ^ 29 ∧
    ((aPacket (2 ^ 28 - 1)).seq + 2 ^ 29 - (inPod work).fabric.expected (streamOf (aPacket 0))) % 2 ^ 29 < 2 ^ 28 ∧
    (inPod work).fabric.early.contains (aPacket 0) = false ∧
    (remoteOn aPut 4).fabric.remote 9 = some (remoteOf aPut 4 0) ∧
    dueOf (remoteOn aPut 4) = some (1, 0, { aPacket 0 with op := 9 }) ∧
    4 ≤ (Sparse.get? (remoteOf aPut 4 0).tries 0).getD 0 ∧
    (Sparse.get? (remoteOf aPut 3 0).tries 0).getD 0 < 4 ∧ ({ remoteOf aPut 0 0 with left := 1 } : Remote).sentAll = true ∧
    dueOf { remoteOn aPut 4 with time := 19999 } = none ∧
    readsOn work aPut 64 = (true, true) ∧ readsOn work (longPut true) 128 = (true, false) ∧
    (readsOn (work.onPlatform fun p => { p with poison := [0x4000] }) fromRange 64).1 = false ∧
    (remoteOn aGet 0).fabric.remote 9 = some (remoteOf aGet 0 0) ∧ 0 + (List.replicate 64 (0 : Byte)).length = 64 ∧
    0 + (List.replicate 32 (0 : Byte)).length < 64 ∧
    31 < (inPod work).fabric.size ∧ 31 ≠ (inPod work).hub.index ∧ (inPod work).fabric.dead.contains 31 = false ∧
    (let t := ((inPod work).onFabric fun f => { f with dead := f.dead ++ [31] }).hubEvent 0x19 31
     t.cutOff.fabric.entries.filter t.cutOff.breaks = []) := by
  and_intros <;> decide +kernel

/-- A barrier entry with an open round of two packages, complete at this one, or broken by a death. -/
def anEntry : FabEntry := { FabEntry.fresh 1 0 false with isOpen := true, box := 0x800, need := 1, sentUp := true }
def withEntry (e : FabEntry) (dead : List Nat) : State :=
  (inPod work).onFabric fun f => { f with entries := [e], dead := dead }

theorem meets_fabricBarrierEvents :
    (withEntry anEntry []).fabric.entryByKey anEntry.key = some anEntry ∧ anEntry.children.contains 1 = false ∧
    ({ anEntry with children := [1] } : FabEntry).children.contains 1 = true ∧ anEntry.isOpen = true ∧ anEntry.sentUp = true ∧
    anEntry.pod = false ∧ ({ anEntry with pod := true } : FabEntry).pod = true ∧ (withEntry anEntry [1]).breaks anEntry = true ∧
    (withEntry anEntry []).breaks anEntry = false ∧ (inPod work).fabric.entryByKey 5 = none ∧
    (inPod work).fabric.entry (5 % 65536) false = none ∧ (5 : Nat) < 2 ^ 24 ∧ (inPod work).fabric.entries.length < 1024 := by
  and_intros <;> decide +kernel

/-! The command processor. -/

theorem meets_HostCommands :
    State.reset.platform.bootFailed = false ∧
    State.reset.hub.pendingEntries ≤ (15 + 2 ^ 4 - State.reset.hub.lqhead) % 2 ^ 4 ∧
    (let h := { State.reset.hub with lqtail := 5 }
     (4 + 2 ^ 4 - h.lqhead) % 2 ^ 4 < h.pendingEntries) ∧
    (State.reset.hub.run = false ∧ State.reset.hub.lqhead = State.reset.hub.lqtail) ∧ (4 ≤ 16 % 32 ∧ 16 % 32 ≤ 16) ∧
    work.hub.run = true ∧ 8 % 16 ≤ 8 ∧ (256 % 256 = 0 ∨ 6 < 256 % 256) ∧ 6 < 255 % 256 ∧ State.reset.hub.trsel = 0 ∧
    ({ State.reset.hub with trsel := 8 } : Hub).trsel ≠ 0 := by decide +kernel

/-- A package that booted, with one entry in its launch queue, as doublewords at the physical address 0, and tables after
it. -/
def withEntryAt (dws : List Nat) (job : Bool) : State :=
  { inPod State.reset with
    hub := { Hub.reset with hid := 0, lqtail := 1, job := job, keys := [(0, 1), (1, 1)] }
    hbm := Memory.write (Memory.write (Memory.write [] 0 (dws.flatMap (natToBytes 8)))
      0x1000 ([2 ^ 48 + 0x1000, 0x2000, 0x3000, 0x1000, 0x2000, 2 ^ 32 + 5, 0, 0].flatMap (natToBytes 8)))
      0x2000 ([0x10000000, 128, 0x11000000, 64, 0x12000000, 64, 0x100000000, 8266240 * 1024, 0x300000000, 5120 * 4096,
        0x400000000, 64, 0x500000000, 320 * 2 ^ 20, 0, 0].flatMap (natToBytes 8))
    platform := { Platform.reset with
      booted := true, blockKey := [(0, 1), (1, 1), (2, 1), (3, 1), (0x40, 1), (0x80, 1), (0x81, 1)] } }

/-- A launch of one strand, with all the checks of R394 passed. -/
def launchDws : List Nat :=
  [2 ^ 56 + 1, 1, 2 ^ 32 + 2 ^ 28, 0, 0, 0, 0, 0, 0, 0, 0x1000, 0, 0, 0, 0, 0, 0, 0x1000, 0, 1, 0, 0, 0, 0, 0, 0, 0x2000]

def launchCheck (dws : List Nat) : Option Nat :=
  let s := withEntryAt dws true
  let h : Hub := { s.hub with lseq := s.hub.lseq + 1 }
  let t := ({ s with hub := h } : State).takeEntry 1 h.ident
  match t.checkLaunch { dws := s.headEntry } 0 with
  | .ok _ => none
  | .error n => some n

theorem meets_LaunchQueueEntries :
    (withEntryAt [5 * 2 ^ 56] true).entryDue = some 5 ∧ (withEntryAt [0] true).entryDue = some 0 ∧
    (withEntryAt [3 * 2 ^ 56 + 2 ^ 16 + 1] false).entryDue = some 3 ∧
    jobForm (withEntryAt [3 * 2 ^ 56 + 2 ^ 16 + 1] false).headEntry = true ∧
    ((withEntryAt [3 * 2 ^ 56 + 2 ^ 16 + 1] false).takeEntry 3 0).failedDie = none ∧
    (withEntryAt [4 * 2 ^ 56] true).entryDue = some 4 ∧ (withEntryAt launchDws true).entryDue = some 1 ∧
    (withEntryAt launchDws false).hub.job = false ∧ launchCheck launchDws = none ∧ launchCheck [2 ^ 56] = some 2 ∧
    (let l : Launch := { someLaunch with roots := some ([0x100000000000000, 2], dataRange, 0) }
     l.roots = some ([0x100000000000000, 2], dataRange, 0) ∧ 0 + 1 < ({ dws := [0x100000000000000, 2] } : LaunchEntry).count ∧
       ({ dws := [0x100000000000000, 2] } : LaunchEntry).count ≤ 1 + 1) := by
  and_intros <;> decide +kernel

/-- A phase that has ended: nothing runs; before and after the hold, and with a pod barrier to join or over. -/
def ended (hold : Bool) (ppol : Nat) (podDone : Bool) : State :=
  { inPod work with
    cores := [], hub := { (inPod work).hub with hold := hold, launch := some { someLaunch with ppol := ppol, podDone := podDone } } }

theorem meets_phaseCommit :
    (ended false 0 false).commitDue = true ∧ (ended true 2 false).commitDue = true ∧ (ended true 0 false).commitDue = true ∧
    (ended true 2 true).commitDue = true := by
  and_intros <;> decide +kernel

/-- Pre-emption under way, complete, and ending; with all engines but one and with none of them stopped. -/
def preempting (state : Nat) (acks resume : List Nat) : State :=
  { work.onHub (fun h => { h with pstate := state, acks := acks, toResume := resume, preStart := 0 }) with time := 10 ^ 7 }
def saving (a : Activity) : State := work.onHere fun c => { c with act := a, preempt := true }

theorem meets_PreemptionEvents :
    work.platform.bootFailed = false ∧ work.commits = false ∧ (ended true 0 false).commits = true ∧ work.hub.pstate = 0 ∧
    State.reset.hub.pstate = 4 ∧ (preempting 2 [] []).hub.pstate ≠ 0 ∧ (preempting 2 [] []).hub.pstate ≠ 4 ∧
    2089 < engineCount ∧ ((preempting 1 [] []).hub.pstate = 1 ∧ (preempting 1 [] []).hub.acks.contains 2089 = false) ∧
    ((preempting 1 (List.range 2089) []).hub.acks.length + 1 = engineCount ∧
      (preempting 1 (List.range 2089) []).hub.acks.contains 2089 = false) ∧
    (preempting 1 [] []).hub.preStart + 10 ^ 7 ≤ (preempting 1 [] []).time ∧
    ((preempting 2 [0] []).hub.pstate = 2 ∧ (preempting 2 [0] []).hub.acks ≠ []) ∧
    ((preempting 3 [] [5]).hub.pstate = 3 ∧ (preempting 3 [] [5]).hub.resuming.contains 5 = true) ∧
    ([5].filter (· != 5) = []) ∧ ([5, 6].filter (· != 5) ≠ []) ∧ 3 ≤ (preempting 3 [] []).hub.pstate ∧
    ((saving .idle).core 0).canSave = true ∧ ((saving .running).core 0).canSave = true ∧
    ((saving .running).core 0).urgent = false ∧ ((saving .running).core 0).landings = [] ∧
    ((saving .running).core 0).mat = Matrix.reset ∧
    (preempting 1 ((List.range 8).map (copyEngine 0)) []).copyStopped (clusterOf 0) = true ∧
    ((saving (.saved none)).core 0).act = .saved none ∧ (saving (.saved none)).saveLost 0 = false ∧
    ((saving (.saved none)).onPlatform fun p => { p with poison := [0x200000] }).saveLost 0 = true := by
  and_intros <;> decide +kernel

/-- A collective over this package alone, and one that reduces FP32 elements over two packages with chunk checksums. -/
def aloneDws : List Nat := [2 * 2 ^ 56 + 2 ^ 48 + 2 ^ 32, 0, 1, 0x10000, 0x18000, 8, 0, 0, 0]
def reduceDws : List W64 :=
  [2 * 2 ^ 56 + 2 ^ 48 + 2 ^ 47 + 2 ^ 32, 0x800, 0, 0x10000, 0x18000, 8, 0, 0x1000, 0]
def dueIn (dws : List Nat) (job : Bool) : State :=
  (withEntryAt dws job).onHub fun h => { h with
    dir := [(1, [dataRange])], lastSet := some 1, groups := [(1, { state := 1, inc := 0, memb := 1, outs := 0 })] }
def reducing (joined : Bool) (bad peers : List Nat) : Coll :=
  { dws := reduceDws, index := some 0, sbuf := dataRange.bind 0x10000, dbuf := dataRange.bind 0x18000, opened := true
    joined := joined, peers := peers, dead := [], stepNo := 0, chunk := 0, sent := 0, resume := none, since := 0, part := []
    out := [], flags := 0, bad := bad }
def collecting (joined : Bool) (bad peers : List Nat) : State :=
  { (inPod work).onHub (fun h => { h with coll := some (reducing joined bad peers) }) with time := 10 ^ 12 }
def fits (contribution : List Contribution) : Bool :=
  let s := collecting true [] [0, 1]
  let c := reducing true [] [0, 1]
  let step := c.steps.getD c.stepNo .copy
  let n := min (collChunk c.dws) (partSize (s.collRanges c (c.stepNo + 1)) - c.chunk * collChunk c.dws)
  let me := s.ownCoords c.dws
  contributionsFit c.dws step (step.ring (collExtents c.dws) me c.dead) me n contribution
def contributionOf (bytes : List Byte) : Contribution := { lo := 1, hi := 2, bytes := bytes, lost := [], flags := 0, done := 0 }
def chunkOf (sum : Byte) : List Contribution :=
  [contributionOf (List.replicate 32 0 ++ sum :: List.replicate (chunkSumBytes (collFmt reduceDws) - 1) 0)]
def soundOf (xs : List Contribution) : Bool := xs.all fun x => contributionSound reduceDws 8 x.bytes

theorem meets_CollectiveEvents :
    ((dueIn aloneDws true).collDue.map fun d => d.1) = some (some 0) ∧
    ((dueIn aloneDws false).takeEntry 2 0).hub.job = false ∧ ((dueIn aloneDws true).takeEntry 2 0).hub.job = true ∧
    (match ((dueIn aloneDws true).takeEntry 2 0).checkColl (dueIn aloneDws true).headEntry false with
      | .ok _ => true | .error _ => false) = true ∧
    (match ((dueIn [2 * 2 ^ 56] true).takeEntry 2 0).checkColl (dueIn [2 * 2 ^ 56] true).headEntry false with
      | .ok _ => false | .error _ => true) = true ∧
    (collecting false [] [0]).hub.coll = some (reducing false [] [0]) ∧
    (collecting true [] [0, 1]).collDone (reducing true [] [0, 1]) = false ∧
    (collecting true [] [0, 1]).collDone { reducing true [] [0, 1] with chunk := 1 } = true ∧
    (reducing false [] [0]).peers.contains 1 = false ∧
    ((collecting false [] [0]).participants reduceDws).any (fun p => p.1 == 1 && !([] : List Nat).contains p.2) = true ∧
    collHash reduceDws ≠ 0 ∧ 0 + joinLimit reduceDws ≤ (collecting false [] [0]).time ∧
    (((collecting false [] [0]).participants reduceDws).find? fun p => p.1 == 1).isSome = true ∧
    (collecting true [] [0, 1]).newlyDead (reducing true [] [0, 1]) = [] ∧
    ((collecting true [] [0, 1]).onFabric fun f => { f with dead := [1] }).newlyDead (reducing true [] [0, 1]) ≠ [] ∧
    ((collecting true [] [0, 1]).survivors (reducing true [] [0, 1])).length = [contributionOf []].length ∧
    work.hub.coll = none ∧ (chunkOf 1).flatMap contributionPlaces = [1] ∧ (reducing true [1] [0, 1]).bad.contains 1 = true ∧
    fits (chunkOf 0) = true ∧ fits (chunkOf 1) = true ∧ soundOf (chunkOf 0) = true ∧ soundOf (chunkOf 1) = false := by
  and_intros <;> decide +kernel

/-! The platform. -/

/-- Rails as last read and written, and junctions with the state of the thermal loop. -/
def railOf (rise : Bool) (wrote : Option Nat) (now : Nat) : State :=
  { State.reset.onRail 7 fun r => { r with rise := rise, wrote := wrote } with time := now }
def drawing (n : Nat) : State := State.reset.onRail 7 fun r => { r with volts := 1, amps := n }
def heated (celsius : Nat) (throttling tien : Bool) (stepped : Option Nat) (now : Nat) : State :=
  { (State.reset.onDie 7 fun d => { d with temps := [0, 0, 0, celsius] }).onPlatform fun p =>
      { p with throttling := throttling, tien := tien, stepped := stepped } with time := now }
def aLane (stage : Nat) : LowLane := { lane := 5, margin := 3, stage := stage }

theorem meets_PlatformEvents :
    (State.reset.platform.booted = false ∧ State.reset.platform.bootFailed = false) ∧ 0xFFFFFFFFC0 + 64 ≤ 2 ^ 40 ∧
    State.reset.windowKey ≠ 0 ∧ (State.reset.onPlatform fun p => { p with hwkey := 1023 }).windowKey = 0 ∧
    (let e := State.reset.platform.eye 15
     e.rtpend = false ∧ e.armed = [] ∧ (∀ l ∈ e.low, l.lane ≠ 65535 % 65536)) ∧
    (let f := fun (e : Eye) => ((State.reset.onEye 15 fun _ => e).platform.eye 15)
     let e : Eye := { State.reset.platform.eye 15 with spare := 1 }
     (f { e with ctl := 30 }).ctl.getLsbD 16 = false ∧ 0 < fieldOf (f { e with ctl := 30 }).ctl 0 16 ∧
     (f { e with ctl := 0x10010 }).ctl.getLsbD 16 = true ∧ (f { e with rtpend := true }).rtpend = true ∧
     (aLane 0).stage = 0 ∧ (aLane 1).stage = 1 ∧
     (f { e with spare := 0 }).spare = 0 ∧ (f e).spare ≠ 0 ∧ (f { e with armed := [(7, true, 0)] }).armed = [(7, true, 0)] ∧
     State.reset.time < 0 + 64 ∧ 0 + 64 ≤ ({ State.reset with time := 64 } : State).time) ∧
    (State.reset.poisoned (2 ^ 36 * 15) 64 = false ∧ State.reset.platform.soft.contains (2 ^ 30 * 15) = false ∧
      (State.reset.onPlatform fun p => { p with poison := [2 ^ 30 * 15] }).poisoned (64 * (2 ^ 30 * 15)) 64 = true) ∧
    ((railOf false none 0).platform.rail 7).rise = false ∧ ((railOf true none 0).platform.rail 7).rise = true ∧
    (((railOf false (some 1) 10001).platform.rail 7).wrote = some 1 ∧ 1 + 10 ^ 4 ≤ (railOf false (some 1) 10001).time) ∧
    (railOf false (some 1) 10000).time < 1 + 10 ^ 4 ∧
    ((heated 95 false true none 0).hottest = 95 ∧ (heated 95 false true none 0).platform.tjthr = 95 ∧
      (heated 95 false true none 0).platform.stepped = none) ∧
    ((heated 96 false true (some 1) 1000001).platform.tjthr < (heated 96 false true (some 1) 1000001).hottest ∧
      (heated 96 false true (some 1) 1000001).platform.tien = true ∧
      (heated 96 false true (some 1) 1000001).platform.throttling = false ∧
      1 + 10 ^ 6 ≤ (heated 96 false true (some 1) 1000001).time) ∧ (heated 96 true true (some 1) 1000000).time < 1 + 10 ^ 6 ∧
    ((heated 90 true false none 0).hottest + 5 ≤ (heated 90 true false none 0).platform.tjthr ∧
      (heated 90 true false none 0).platform.throttling = true) ∧
    ((heated 91 true false none 0).platform.tjthr < (heated 91 true false none 0).hottest + 5) ∧ (heated 110 true false none 0).hottest = 110 ∧
    5 * (drawing 720000).platform.power + 2 * 0 ≤ 3600000 ∧ 3600000 < 5 * (drawing 720000).platform.power + 2 * 1 := by
  and_intros <;> decide +kernel

theorem meets_ResetsAndFaults :
    (7 : Nat) < 8 ∧ (8 : Nat) ≤ 8 ∧ (639 : Nat) < 640 ∧ (640 : Nat) ≤ 640 ∧ (169 : Nat) < 170 ∧ 8388607 < 2 ^ 23 ∧
    16777215 < 2 ^ 24 ∧ (159 : Nat) < 160 ∧ (withSpilled.core 0).queue 7 ≠ Queue.reset ∧
    ((withSpilled.core 0).queue 7).spilled ≠ [] ∧ ((State.reset.node 159).entry 5).held = none ∧
    ((meetOp (operandOf 2) (partner 2)).node (homeNode 5)).entry 5 = partner 2 ∧ (partner 2).held ≠ none ∧
    hbmAddress (48 * 2 ^ 30 - 1) = true ∧ State.reset.platform.poison.contains 0 = false ∧
    State.reset.platform.hard.contains 0 = false ∧ (State.reset.onPlatform fun p => { p with poison := [1] }).platform.poison.contains 1 = true ∧
    (1023 : Nat) < 1024 := by
  and_intros <;> decide +kernel

/-! Results and frames. -/

theorem meets_DivisionTruncates :
    (1 : W64) ≠ 0 ∧ ¬((5 : W64).toInt = -(2 ^ 63) ∧ (1 : W64).toInt = -1) ∧ (0x8000000000000000 : W64).toInt = -(2 ^ 63) ∧
    (0xFFFFFFFFFFFFFFFF : W64).toInt = -1 ∧ State.reset.guarded 0 false = true ∧ State.reset.reg 1 = 0 := by decide +kernel

theorem meets_ResultsLandAtTheirCycle :
    inFile Core.reset (.s 31) ∧ inFile Core.reset (.k 7) ∧ inFile Core.reset (.mp 7) ∧ 0 < 1 ∧ Core.reset.landings = [] ∧
    Core.reset.cycle ≤ 0 ∧ 0 < Core.reset.cycle + 1 ∧ Core.reset.cycle + 1 ≤ 1 ∧ Port.s 31 ≠ Port.s 30 := by
  and_intros <;> first
    | decide
    | simp [inFile, Core.reset]

theorem meets_WordsOnlySendTheirResults :
    resultPorts work (.vmxd 0 30 1 2 0) = some [.x 30, .x 31] ∧
    (∃ t, exec (.vmxd 0 30 1 2 0) work = .next t ∧ (t.here.iss.mark == .done) = true) ∧
    resultPorts work (.ldD 12 1 2 0) = some [.s 12] ∧
    (∃ t, exec (.ldD 12 1 2 0) work = .next t ∧ (t.here.iss.mark == .done) = true) := by
  refine ⟨by decide +kernel, reaches_spec (p := fun t => t.here.iss.mark == .done) (by decide +kernel), by decide +kernel,
    reaches_spec (p := fun t => t.here.iss.mark == .done) (by decide +kernel)⟩

theorem meets_MatrixWordsChangeOnlyTheArray :
    (∃ t, exec (.tmma 1 0 2 4 1) atTiles = .next t ∧ (t.here.iss.mark == .done && t.here.mat.queue.length == 1) = true) ∧
    (∃ t, exec (.twait 9 0) atTiles = .next t ∧ (t.here.iss.mark == .done) = true) := by
  exact ⟨reaches_spec (p := fun t => t.here.iss.mark == .done && t.here.mat.queue.length == 1) (by decide +kernel),
    reaches_spec (p := fun t => t.here.iss.mark == .done) (by decide +kernel)⟩

theorem meets_RequestsKeepRegistersAndMemory :
    asksUnits (.xfer 9 1 0) = true ∧
    (∃ t, exec (.xfer 9 1 0) atRecord = .next t ∧ (t.here.iss.mark == .done && t.here.xfers.length == 1) = true) ∧
    (∃ t, exec (.gnew 9 4 0) atGroups = .next t ∧ (t.here.iss.mark == .done) = true) := by
  exact ⟨by decide +kernel, reaches_spec (p := fun t => t.here.iss.mark == .done && t.here.xfers.length == 1) (by decide +kernel),
    reaches_spec (p := fun t => t.here.iss.mark == .done) (by decide +kernel)⟩

/-! Witnesses for the clauses on requests, marked registers, waits and messages that were lost. -/

/-- The one request of a load, at its issue and after its landing cycle. -/
def asked : State := atEnds.loadNow (.s 3) 5 0 0 [Want.of false 64 8 0 5] 4
def askedLate : State := asked.onHere fun c => { c with cycle := 1000 }

theorem meets_grantsFill :
    (∀ s ∈ [asked, askedLate], ((s.core 0).landings.head?.map fun l =>
      (l.wants.map (fun w => (w.cluster, w.off, w.size, w.place)) == [(false, 64, 8, 0)], l.val == 0, l.err == none, l.ext)) =
        some (true, true, true, 4)) ∧
    ((asked.core 0).landings.all fun l => decide ((asked.core 0).cycle < l.due)) = true ∧
    ((askedLate.core 0).landings.all fun l => decide (l.due ≤ (askedLate.core 0).cycle)) = true ∧
    (∀ o ∈ atEnds.here.oldLines, o.cluster = false → o.bytes.length = 64) ∧ atEnds.here.landings = [] := by
  and_intros <;> decide +kernel

/-- The core at the ADD of the spec's example with an uncorrectable error in s5, which it reads. -/
noncomputable def atBadAdd : State := atAddReady.onHere fun c => { c with badRegs := [5] }
noncomputable def takenUp (s : State) : State := (s.noteFetch s.here [(0, 0x100210A0#32)]).takeUp [(0, 0x100210A0#32)]

theorem meets_stepReadsMarkedRegisters :
    atAddReady.here.candidates = [] ∧ atAddReady.here.fence = none ∧
    (takenUp atAddReady).badRead (wordReads (takenUp atAddReady) (.addSr 4 4 5 0)) = none ∧
    (takenUp atBadAdd).badRead (wordReads (takenUp atBadAdd) (.addSr 4 4 5 0)) = some 5 := by
  and_intros <;> decide +kernel

/-- A bank of the message-handler context that is valid. -/
def inSecond : Core :=
  { Core.reset with inHandler := true, hand := { Core.reset.hand with bank2 := { Bank.reset with v := true } } }

/-- A group operation at the hub; a core whose threshold buffer is full with a result that has arrived in it. -/
def groupAt (kind : Nat) (v : W64) : State :=
  { work with ops := [{ id := 9, by_ := work.issuer, op := .group kind v }] }
def buffered : State :=
  (work.onHere fun c => c.land (.s 3) 2 5).onHere fun c => { c with
    full := true, landings := c.landings.map fun l => { l with timed := true, arrived := true } }

theorem meets_waitsAndGroups :
    inSecond.inHandler = true ∧ inSecond.hand.bank1.v = false ∧ inSecond.hand.bank2.v = true ∧
    (groupAt 1 0).findOp 9 = some ⟨9, work.issuer, .group 1 0⟩ ∧ (0 : Nat) < 2 ^ 32 ∧
    blockOffset 65 = false ∧ (buffered.core 0).full = true ∧
    (firstLanding ((buffered.core 0).landings.filter fun l => l.timed && l.arrived)).isSome = true ∧
    ((doing (.leaving (.pinT 0))).pin 0 (.pinT 0)).wakes 0 = true ∧
    ((doing (.leaving (.pinQ 7))).pin 0 (.pinQ 7)).wakes 0 = false ∧
    (let s := work.onHere fun c => { c with trace := { c.trace with ctl := 1 } }
     let c := s.here.early s.fresh s.time traceRegs
     flagOf c.trace.ctl 0 = true ∧ c.trace.stat.getLsbD 1 = false) := by
  and_intros <;> decide +kernel

theorem meets_messagesThatAreLost :
    ((putOp 7).findOp 9).map (·.op) = some (.put 0 7 false 5 64 (some (List.replicate 64 2))) ∧
    ((syncOp (.sync 7 63 .arrive none)).findOp 9).map (·.op) = some (.sync 7 63 .arrive none) := by
  and_intros <;> decide +kernel

/-! The forms that complete. -/

/-- The core 0 in the body of a loop, with trips left, and at the last one. -/
def looping (trips : W32) : State :=
  work.onHere fun c => { c with lc := [trips, 0], loop := { c.loop with active := true, body := [(5, [])], pos := 1 } }

theorem meets_loopAndTagsComplete :
    ((looping 2).core 0).loop.active = true ∧ ((looping 1).core 0).loop.active = true ∧ ((looping 1).core 0).lc.length = 2 ∧
    ((tagOp (.look 0 5)).cluster (clusterOf 0)).badSlots = [] ∧
    (tagOp (.look 0 5)).findOp 9 = some { id := 9, by_ := work.issuer, op := .look 0 5 } ∧
    (tagOp (.ktag 8 6 0 2)).findOp 9 = some { id := 9, by_ := work.issuer, op := .ktag 8 6 0 2 } ∧
    (((tagOp (.ktag 8 6 0 2)).cluster (clusterOf 0)).tag 8).state = 0 ∧
    (∀ f ∈ ((tagOp (.ktag 8 6 0 2)).cluster (clusterOf 0)).tags, f.2.tag = 6 → f.2.state ≠ 0 → f.1 = 8) ∧
    (tagOp (.kuntag 7 5 2 true)).findOp 9 = some { id := 9, by_ := work.issuer, op := .kuntag 7 5 2 true } ∧
    (let e := ((tagOp (.kuntag 7 5 2 true)).cluster (clusterOf 0)).tag 7
     e.state = 2 ∧ e.tag = 5) := by
  and_intros <;> decide +kernel

/-- An eye as a stack's state after reset has it, changed. -/
def withEye (f : Eye → Eye) : State := State.reset.onEye 15 f

theorem meets_platformEventsComplete :
    State.reset.platform.bootFailed = false ∧ State.reset.platform.booted = false ∧ State.reset.windowKey ≠ 0 ∧
    2 ^ 40 - 64 + 64 ≤ 2 ^ 40 ∧ ((withEye fun e => { e with armed := [(7, true, 0)] }).platform.eye 15).armed = [(7, true, 0)] ∧
    0 + 64 ≤ ({ withEye id with time := 64 } : State).time ∧
    0 < fieldOf ((withEye fun e => { e with ctl := 30 }).platform.eye 15).ctl 0 16 ∧
    (∀ l ∈ ((withEye fun e => { e with ctl := 30 }).platform.eye 15).low, l.lane ≠ 65535 % 65536) ∧
    (let e := (withEye fun e => { e with rtpend := true, low := [aLane 1] }).platform.eye 15
     e.rtpend = true ∧ e.low = [aLane 1]) ∧ ((State.reset.die 7).temps.length = 4 ∧ (109 : Nat) < 110) ∧
    3600000 < 5 * (drawing 720001).platform.power + 2 * 0 ∧ 3600000 < 5 * (drawing 400000).platform.power + 2 * 800001 := by
  and_intros <;> decide +kernel

theorem meets_fabricEventsComplete :
    ((portIn 0 []).fabric.port 11).state = 0 ∧ ((portIn 1 []).fabric.port 11).state = 1 ∧
    31 < (inPod work).fabric.size ∧ 31 ≠ (inPod work).hub.index ∧ (inPod work).fabric.dead.contains 31 = false ∧
    (inPod work).fabric.remotes = [] ∧ (inPod work).fabric.entries = [] ∧
    ((aPacket 0).seq + 2 ^ 29 - (inPod work).fabric.expected (streamOf (aPacket 0))) % 2 ^ 29 < 2 ^ 28 ∧
    (inPod work).fabric.early.contains (aPacket 0) = false ∧
    (remoteOn aPut 4).fabric.remote 9 = some (remoteOf aPut 4 0) ∧
    dueOf (remoteOn aPut 4) = some (1, 0, { aPacket 0 with op := 9 }) ∧
    4 ≤ (Sparse.get? (remoteOf aPut 4 0).tries 0).getD 0 ∧
    (Sparse.get? (remoteOf aPut 3 0).tries 0).getD 0 < 4 ∧
    (remoteOn aGet 0).fabric.remote 9 = some (remoteOf aGet 0 0) ∧ (1 : Byte) ≠ 0 ∧
    (withEntry anEntry []).fabric.entryByKey anEntry.key = some anEntry ∧ anEntry.children.contains 1 = false ∧
    (withEntry { anEntry with pod := true } []).fabric.entryByKey ({ anEntry with pod := true } : FabEntry).key =
      some { anEntry with pod := true } ∧
    anEntry.isOpen = true ∧ anEntry.sentUp = true ∧ (withEntry anEntry [1]).breaks anEntry = true ∧
    (collecting false [] [0]).hub.coll = some (reducing false [] [0]) ∧
    (reducing false [] [0]).peers.contains 1 = false ∧
    ((collecting false [] [0]).participants reduceDws).any (fun p => p.1 == 1 && !([] : List Nat).contains p.2) = true ∧
    0 + joinLimit reduceDws ≤ (collecting false [] [0]).time ∧
    (((collecting false [] [0]).participants reduceDws).find? fun p => p.1 == 1).isSome = true := by
  and_intros <;> decide +kernel

theorem meets_resetsComplete :
    (7 : Nat) < 8 ∧ (639 : Nat) < 640 ∧ (169 : Nat) < 170 ∧ (159 : Nat) < 160 ∧ 5 < engineCount ∧
    (preempting 3 [] [5]).hub.pstate = 3 ∧ (preempting 3 [] [5]).hub.resuming.contains 5 = true := by
  and_intros <;> decide +kernel

/-! Witnesses for the clauses on lanes, full tables, ports and registers of the hub. -/

/-- Offsets of which lane 3 is the first that is not a multiple of 4. -/
def atLanes : State := work.onHere fun c => { c with x := c.x.set 2 (BitVec.ofNat 512 (2 * 2 ^ 96 + 2 ^ 128)) }

theorem meets_UnadmittedAccessesTrap_lanes :
    atLanes.here.inHandler = false ∧ (3 : Nat) < 16 ∧ (atLanes.mask 0).getLsbD 3 = true ∧
    ((atLanes.regN 1).toInt + (lane 32 (atLanes.vec false 2) 3 : Nat)) % 4 ≠ 0 ∧
    (∀ j ∈ List.range 3, (atLanes.regN 1).toInt + (lane 32 (atLanes.vec false 2) j : Nat) = 0) := by
  and_intros <;> decide +kernel

theorem meets_LeavingWords_stops : 8 ≤ (atUnits.reg 4).toNat ∧ (inHand atUnits).here.inHandler = true ∧
    (inHand atUnits).here.handlerMode = true := by decide +kernel

/-- A hub whose group table is full. -/
def fullGroups : Hub :=
  { Hub.reset with groups := (List.range 65536).map fun n => (n, { state := 1, inc := 0, memb := 0, outs := 0 }) }

theorem get?_map_range {α : Type} (f : Nat → α) (k n : Nat) :
    ∀ m, m ≤ n → n < m + k → Sparse.get? ((List.range' m k).map fun i => (i, f i)) n = some (f n) := by
  induction k with
  | zero => intro m _ _; omega
  | succ k ih =>
    intro m hm hk
    by_cases h : m = n
    · simp [List.range'_succ, Sparse.get?, h]
    · simp only [List.range'_succ, List.map_cons, Sparse.get?, if_neg h]
      exact ih (m + 1) (by omega) (by omega)

theorem freeGroup_none {h : Hub} (hh : ∀ n, n ≤ 65535 → (h.group n).state ≠ 0) :
    ∀ fuel gid, Hub.freeGroup h fuel gid = none := by
  intro fuel
  induction fuel with
  | zero => simp [Hub.freeGroup]
  | succ fuel ih =>
    intro gid
    by_cases hg : 65535 < gid
    · simp [Hub.freeGroup, hg]
    · simp [Hub.freeGroup, hg, hh gid (by omega), ih]

theorem meets_GroupWords_full : fullGroups.freeGroup (fullGroups.groups.length + 1) 1 = none := by
  apply freeGroup_none
  intro n hn
  have h := get?_map_range (fun _ => ({ state := 1, inc := 0, memb := 0, outs := 0 } : Group)) 65536 n 0 (by omega) (by omega)
  rw [← List.range_eq_range'] at h
  unfold Hub.group fullGroups
  dsimp only
  rw [h]
  decide

/-- A port at its sixteenth replay, a put of two packets with one acknowledged, and a package whose ports are all down. -/
def longOne : Op := .fput 2 0x1000 1 false 1 0 0 1024 0 0 none none
def sentOn (acked : Nat) : Remote := { remoteOf longOne 0 0 with left := 2, acked := acked }
def allDown (now : Nat) : State :=
  { (inPod work).onFabric fun f => (List.range 12).foldl (fun f n => f.setPort n { f.port n with state := 2, since := 1 }) f with
    time := now }

theorem meets_fabricEvents_limits :
    16 ≤ ({ (portIn 0 []).fabric.port 11 with run := 15 } : FabPort).run + 1 ∧
    (sentOn 1).acked + 1 ≤ (sentOn 1).left ∧ (1024 + 511) / 512 ≤ (sentOn 1).acked + 1 ∧ (sentOn 0).acked + 1 < (1024 + 511) / 512 ∧
    (allDown 20001).cutFromPod = true ∧ (allDown 20000).cutFromPod = false ∧ (inPod work).cutFromPod = false ∧
    (inPod work).fabric.dead.contains (inPod work).hub.index = false ∧ (inPod work).hub.index < (inPod work).fabric.size := by
  and_intros <;> decide +kernel

theorem meets_HostCommands_values : (3 % 32 < 4 ∧ 16 < 17 % 32) ∧ 8 < 9 % 16 ∧
    0x48 ∉ [0x20, 0x28, 0x40, 0x50, 0x58, 0x100, 0x340] ∧
    (70 ≤ 70 * 2 ^ 40 / 2 ^ 40 % 256 ∧ 101 * 2 ^ 40 / 2 ^ 40 % 256 > 100) := by decide

theorem meets_PreemptionEvents_engine :
    1919 < engineCount ∧ (640 ≤ 1919 ∧ 1919 < 1920) ∧ (preempting 3 [] [1919]).hub.pstate = 3 ∧
    (preempting 3 [] [1919]).hub.resuming.contains 1919 = true := by decide +kernel
/-! Single steps whose results the spec's examples and tables give. -/

/-- What the last result of a step is: its value, its latency and its flags. -/
def lastResult (o : Host.Outcome State Fault Refusal) : Option (Nat × Nat × Nat) :=
  match o with
  | .next t => t.here.landings.getLast?.map fun l => (l.val.toNat, l.due - l.t0, l.flags.toNat)
  | _ => none

/-- How a step leaves its word. -/
def lastMark (o : Host.Outcome State Fault Refusal) : Option Mark :=
  match o with
  | .next t => some t.here.iss.mark
  | _ => none

/-- The core with vector registers and mask registers set. -/
def withX (s : State) (l : List (Nat × Nat)) (k : List (Nat × W64)) : State :=
  s.onHere fun c => { c with
    x := l.foldl (fun r p => r.set p.1 (BitVec.ofNat 512 p.2)) c.x
    k := k.foldl (fun r p => r.set p.1 p.2) c.k }

/-- The example of R160: −7 and 2. -/
def divided : State := withS work [(1, 0xFFFFFFFFFFFFFFF9), (2, 2)]

theorem test_div : lastResult (exec (.div 3 1 2 0) divided) = some (2 ^ 64 - 3, 20, 0) := by decide +kernel
theorem test_rem : lastResult (exec (.rem 3 1 2 0) divided) = some (2 ^ 64 - 1, 20, 0) := by decide +kernel
theorem test_divu : lastResult (exec (.divu 3 1 2 0) divided) = some (0x7FFFFFFFFFFFFFFC, 20, 0) := by decide +kernel
theorem test_remu : lastResult (exec (.remu 3 1 2 0) divided) = some (1, 20, 0) := by decide +kernel

/-- The example of R124: MFC s5, CYCLE issued at cycle 900. -/
theorem test_mfc_cycle :
    lastResult (exec (.mfc 5 5) (work.onHere fun c => { c with cycle := 900 })) = some (900, 2, 0) := by decide +kernel

/-- The example of R168: a CALL alone at word 301 with displacement 20. -/
def atCall : State := (work.onHere fun c => { c with iss := { c.iss with start := 301, last := 301, word := 301 } })

theorem test_call_link : lastResult (exec (.callDisp 0 0 0 20) atCall) = some (303, 1, 0) := by decide +kernel
theorem test_call_target : reaches (exec (.callDisp 0 0 0 20) atCall) (fun t => t.here.iss.npc == 360) = true := by
  decide +kernel

/-- The example of R169: BRV.ALL on a mask of sixteen lanes traps. -/
theorem test_brv_all_traps :
    lastMark (exec (.brvAll 0 3 0xFFFE) (withX work [] [(3, 0xFFFF)])) = some (.trapped 6) := by decide +kernel

/-- The example after R165: ST.W beyond the core scratchpad traps with the offset as TVAL. -/
theorem test_st_w_beyond :
    reaches (exec (.stW 3 2 2) (withS work [(2, 0x7FFFFC)]))
      (fun t => t.here.main.bank1.code == 10 && t.here.main.bank1.tval == 0x800004) = true := by decide +kernel

/-- The example at the end of the vector instructions: a masked narrowing conversion, a compare and KUNI. -/
def narrowed : State := withX work
  [(1, 0x3F800000 + 2 ^ 32 * 0x43FA0000 + 2 ^ 64 * 0x7FC00000 + 2 ^ 96 * 0x3E99999A +
    ((List.range 12).map fun i => 2 ^ (128 + 32 * i) * 0x40000000).sum)] [(2, 0xB), (5, 0xFFFB)]

theorem test_vcvt_masked :
    lastResult (exec (.vcvt 0 4 9 1 1 2 1) narrowed) = some (0x2A007F38, 3, 0x14) := by decide +kernel
theorem test_vcmp_eq_nan : lastResult (exec (.vcmpEqFloat 0 0 3 1 1 0 0) narrowed) = some (0xFFFB, 2, 0) := by
  decide +kernel
theorem test_kuni : lastResult (exec (.kuni 0 4 5 1) narrowed) = some (0xFFFFFFFFFFFFF0FF, 2, 0) := by decide +kernel

/-- The example of R208: two lanes of a scatter with one offset. -/
def scattered : State := withS (withX work
  [(2, 0x40 + 2 ^ 32 * 0x44 + 2 ^ 64 * 0x40 + ((List.range 13).map fun i => 2 ^ (96 + 32 * i) * (0x100 + 4 * i)).sum),
   (5, 11 + 2 ^ 32 * 12 + 2 ^ 64 * 13)] []) [(3, 0x1000)]

theorem test_scatter_last_lane :
    reaches (exec (.vscatter 0 5 2 3 0) scattered)
      (fun t => t.ownRead false 0x1040 8 == [13, 0, 0, 0, 12, 0, 0, 0]) = true := by decide +kernel

/-- The example of R153: products that cancel leave what the window holds. -/
theorem test_dot_window :
    dot { Rnd.nearest with rm := 0 } 4 (.fin false 1 0) 0
      ([(0x78, 0), (0xF8, 0), (0x10, 0), (0x29, 0)] ++ List.replicate 12 (0, 0))
      ([(0x78, 0), (0x78, 0), (0x10, 0), (0x10, 0)] ++ List.replicate 12 (0, 0)) = { code := 0x3C000000, flags := flagIX } := by decide +kernel

/-- The example of R106: twelve bytes at 0x1000_0004 fold as two units. -/
theorem test_fold_units :
    (foldUnits 0x10000004 [0x11, 0x22, 0x33, 0x44, 0x55, 0x66, 0x77, 0x88, 0x99, 0xAA, 0xBB, 0xCC]).map (·.words 0) =
      [(0x001E000002000000, 0x4433221100000000), (0x001FE00002000001, 0xCCBBAA9988776655)] := by decide +kernel

/-- The example of R267: the cause register of an alignment fault with an enabled flag pending. -/
theorem test_cause_word : ({ Bank.reset with v := true, pend := 0x0800#16, code := 10#5 } : Bank).cause = 0x800000000800000A := by
  decide +kernel

/-- The example of R131: lines of a tile with rotated banks. -/
def rotatedTile : TileRef :=
  tileAt (List.replicate 16 0x02#8) 0 0x0000000400180000 0x0000000000010220 0x180000

theorem test_tile_lines :
    rotatedTile.line 2 0 = 0x280200 ∧ rotatedTile.line 13 0 = 0x000D00 ∧
    ({ rotatedTile with base := 0x188800 } : TileRef).line 0 0 = 0x188800 := by decide +kernel

/-- The example after R335: an extended 32 × 64 tile of BF16 has 72 lines: header, data and checksums. -/
theorem test_tile_count : tileLines 2 true 32 64 = 72 := by decide +kernel

/-- The example of R155: a difference of 516 units passes, one of 517 does not. -/
theorem test_tolerance :
    ckOk 1 4 (0x43960000 :: List.replicate 127 0) 0x43960204 = true ∧
    ckOk 1 4 (0x43960000 :: List.replicate 127 0) 0x43960205 = false := by decide +kernel

/-- The example of R412: the stream of a block of small words, its size class, and what it decodes to. -/
def packedWords : List Nat := [0, 0, 0, 0, 3, 0x3F800000, 0x42424242, 0xFFFFFF9C] ++ List.replicate 8 0

theorem test_compressed_block :
    compress (packedWords.flatMap (natToBytes 4)) = (0, natToBytes 16 0x0E2712163F808658) ∧
    decompress (natToBytes 16 0x0E2712163F808658) = some (packedWords.flatMap (natToBytes 4)) := by decide +kernel

end Sys2Proof.Tests
end

section
/-! SUPPORT. The rules of R116 and R207 for accesses: when an offset is not admitted, what a load or a store does at such an
offset, which access an instruction makes, and which lane's offset a gather or scatter names. -/

namespace Sys2Proof.Machine

theorem admitted_eq_false_iff (cluster : Bool) (ea : Int) (size : Nat) :
    admitted cluster ea size = false ↔
      ea < 0 ∨ (if cluster then 16 * 2 ^ 20 else 8 * 2 ^ 20 : Int) < ea + size ∨ ea % size ≠ 0 := by
  rw [admitted, ← Bool.not_eq_true, Bool.and_eq_true, Bool.and_eq_true, decide_eq_true_iff, decide_eq_true_iff,
    decide_eq_true_iff, not_and_or, not_and_or, or_assoc, not_le, not_le]
  cases cluster <;> rfl

namespace State

variable (s : State)

theorem mainOnly_of_not_inHandler {s : State} (hmain : s.here.inHandler = false) (t : State) : s.mainOnly t = t := by
  simp [mainOnly, hmain]

theorem loadInto_of_not_admitted {cluster : Bool} {a : BitVec 5} {off : BitVec 6} {size : Nat}
    (hbad : admitted cluster (effective (s.reg a) off size) size = false) (port : Port) (l : BitVec 5) (ext : Nat) :
    s.loadInto cluster port a off size l ext = s.misaligned (w64 (effective (s.reg a) off size)) := by
  simp [loadInto, hbad]

theorem storeFrom_of_not_admitted {cluster : Bool} {a : BitVec 5} {off : BitVec 6} {size : Nat}
    (hbad : admitted cluster (effective (s.reg a) off size) size = false) (v : Nat) :
    s.storeFrom cluster v a off size = s.misaligned (w64 (effective (s.reg a) off size)) := by
  simp [storeFrom, hbad]

/-- The offset of lane `j` of a gather or scatter, active or not (R207). -/
def laneOffset (x : BitVec 1) (b : BitVec 5) (a : BitVec 4) (j : Nat) : Int :=
  (s.regN a.toNat).toInt + (lane 32 (s.vec (x == 1) b) j : Nat)

/-- Lane `j` of a gather or scatter is active and R116 does not admit its offset. -/
def laneFails (x : BitVec 1) (b : BitVec 5) (a : BitVec 4) (m : BitVec 3) (j : Nat) : Prop :=
  (s.mask m).getLsbD j = true ∧ admitted false (s.laneOffset x b a j) 4 = false

theorem offsets_eq_map_laneOffset (x : BitVec 1) (b : BitVec 5) (a : BitVec 4) (m : BitVec 3) :
    s.offsets x b a m =
      (List.range 16).map fun j => if (s.mask m).getLsbD j then some (s.laneOffset x b a j) else none := rfl

theorem badOffset_of_lowest_failing_lane {s : State} {x : BitVec 1} {b : BitVec 5} {a : BitVec 4} {m : BitVec 3} {i : Nat}
    (hi : i < 16) (hfails : s.laneFails x b a m i) (hlow : ∀ j, j < i → ¬s.laneFails x b a m j) :
    badOffset (s.offsets x b a m) = some (s.laneOffset x b a i) := by
  obtain ⟨hactive, hbad⟩ := hfails
  have hfirst : (List.range 16).find? (fun j => (if (s.mask m).getLsbD j then some (s.laneOffset x b a j) else none).any
      fun e => !admitted false e 4) = some i := by
    refine List.find?_range_eq_some.2 ⟨by simp [hactive, hbad], List.mem_range.2 hi, fun j hj => ?_⟩
    have hok := hlow j hj
    by_cases hon : (s.mask m).getLsbD j = true
    · simpa [laneFails, hon] using hok
    · simp [hon]
  rw [badOffset, offsets_eq_map_laneOffset, List.filterMap_map, Function.id_comp, List.find?_filterMap, hfirst]
  simp [hactive]

end State

theorem execVgather_of_badOffset {s : State} {x : BitVec 1} {b : BitVec 5} {a : BitVec 4} {m : BitVec 3} {e : Int}
    (hmain : s.here.inHandler = false) (hbad : badOffset (s.offsets x b a m) = some e) (d l : BitVec 5) :
    execVgather x d b a m l s = .next (s.misaligned (w64 e)) := by
  simp [execVgather, State.mainOnly_of_not_inHandler hmain, hbad]

theorem execVscatter_of_badOffset {s : State} {x : BitVec 1} {b : BitVec 5} {a : BitVec 4} {m : BitVec 3} {e : Int}
    (hmain : s.here.inHandler = false) (hbad : badOffset (s.offsets x b a m) = some e) (d : BitVec 5) :
    execVscatter x d b a m s = .next (s.misaligned (w64 e)) := by
  simp [execVscatter, State.mainOnly_of_not_inHandler hmain, hbad]

/-- Every instruction of `accessOf` is one load or one store of the shared kind at the offset, size and scratchpad named there;
the lines of 64 bytes are so outside the message-handler context. -/
theorem exec_eq_loadInto_or_storeFrom {s : State} {i : Instr} {cluster : Bool} {size : Nat} {a : BitVec 5} {f : BitVec 6}
    (haccess : accessOf i = some (cluster, size, a, f)) (hmain : size = 64 → s.here.inHandler = false) :
    (∃ port l ext, exec i s = .next (s.loadInto cluster port a f size l ext)) ∨
      ∃ v, exec i s = .next (s.storeFrom cluster v a f size) := by
  have whole (t : State) (h64 : size = 64) : s.mainOnly t = t := State.mainOnly_of_not_inHandler (hmain h64) t
  unfold accessOf at haccess
  split at haccess <;> cases haccess
  case h_1 | h_2 | h_3 | h_4 | h_5 | h_6 | h_7 | h_14 | h_15 | h_16 => exact .inl ⟨_, _, _, rfl⟩
  case h_8 | h_9 | h_10 | h_11 | h_17 | h_18 => exact .inr ⟨_, rfl⟩
  case h_12 | h_19 => exact .inl ⟨_, _, _, congrArg _ (whole _ rfl)⟩
  case h_13 | h_20 => exact .inr ⟨_, congrArg _ (whole _ rfl)⟩

theorem exec_access_of_not_admitted {s : State} {i : Instr} {cluster : Bool} {size : Nat} {a : BitVec 5} {f : BitVec 6}
    (haccess : accessOf i = some (cluster, size, a, f)) (hmain : size = 64 → s.here.inHandler = false)
    (hbad : admitted cluster (effective (s.reg a) f size) size = false) :
    exec i s = .next (s.misaligned (w64 (effective (s.reg a) f size))) := by
  obtain ⟨port, l, ext, hload⟩ | ⟨v, hstore⟩ := exec_eq_loadInto_or_storeFrom haccess hmain
  · rw [hload, s.loadInto_of_not_admitted hbad]
  · rw [hstore, s.storeFrom_of_not_admitted hbad]

/-- Settles O19: a load or store of R116 checks its offset before anything else, and a gather or scatter takes its trap from the
lowest active lane whose offset is not admitted (R207). -/
theorem unadmittedAccessesTrap : Obligations.UnadmittedAccessesTrap := by
  unfold Obligations.UnadmittedAccessesTrap
  constructor
  · intro s i cluster size a f haccess hmain ea hbad
    exact exec_access_of_not_admitted haccess hmain ((admitted_eq_false_iff cluster ea size).2 hbad)
  · intro s x d b l a m i hmain hi ea fails hfails hlow
    have hlane (j : Nat) : s.laneFails x b a m j ↔ fails j :=
      and_congr_right fun _ => admitted_eq_false_iff false (s.laneOffset x b a j) 4
    have hfirst : badOffset (s.offsets x b a m) = some (ea i) :=
      State.badOffset_of_lowest_failing_lane hi ((hlane i).2 hfails) fun j hj => mt (hlane j).1 (hlow j hj)
    exact ⟨execVgather_of_badOffset hmain hfirst d l, execVscatter_of_badOffset hmain hfirst d⟩

end Sys2Proof.Machine
end

section
/-! SUPPORT. R160: the division words are the truncating division and remainder of bit vectors, but for the quotients by zero. -/

namespace Sys2Proof.Machine

theorem w64_toInt (a : W64) : w64 a.toInt = a := BitVec.ofInt_toInt

/-- The one dividend and divisor whose signed quotient does not fit in 64 bits. -/
theorem toInt_eq_min_iff (a : W64) : a.toInt = -(2 ^ 63) ↔ a = BitVec.intMin 64 := by
  rw [← BitVec.toInt_inj, show (BitVec.intMin 64).toInt = -(2 ^ 63) by decide]

theorem toInt_eq_neg_one_iff (b : W64) : b.toInt = -1 ↔ b = -1#64 := by
  rw [← BitVec.toInt_inj, show (-1#64).toInt = -1 by decide]

theorem toInt_divSigned {a b : W64} (hb : b ≠ 0) (hfits : ¬(a.toInt = -(2 ^ 63) ∧ b.toInt = -1)) :
    (divSigned a b).toInt = a.toInt.tdiv b.toInt := by
  have hquotient : (a.sdiv b).toInt = a.toInt.tdiv b.toInt := by
    rw [toInt_eq_min_iff, toInt_eq_neg_one_iff, not_and_or] at hfits
    exact BitVec.toInt_sdiv_of_ne_or_ne a b hfits
  rw [divSigned, if_neg hb, ← hquotient, w64_toInt]

theorem divUnsigned_eq_udiv {a b : W64} (hb : b ≠ 0) : divUnsigned a b = a / b := by
  rw [divUnsigned, if_neg hb, BitVec.udiv_def]

/-- The remainder of a zero divisor is the dividend, as for bit vectors. -/
theorem remSigned_eq_srem (a b : W64) : remSigned a b = a.srem b := by
  unfold remSigned
  split
  · next hb =>
    subst hb
    exact BitVec.srem_zero.symm
  · rw [← BitVec.toInt_srem, w64_toInt]

theorem remUnsigned_eq_umod (a b : W64) : remUnsigned a b = a % b := by
  unfold remUnsigned
  split
  · next hb =>
    subst hb
    exact BitVec.umod_zero.symm
  · rw [BitVec.umod_def]

theorem toInt_remSigned (a b : W64) : (remSigned a b).toInt = a.toInt.tmod b.toInt := by
  rw [remSigned_eq_srem, BitVec.toInt_srem]

theorem State.under_of_guarded {s : State} {g : BitVec 3} (hg : s.guarded g false = true) (t : State) : s.under g t = t :=
  if_pos hg

/-- Under a guard that holds, each division word sends the result of its function and does nothing else: it has no trap. -/
theorem runs_division_of_guarded {s : State} {g : BitVec 3} (hg : s.guarded g false = true) (d m n : BitVec 5) :
    s.runs [(.div d m n g, s.toReg d 20 (divSigned (s.reg m) (s.reg n))),
      (.divu d m n g, s.toReg d 20 (divUnsigned (s.reg m) (s.reg n))),
      (.rem d m n g, s.toReg d 20 (remSigned (s.reg m) (s.reg n))),
      (.remu d m n g, s.toReg d 20 (remUnsigned (s.reg m) (s.reg n)))] := by
  have sends (v : W64) :
      (.next (s.under g (s.toReg d 20 v)) : Host.Outcome State Fault Refusal) = .next (s.toReg d 20 v) :=
    congrArg _ (State.under_of_guarded hg _)
  simp only [State.runs, List.forall_mem_cons]
  exact ⟨sends _, sends _, sends _, sends _, by simp⟩

/-- Settles O54, case by case as the table of R160: no overflow, unsigned, zero divisor, overflow, and the words themselves. -/
theorem divisionTruncates : Obligations.DivisionTruncates := by
  unfold Obligations.DivisionTruncates
  intro a b
  refine ⟨fun hb hfits => ⟨toInt_divSigned hb hfits, ?_, fun ha => ?_, fun ha => ?_⟩, fun hb => ⟨?_, ?_⟩, ?_, ?_, ?_⟩
  · rw [toInt_remSigned, Int.tmod_def]
  · rw [toInt_remSigned]
    exact Int.tmod_nonneg _ ha
  · rw [toInt_remSigned, ← neg_nonneg, ← Int.neg_tmod]
    exact Int.tmod_nonneg _ (neg_nonneg.2 ha)
  · rw [divUnsigned_eq_udiv hb, BitVec.toNat_udiv]
  · rw [remUnsigned_eq_umod, BitVec.toNat_umod, Nat.mod_eq_sub_mul_div]
  · rintro rfl
    exact ⟨if_pos rfl, if_pos rfl, if_pos rfl, if_pos rfl⟩
  · intro ha hb
    obtain rfl := (toInt_eq_min_iff a).1 ha
    obtain rfl := (toInt_eq_neg_one_iff b).1 hb
    decide
  · rintro s d m n g hg rfl rfl
    exact runs_division_of_guarded hg d m n

end Sys2Proof.Machine
end

section
/-! SUPPORT. R119, R181 and R182 for byte lanes: the number that lanes make and the lanes of that number, the landing of results
without flags, and the fields of a V word. -/

namespace Sys2Proof.Machine

theorem lane_lt (w : Nat) (v : Vec) (i : Nat) : lane w v i < 2 ^ w := Nat.mod_lt _ (Nat.two_pow_pos w)

theorem ofLanes_lt (w : Nat) (l : List Nat) : ofLanes w l < 2 ^ (w * l.length) := by
  induction l with
  | nil => simp [ofLanes]
  | cons v vs ih =>
    have hv : v % 2 ^ w < 2 ^ w := Nat.mod_lt _ (Nat.two_pow_pos w)
    calc ofLanes w (v :: vs) = v % 2 ^ w + 2 ^ w * ofLanes w vs := rfl
      _ < 2 ^ w * (ofLanes w vs + 1) := by rw [Nat.mul_succ]; omega
      _ ≤ 2 ^ w * 2 ^ (w * vs.length) := Nat.mul_le_mul_left _ ih
      _ = 2 ^ (w * (v :: vs).length) := by rw [← Nat.pow_add, List.length_cons, Nat.mul_succ, Nat.add_comm]

theorem bits_ofLanes (w : Nat) (l : List Nat) (i : Nat) (hi : i < l.length) :
    bits (ofLanes w l) (w * i) w = l[i] % 2 ^ w := by
  induction l generalizing i with
  | nil => simp at hi
  | cons v vs ih =>
    cases i with
    | zero => simp [bits, ofLanes]
    | succ i =>
      have hup : (v % 2 ^ w + 2 ^ w * ofLanes w vs) / 2 ^ w = ofLanes w vs := by
        rw [Nat.add_mul_div_left _ _ (Nat.two_pow_pos w), Nat.div_eq_of_lt (Nat.mod_lt _ (Nat.two_pow_pos w)), Nat.zero_add]
      rw [bits, ofLanes, Nat.mul_succ, Nat.add_comm (w * i), Nat.pow_add, ← Nat.div_div_eq_div_mul, hup]
      exact ih i (by simpa using hi)

theorem toNat_ofNat_ofLanes {n w : Nat} {l : List Nat} (hl : w * l.length ≤ n) :
    (BitVec.ofNat n (ofLanes w l)).toNat = ofLanes w l := by
  rw [BitVec.toNat_ofNat]
  exact Nat.mod_eq_of_lt ((ofLanes_lt w l).trans_le (Nat.pow_le_pow_right Nat.two_pos hl))

theorem lane_ofNat_ofLanes {w : Nat} {l : List Nat} (hl : w * l.length ≤ 512) {i : Nat} (hi : i < l.length) :
    lane w (BitVec.ofNat 512 (ofLanes w l)) i = l[i] % 2 ^ w := by
  rw [lane, toNat_ofNat_ofLanes hl, bits_ofLanes w l i hi]

/-- A register that holds, in each of its 64 bytes, a given byte. -/
theorem exists_vec_of_bytes (f : Nat → Nat) (hf : ∀ j, f j < 256) :
    ∃ v : Vec, v.toNat = ofLanes 8 ((List.range 64).map f) ∧ ∀ j, j < 64 → lane 8 v j = f j := by
  have hlen : 8 * ((List.range 64).map f).length ≤ 512 := by simp
  refine ⟨_, toNat_ofNat_ofLanes hlen, fun j hj => ?_⟩
  have hget := lane_ofNat_ofLanes hlen (i := j) (by simpa using hj)
  simpa [Nat.mod_eq_of_lt (hf j)] using hget

theorem testBit_seven_of_byte {n : Nat} (hn : n < 256) : n.testBit 7 = decide (128 ≤ n) := by
  rw [Nat.testBit_eq_decide_div_mod_eq]
  exact decide_eq_decide.2 (by omega)

theorem flagsOf_eq_zero {es : List (Nat × BitVec 8)} (h : ∀ e ∈ es, e.2 = 0) : flagsOf es = 0 := by
  unfold flagsOf
  induction es with
  | nil => rfl
  | cons e es ih =>
    obtain ⟨he, hes⟩ := List.forall_mem_cons.1 h
    rw [List.foldl_cons, he]
    exact ih hes

/-- Elements that raise nothing offer nothing (R150). -/
theorem offerOf_eq_none (osn : W64) {es : List (Nat × BitVec 8)} (h : ∀ e ∈ es, e.2 = 0) : offerOf osn es = none := by
  unfold offerOf
  induction es with
  | nil => rfl
  | cons e es ih =>
    obtain ⟨he, hes⟩ := List.forall_mem_cons.1 h
    have hnone : Offer.ofElem osn e.1 e.2 = none := by rw [he]; rfl
    rw [List.foldl_cons, hnone]
    exact ih hes

namespace State

variable (s : State)

/-- What a lane lands: its result where it is active, and else zero or what the register held (R63, R181). -/
def landedLane (y : Bool) (d : BitVec 5) (w : Nat) (z : Bool) (on : Nat → Bool) (f : Nat → Nat) (i : Nat) : Nat :=
  if on i then f i else if z then 0 else lane w (s.oldVec y d) i

theorem landLanes_plain (y : Bool) (d : BitVec 5) (w lat : Nat) (z : Bool) (on : Nat → Bool) (f : Nat → Nat) :
    s.landLanes y d w lat z on (fun i => plain (f i)) = s.onHere fun c => c.landFlagged (vPort y d.toNat) lat
      (ofLanes w ((List.range (512 / w)).map (s.landedLane y d w z on f))) 0 none := by
  have hquiet : ∀ e ∈ ((List.range (512 / w)).map fun i => (i, if on i then some (plain (f i)) else none)).filterMap
      fun r => r.2.map fun x => (r.1, x.flags), e.2 = (0 : BitVec 8) := by
    intro e he
    obtain ⟨r, hr, hre⟩ := List.mem_filterMap.1 he
    obtain ⟨i, -, rfl⟩ := List.mem_map.1 hr
    obtain ⟨x, hx, rfl⟩ := Option.map_eq_some_iff.1 hre
    obtain ⟨-, hfi⟩ := Option.ite_none_right_eq_some.1 hx
    obtain rfl := Option.some.inj hfi
    rfl
  rw [landLanes]
  simp only [flagsOf_eq_zero hquiet, offerOf_eq_none _ hquiet, List.map_map]
  refine congrArg (fun l => s.onHere fun c => c.landFlagged (vPort y d.toNat) lat (ofLanes w l) 0 none)
    (List.map_congr_left fun i _ => ?_)
  by_cases hon : on i = true
  · simp [landedLane, plain, hon]
  · simp [landedLane, hon]

/-- A word masked by bytes lands, outside the message-handler context, the byte of its function where the mask has a one. -/
theorem exists_bytewise_lands {s : State} (hmain : s.here.inHandler = false) (x : BitVec 1) (d : BitVec 5) (m : BitVec 3)
    (z : BitVec 1) (lat : Nat) {f : Nat → Nat} (hf : ∀ j, f j < 256) :
    ∃ v : Vec, s.bytewise x d m z lat f =
        s.onHere (fun c => c.landFlagged (vPort (x == 1) d.toNat) lat v.toNat 0 none) ∧
      ∀ j, j < 64 → lane 8 v j =
        if (s.mask m).getLsbD j then f j else if z = 1 then 0 else lane 8 (s.oldVec (x == 1) d) j := by
  obtain ⟨v, hv, hbytes⟩ := exists_vec_of_bytes
    (s.landedLane (x == 1) d 8 (z == 1) (fun i => (s.mask m).getLsbD (maskBit 8 i)) f) fun j => by
      unfold landedLane
      split
      · exact hf j
      · split
        · exact Nat.zero_lt_succ _
        · exact lane_lt 8 _ j
  refine ⟨v, ?_, fun j hj => ?_⟩
  · rw [bytewise, masked, vector, mainOnly_of_not_inHandler hmain, landLanes_plain, hv]
  · rw [hbytes j hj]
    simp [landedLane, maskBit]

/-- A vector without flags lands whole outside the message-handler context. -/
theorem exists_toVec_lands {s : State} (hmain : s.here.inHandler = false) (x : BitVec 1) (d : BitVec 5) (lat : Nat)
    {f : Nat → Nat} (hf : ∀ j, f j < 256) :
    ∃ v : Vec, s.toVec x d lat (ofLanes 8 ((List.range 64).map f)) =
        s.onHere (fun c => c.land (vPort (x == 1) d.toNat) lat v.toNat) ∧
      ∀ j, j < 64 → lane 8 v j = f j := by
  obtain ⟨v, hv, hbytes⟩ := exists_vec_of_bytes f hf
  exact ⟨v, by rw [toVec, mainOnly_of_not_inHandler hmain, hv], hbytes⟩

end State

/-- The fields of a V word of major 0x6 (R42, R53): its op, its zeroing bit and its mask field. -/
theorem vFields_of_pack {c : Bool} {op z : Nat} {x : BitVec 1} {d a b : BitVec 5} {k : BitVec 3} {w : W32}
    (h : pack c (0x30000000 + 0x80000 * op) (67108864 * x.toNat + 16384 * d.toNat + 512 * a.toNat + 16 * b.toNat +
      2 * k.toNat + z) = some w) (hop : op < 128) (hz : z < 2) :
    vFields w = (6, op, z) ∧ w.toNat / 2 % 8 = k.toNat := by
  have hx := x.isLt
  have hd := d.isLt
  have ha := a.isLt
  have hb := b.isLt
  have hk := k.isLt
  obtain ⟨zeroing, mask, -, -, -, opcode, -, major, -⟩ := Laws.RoundTrip.pack_reads h
    [(z, 1), (k.toNat, 3), (b.toNat, 5), (a.toNat, 5), (d.toNat, 5), (op, 7), (x.toNat, 1), (6, 4)]
    ⟨by omega, by omega, by omega, by omega, by omega, by omega, by omega, by omega, trivial⟩
    (by simp only [Laws.RoundTrip.runs]; omega) rfl (by omega)
  refine ⟨?_, mask⟩
  rw [vFields, show w.toNat / 2 ^ 27 % 16 = 6 from major, show w.toNat / 2 ^ 19 % 128 = op from opcode,
    show w.toNat % 2 = z by simpa using zeroing]

/-- Settles O13: VSEL is the landing of the bytes that its selector picks. -/
theorem selectTakesBytesByMask : Obligations.SelectTakesBytesByMask := by
  unfold Obligations.SelectTakesBytesByMask
  intro s x d a b k hmain
  constructor
  · intro c
    exact ⟨_, rfl, vFields_of_pack (op := 0x28) (z := 0) rfl (by decide) (by decide)⟩
  · have hbyte (j : Nat) : (if (s.mask k).getLsbD j then lane 8 (s.vec (x == 1) a) j else lane 8 (s.vec (x == 1) b) j) < 256 := by
      split <;> exact lane_lt 8 _ j
    obtain ⟨v, hlands, hbytes⟩ := State.exists_toVec_lands hmain x d 2 hbyte
    exact ⟨v, congrArg _ hlands, hbytes⟩

theorem encode_vperm_fields (c : Bool) (x : BitVec 1) (d a b : BitVec 5) (m : BitVec 3) (z : BitVec 1) :
    ∃ w, encode c (.vperm x d a b m z) = some w ∧ vFields w = (6, 0x2E, z.toNat) :=
  ⟨_, rfl, (vFields_of_pack (op := 0x2E) rfl (by decide) z.isLt).1⟩

theorem encode_vshuf_fields (c : Bool) (x : BitVec 1) (d a b : BitVec 5) (m : BitVec 3) (z : BitVec 1) :
    ∃ w, encode c (.vshuf x d a b m z) = some w ∧ vFields w = (6, 0x2F, z.toNat) :=
  ⟨_, rfl, (vFields_of_pack (op := 0x2F) rfl (by decide) z.isLt).1⟩

/-- Byte `j` of VPERM of `va` by the index bytes of `vb` (R204). -/
def permByte (va vb : Vec) (j : Nat) : Nat :=
  if (lane 8 vb j).testBit 7 then 0 else lane 8 va (lane 8 vb j % 64)

/-- Byte `n` of the table that `va` and `vb` make for VSHUF (R204). -/
def pairByte (va vb : Vec) (n : Nat) : Nat := if n < 64 then lane 8 va n else lane 8 vb (n - 64)

/-- Byte `j` of VSHUF from `va` and `vb` by the index bytes of `vd` (R204). -/
def shufByte (va vb vd : Vec) (j : Nat) : Nat :=
  if (lane 8 vd j).testBit 7 then 0 else pairByte va vb (lane 8 vd j % 128)

theorem permByte_lt (va vb : Vec) (j : Nat) : permByte va vb j < 256 := by
  unfold permByte
  split
  · exact Nat.zero_lt_succ _
  · exact lane_lt 8 _ _

theorem pairByte_lt (va vb : Vec) (n : Nat) : pairByte va vb n < 256 := by
  unfold pairByte
  split <;> exact lane_lt 8 _ _

theorem shufByte_lt (va vb vd : Vec) (j : Nat) : shufByte va vb vd j < 256 := by
  unfold shufByte
  split
  · exact Nat.zero_lt_succ _
  · exact pairByte_lt va vb _

/-- An index byte has bit 7 where it is 128 or more. -/
theorem permByte_eq (va vb : Vec) (j : Nat) :
    permByte va vb j = if 128 ≤ lane 8 vb j then 0 else lane 8 va (lane 8 vb j % 64) := by
  simp only [permByte, testBit_seven_of_byte (lane_lt 8 vb j), decide_eq_true_eq]

/-- An index byte without bit 7 is its own low seven bits. -/
theorem shufByte_eq (va vb vd : Vec) (j : Nat) :
    shufByte va vb vd j = if 128 ≤ lane 8 vd j then 0 else pairByte va vb (lane 8 vd j) := by
  simp only [shufByte, testBit_seven_of_byte (lane_lt 8 vd j), decide_eq_true_eq]
  split
  · rfl
  · next hlow => rw [Nat.mod_eq_of_lt (Nat.lt_of_not_le hlow)]

theorem exec_vperm (s : State) (x : BitVec 1) (d a b : BitVec 5) (m : BitVec 3) (z : BitVec 1) :
    exec (.vperm x d a b m z) s = .next (s.bytewise x d m z 3 (permByte (s.vec (x == 1) a) (s.vec (x == 1) b))) := by
  rw [funext (permByte_eq (s.vec (x == 1) a) (s.vec (x == 1) b))]
  rfl

theorem exec_vshuf (s : State) (x : BitVec 1) (d a b : BitVec 5) (m : BitVec 3) (z : BitVec 1) :
    exec (.vshuf x d a b m z) s =
      .next (s.bytewise x d m z 3 (shufByte (s.vec (x == 1) a) (s.vec (x == 1) b) (s.vec (x == 1) d))) := by
  rw [funext (shufByte_eq (s.vec (x == 1) a) (s.vec (x == 1) b) (s.vec (x == 1) d))]
  rfl

/-- Settles O14: each word lands, byte by byte, what its index byte names in its table. -/
theorem permutesSelectBytesByIndex : Obligations.PermutesSelectBytesByIndex := by
  unfold Obligations.PermutesSelectBytesByIndex
  intro s x d a b m z hmain y va vb vd table masked lands
  refine ⟨fun c => ?_, fun c => ?_, ?_, ?_⟩
  · obtain ⟨w, hw, hfields⟩ := encode_vperm_fields c x d a b m z
    exact ⟨w, hw, by rw [hfields], by rw [hfields]⟩
  · obtain ⟨w, hw, hfields⟩ := encode_vshuf_fields c x d a b m z
    exact ⟨w, hw, by rw [hfields], by rw [hfields]⟩
  · obtain ⟨v, hlands, hbytes⟩ := State.exists_bytewise_lands hmain x d m z 3 (permByte_lt va vb)
    exact ⟨v, (exec_vperm s x d a b m z).trans (congrArg _ hlands), hbytes⟩
  · obtain ⟨v, hlands, hbytes⟩ := State.exists_bytewise_lands hmain x d m z 3 (shufByte_lt va vb vd)
    exact ⟨v, (exec_vshuf s x d a b m z).trans (congrArg _ hlands), hbytes⟩

end Sys2Proof.Machine
end

section
/-! SUPPORT. R183: what the words of the majors 0x5 and 0x6 do to the count of stochastic-rounding values of the bundle in hand,
and which roundings do not depend on RM. -/

namespace Sys2Proof.Machine

/-! Results in flight leave the bundle in hand alone. -/

@[simp] theorem Core.send_iss (c : Core) (port : Port) (lat : Nat) (l : Landing) : (c.send port lat l).iss = c.iss := by
  obtain ⟨ls, h, -⟩ := c.send_eq port lat l
  rw [h]

@[simp] theorem Core.land_iss (c : Core) (port : Port) (lat v : Nat) : (c.land port lat v).iss = c.iss :=
  c.send_iss port lat _

@[simp] theorem Core.landFlagged_iss (c : Core) (port : Port) (lat v : Nat) (flags : BitVec 8) (offer : Option Offer) :
    (c.landFlagged port lat v flags offer).iss = c.iss :=
  c.send_iss _ lat _

namespace State

variable {s : State}

theorem takeSr_srUsed (s : State) (uses : Bool) :
    (s.takeSr uses).here.iss.srUsed = s.here.iss.srUsed + if uses && fieldOf s.mode 0 3 == 4 then 1 else 0 := by
  unfold takeSr
  split
  · rw [here_onHere]
  · rfl

/-! Outside the message-handler context each kind of vector word only sends results, after it has taken its value or none. -/

theorem landLanes_iss (s : State) (y : Bool) (d : BitVec 5) (w lat : Nat) (z : Bool) (on : Nat → Bool) (f : Nat → Rounded) :
    (s.landLanes y d w lat z on f).here.iss = s.here.iss := by
  rw [landLanes, here_onHere, Core.landFlagged_iss]

theorem toMask_iss (s : State) (k : BitVec 3) (lat v : Nat) (es : List (Nat × BitVec 8)) :
    (s.toMask k lat v es).here.iss = s.here.iss := by
  rw [toMask, here_onHere, Core.landFlagged_iss]

theorem toReg_iss (s : State) (d : BitVec 5) (lat : Nat) (v : W64) : (s.toReg d lat v).here.iss = s.here.iss := by
  rw [toReg, here_onHere, Core.land_iss]

theorem mainOnly_iss (hmain : s.here.inHandler = false) (t : State) : (s.mainOnly t).here.iss = t.here.iss := by
  rw [mainOnly_of_not_inHandler hmain]

theorem vector_iss (hmain : s.here.inHandler = false) (y : Bool) (d : BitVec 5) (w lat : Nat) (z : Bool) (on : Nat → Bool)
    (f : Nat → Rounded) : (s.vector y d w lat z on f).here.iss = s.here.iss := by
  rw [vector, mainOnly_iss hmain, landLanes_iss]

theorem masked_iss (hmain : s.here.inHandler = false) (x : BitVec 1) (d : BitVec 5) (m : BitVec 3) (z : BitVec 1) (w lat : Nat)
    (f : Nat → Rounded) : (s.masked x d m z w lat f).here.iss = s.here.iss :=
  vector_iss hmain ..

theorem takeSr_masked_iss (hmain : s.here.inHandler = false) (uses : Bool) (x : BitVec 1) (d : BitVec 5) (m : BitVec 3)
    (z : BitVec 1) (w lat : Nat) (f : Nat → Rounded) :
    ((s.takeSr uses).masked x d m z w lat f).here.iss = (s.takeSr uses).here.iss :=
  masked_iss ((s.takeSr_inHandler uses).trans hmain) ..

theorem compare_iss (hmain : s.here.inHandler = false) (k m : BitVec 3) (z : BitVec 1) (n : Nat) (f : Nat → Bool × BitVec 8) :
    (s.compare k m z n f).here.iss = s.here.iss := by
  rw [compare, mainOnly_iss hmain, toMask_iss]

theorem reduce_iss (hmain : s.here.inHandler = false) (x : BitVec 1) (d a b : BitVec 5) (m : BitVec 3) (w : Nat)
    (f : Nat → List (Option Nat) → Rounded) : (s.reduce x d a b m w f).here.iss = s.here.iss := by
  rw [reduce, mainOnly_iss hmain, here_onHere, Core.landFlagged_iss]

theorem toVec_iss (hmain : s.here.inHandler = false) (x : BitVec 1) (d : BitVec 5) (lat v : Nat) :
    (s.toVec x d lat v).here.iss = s.here.iss := by
  rw [toVec, mainOnly_iss hmain, here_onHere, Core.land_iss]

end State

theorem execVcvt_iss {s t : State} (hmain : s.here.inHandler = false) {x : BitVec 1} {f g : BitVec 4} {d a : BitVec 5}
    {m : BitVec 3} {z : BitVec 1} (h : execVcvt x f d a g m z s = .next t) : t.here.iss = (s.takeSr true).here.iss := by
  obtain rfl := Host.Outcome.next.inj h
  exact State.vector_iss ((s.takeSr_inHandler true).trans hmain) ..

theorem execVmxq_iss {s t : State} (hmain : s.here.inHandler = false) {x : BitVec 1} {d a b : BitVec 5} {e : BitVec 3}
    (h : execVmxq x d a b e s = .next t) : t.here.iss = (s.takeSr true).here.iss := by
  obtain rfl := Host.Outcome.next.inj h
  rw [State.mainOnly_iss hmain, State.here_onHere, Core.landFlagged_iss]

theorem execVmxd_iss {s t : State} (hmain : s.here.inHandler = false) {x : BitVec 1} {d a b : BitVec 5} {e : BitVec 3}
    (h : execVmxd x d a b e s = .next t) : t.here.iss = (s.takeSr true).here.iss := by
  obtain rfl := Host.Outcome.next.inj h
  rw [State.mainOnly_iss hmain, State.here_onHere, Core.land_iss, Core.landFlagged_iss]

/-- The major opcode of a packed word whose fields do not reach it (R42). -/
theorem major_of_pack {c : Bool} {k f : Nat} {w : W32} (h : pack c k f = some w) (hlt : k % 2 ^ 27 + f < 2 ^ 27) :
    w.toNat / 2 ^ 27 % 16 = k / 2 ^ 27 % 16 := by
  obtain rfl := Option.some.inj h
  rw [BitVec.toNat_ofNat]
  omega

/-- A word of major 0x5 or 0x6 leaves of the bundle in hand what taking its value, if it is one of the list, leaves. -/
theorem iss_of_exec_vectorWord {s t : State} {i : Instr} {c : Bool} {w : W32} (hmain : s.here.inHandler = false)
    (hw : encode c i = some w) (hmajor : w.toNat / 2 ^ 27 % 16 = 5 ∨ w.toNat / 2 ^ 27 % 16 = 6) (h : exec i s = .next t) :
    t.here.iss = (s.takeSr (consumesRandom i)).here.iss := by
  cases i
  case vadd | vsub | vmul | vfma | vfms | vfnma | vmin | vmax | vabs | vneg | vdiv | vsqrt | vfxmulFix64 | vrcpeF32 | vrsqeF32
      | vfexpF32 | vscalebF32 | vgetexpF32 | vrndiF32 | vrndiIF32 | vclassF32 | vrcpeF64 | vrsqeF64 | vfexpF64 | vscalebF64
      | vgetexpF64 | vrndiF64 | vrndiIF64 | vclassF64 =>
    obtain rfl := Host.Outcome.next.inj h
    exact State.takeSr_masked_iss hmain ..
  case viadd | visub | vimul | vimulh | vimin | vimax | vand | vor | vxor | vandn | vshl | vshr | vsar | vfxaddFix64 | vmov
      | vxmov | vbcast | vperm | vshuf =>
    obtain rfl := Host.Outcome.next.inj h
    exact State.masked_iss hmain ..
  case vdot16Bf16 | vdot16F16 | vdot16E4m3 | vdot16E5m2 | vdot16I8 | vdot16Log6 | vdot16E2m1 =>
    obtain rfl := Host.Outcome.next.inj h
    exact State.vector_iss hmain ..
  case vcmpEqFloat | vcmpLtFloat | vcmpLeFloat | vcmpUnFloat | vcmpEqInt | vcmpLtInt | vcmpLtuInt | vcmpLeInt =>
    obtain rfl := Host.Outcome.next.inj h
    exact State.compare_iss hmain ..
  case vredAddF32 | vredAddF64 | vredMinF32 | vredMaxF32 | vredAddI32 | vredAddI64 | vredMinI32 | vredMaxI32 =>
    obtain rfl := Host.Outcome.next.inj h
    exact State.reduce_iss hmain ..
  case vsel | vins =>
    obtain rfl := Host.Outcome.next.inj h
    exact State.toVec_iss hmain ..
  case kand | kor | kxor | knot | kmov | kmovFromS | kuni =>
    obtain rfl := Host.Outcome.next.inj h
    exact (State.mainOnly_iss hmain _).trans (State.toMask_iss ..)
  case vext | kmovToS | kpop =>
    obtain rfl := Host.Outcome.next.inj h
    exact (State.mainOnly_iss hmain _).trans (State.toReg_iss ..)
  case vcvt => exact execVcvt_iss hmain h
  case vmxq => exact execVmxq_iss hmain h
  case vmxd => exact execVmxd_iss hmain h
  -- an event has no word, and every other word has another major
  all_goals simp only [encode, reduceCtorEq] at hw
  all_goals
    have hother := major_of_pack hw (by omega)
    omega

/-! Roundings that do not depend on RM, or take 4 as 0. -/

/-- A group of a dot product rounds to nearest even where RM is 4 (R145). -/
theorem dotGroup_stochastic (r : Rnd) (fmt : Nat) (ts : Num) (acc : Nat) (ps : List (Num × Bool)) :
    dotGroup { r with rm := 4 } fmt ts acc ps = dotGroup { r with rm := 0 } fmt ts acc ps := rfl

theorem dotGroups_stochastic (r : Rnd) (fmt : Nat) (ts : Num) (gs : List (List (Num × Bool))) (acc : Rounded) :
    dotGroups { r with rm := 4 } fmt ts acc gs = dotGroups { r with rm := 0 } fmt ts acc gs := by
  induction gs generalizing acc with
  | nil => rfl
  | cons g gs ih => simp only [dotGroups, dotGroup_stochastic, ih]

/-- The products and the flushed accumulator of a dot product do not depend on RM, and its groups round as with RM 0. -/
theorem dot_stochastic (r : Rnd) (fmt : Nat) (ts : Num) (acc : Nat) (a b : List (Nat × Nat)) :
    dot { r with rm := 4 } fmt ts acc a b = dot { r with rm := 0 } fmt ts acc a b :=
  dotGroups_stochastic r fmt ts _ _

/-! VRCPE, VRSQE and VFEXP put RM to 0 in their own last rounding and read it nowhere else (R186, R187). -/

theorem rcpe_rm (r : Rnd) (rm fmt v : Nat) : rcpe { r with rm := rm } fmt v = rcpe r fmt v := rfl

theorem rsqe_rm (r : Rnd) (rm fmt v : Nat) : rsqe { r with rm := rm } fmt v = rsqe r fmt v := rfl

theorem fexp_rm (r : Rnd) (rm fmt v : Nat) : fexp { r with rm := rm } fmt v = fexp r fmt v := rfl

/-- The sum of VRED is one dot product with ones (R195). -/
theorem redAddFloat_stochastic (r : Rnd) (fmt acc : Nat) (us : List (Option Nat)) :
    redAddFloat { r with rm := 4 } fmt acc us = redAddFloat { r with rm := 0 } fmt acc us :=
  dot_stochastic ..

/-- Settles O17: by the kinds of the vector words for the count, and by the roundings of groups and estimates for the rest. -/
theorem stochasticValuesAreTakenByTheListedWords : Obligations.StochasticValuesAreTakenByTheListedWords := by
  unfold Obligations.StochasticValuesAreTakenByTheListedWords
  refine ⟨?_, ?_, redAddFloat_stochastic, ?_⟩
  · intro s t i c w hmain hw hmajor h
    rw [iss_of_exec_vectorWord hmain hw hmajor h, State.takeSr_srUsed]
  · intro r fmt acc ts a b
    exact dot_stochastic r fmt ts acc a b
  · intro r rm fmt v
    exact ⟨rcpe_rm r rm fmt v, rsqe_rm r rm fmt v, fexp_rm r rm fmt v⟩

end Sys2Proof.Machine
end
